-- ==== Sys2Proof/Word.lean ====
section
/-! DEFINITION. The word types of the D9 and their plainest names. -/
namespace Sys2Proof

/-- A byte of any memory. -/
abbrev Byte := BitVec 8
/-- An instruction word (R94). -/
abbrev W32 := BitVec 32
/-- A scalar, address or status register. -/
abbrev W64 := BitVec 64
/-- A whole 1 KiB vector register (Table 4-5). -/
abbrev VWord := BitVec 8192
/-- A directional register: 256 elements of 16 bits (R48). -/
abbrev DWord := BitVec 4096
/-- The guard field G of a private word (R101). -/
abbrev Guard := BitVec 5
/-- A six-bit operand field (R102). -/
abbrev F6 := BitVec 6
/-- A cause code (R11). -/
abbrev Cause := Nat

/-- The four engines of a core (R95), in the order S, V, M, X in which ties between them are settled (R150, R157). -/
inductive Engine where
  | S | V | M | X
deriving DecidableEq, Repr

/-- A word's low bits as a signed number of `n` bits. -/
def sextTo (w n : Nat) (x : Nat) : BitVec w := BitVec.ofInt w (if 2 ^ n ≤ 2 * (x % 2 ^ n) then (x % 2 ^ n : Int) - 2 ^ n else (x % 2 ^ n : Int))

end Sys2Proof
end

