-- ==== Sys2Proof/Syntax.lean ====
section
/-! DEFINITION. The one inductive of everything the D9 does in one step: every instruction of the opcode table with its
fields as chapter 4 lays them out, and every event and command row of the table with what names its object.

Operand fields are the raw bit fields: a value out of its class raises its cause when the instruction executes, after the
guard has passed (R101, R102). `sr` is the scalar field of an SM word, `g` a guard, `p` of a private word its peek bit. -/
namespace Sys2Proof

/-- Who issues an instruction: a stream of the job on a core, or a queue thread of a context. -/
inductive Agent where
  | job (core : Nat) (e : Engine)
  | thread (cxn q : Nat)
deriving DecidableEq, Repr

/-- Where a checker found a mismatch (R438 to R440). -/
inductive ErrSite where
  | stream (core : Nat) (e : Engine)
  | thread (cxn q : Nat)
  | homeAtomic (ag : Agent)
  | homeClose (part : Nat)
  | copy (core tag : Nat)
deriving DecidableEq, Repr

/-- The AtomicOps the host port completes (Table 17-3). -/
inductive HostAtomic where
  | fetchAdd | swap | cas
deriving DecidableEq, Repr

/-- A host access through the device physical aperture (R408). -/
inductive ApertureAccess where
  | read (len : Nat)
  | write (bytes : List Byte)
  | atomic (op : HostAtomic) (size : Nat) (x y : BitVec 128)
deriving DecidableEq, Repr

/-- One constructor per row of the opcode table. -/
inductive Instr where
  /-- R132: Sets s_d to the sum of s_a and s_b, wrapping modulo 2^64. -/
  | add (d : BitVec 6) (a : BitVec 6) (b : BitVec 6)
  /-- R132: Sets s_d to s_a minus s_b, wrapping modulo 2^64. -/
  | sub (d : BitVec 6) (a : BitVec 6) (b : BitVec 6)
  /-- R132: Sets s_d to the low 64 bits of the product of s_a and s_b. -/
  | mul (d : BitVec 6) (a : BitVec 6) (b : BitVec 6)
  /-- R132: Sets s_d to the high 64 bits of the signed 128-bit product. -/
  | mulh (d : BitVec 6) (a : BitVec 6) (b : BitVec 6)
  /-- R132: Sets s_d to the high 64 bits of the unsigned 128-bit product. -/
  | mulhu (d : BitVec 6) (a : BitVec 6) (b : BitVec 6)
  /-- R133: Signed division truncated toward zero; no cause is raised, even on division by zero. -/
  | div (d : BitVec 6) (a : BitVec 6) (b : BitVec 6)
  /-- R133: Unsigned division; division by zero gives 2^64 − 1. -/
  | divu (d : BitVec 6) (a : BitVec 6) (b : BitVec 6)
  /-- R133: Signed remainder; a remainder by zero gives a. -/
  | rem (d : BitVec 6) (a : BitVec 6) (b : BitVec 6)
  /-- R133: Unsigned remainder; a remainder by zero gives a. -/
  | remu (d : BitVec 6) (a : BitVec 6) (b : BitVec 6)
  /-- R132: Bitwise AND of two scalars. -/
  | and (d : BitVec 6) (a : BitVec 6) (b : BitVec 6)
  /-- R132: Bitwise OR of two scalars. -/
  | or (d : BitVec 6) (a : BitVec 6) (b : BitVec 6)
  /-- R132: Bitwise XOR of two scalars. -/
  | xor (d : BitVec 6) (a : BitVec 6) (b : BitVec 6)
  /-- R132: Shifts s_a left by s_b[5:0]. -/
  | shl (d : BitVec 6) (a : BitVec 6) (b : BitVec 6)
  /-- R132: Shifts s_a right logically by s_b[5:0]. -/
  | shr (d : BitVec 6) (a : BitVec 6) (b : BitVec 6)
  /-- R132: Shifts s_a right arithmetically by s_b[5:0]. -/
  | sra (d : BitVec 6) (a : BitVec 6) (b : BitVec 6)
  /-- R132: Signed minimum of two scalars. -/
  | min (d : BitVec 6) (a : BitVec 6) (b : BitVec 6)
  /-- R132: Unsigned minimum of two scalars. -/
  | minu (d : BitVec 6) (a : BitVec 6) (b : BitVec 6)
  /-- R132: Signed maximum of two scalars. -/
  | max (d : BitVec 6) (a : BitVec 6) (b : BitVec 6)
  /-- R132: Unsigned maximum of two scalars. -/
  | maxu (d : BitVec 6) (a : BitVec 6) (b : BitVec 6)
  /-- R135: Sets s_d to s_a when predicate p is 1, and to s_b otherwise. -/
  | sel (d : BitVec 6) (a : BitVec 6) (b : BitVec 6) (p : BitVec 4)
  /-- R132: Adds a sign-extended 12-bit immediate to s_a. -/
  | addi (d : BitVec 6) (a : BitVec 6) (imm : BitVec 12)
  /-- R132: ANDs s_a with a sign-extended immediate. -/
  | andi (d : BitVec 6) (a : BitVec 6) (imm : BitVec 12)
  /-- R132: ORs s_a with a sign-extended immediate. -/
  | ori (d : BitVec 6) (a : BitVec 6) (imm : BitVec 12)
  /-- R132: XORs s_a with a sign-extended immediate. -/
  | xori (d : BitVec 6) (a : BitVec 6) (imm : BitVec 12)
  /-- R132: Shifts s_a left by an immediate count from 0 to 63. -/
  | shli (d : BitVec 6) (a : BitVec 6) (imm : BitVec 6)
  /-- R132: Shifts s_a right logically by an immediate count. -/
  | shri (d : BitVec 6) (a : BitVec 6) (imm : BitVec 6)
  /-- R132: Shifts s_a right arithmetically by an immediate count. -/
  | srai (d : BitVec 6) (a : BitVec 6) (imm : BitVec 6)
  /-- R132: Multiplies s_a by a sign-extended immediate. -/
  | muli (d : BitVec 6) (a : BitVec 6) (imm : BitVec 12)
  /-- R134: Loads a sign-extended 18-bit immediate into s_d. -/
  | li (d : BitVec 6) (imm : BitVec 18)
  /-- R134: Shifts s_d left by 18 bits and ORs in an 18-bit immediate. -/
  | lih (d : BitVec 6) (imm : BitVec 18)
  /-- R134: Sets address register a_d to a_a plus s_b. -/
  | adda (d : BitVec 4) (a : BitVec 4) (b : BitVec 6)
  /-- R134: Sets address register a_d to a_a plus a signed immediate. -/
  | addai (d : BitVec 4) (a : BitVec 4) (imm : BitVec 12)
  /-- R134: Copies scalar s_a into address register a_d. -/
  | mova (d : BitVec 4) (a : BitVec 6)
  /-- R134: Copies address register a_a into scalar s_d. -/
  | movs (d : BitVec 6) (a : BitVec 4)
  /-- R135: Compares two scalars by condition eq, lt, ltu or tst into predicate p_d. -/
  | cmp (c : BitVec 2) (p : BitVec 4) (a : BitVec 6) (b : BitVec 6)
  /-- R135: Compares a scalar with a sign-extended immediate into predicate p_d. -/
  | cmpi (c : BitVec 2) (p : BitVec 4) (a : BitVec 6) (imm : BitVec 12)
  /-- R135: Predicate AND. -/
  | pand (d : BitVec 4) (a : BitVec 4) (b : BitVec 4)
  /-- R135: Predicate OR. -/
  | por (d : BitVec 4) (a : BitVec 4) (b : BitVec 4)
  /-- R135: Predicate XOR. -/
  | pxor (d : BitVec 4) (a : BitVec 4) (b : BitVec 4)
  /-- R135: Sets p_d to p_a AND NOT p_b. -/
  | pandn (d : BitVec 4) (a : BitVec 4) (b : BitVec 4)
  /-- R136: Sets target register t to a PC-relative address and starts fetch there. -/
  | ptgt (t : BitVec 3) (imm : BitVec 21)
  /-- R136: Sets target register t from s_a with bits 1:0 cleared and starts fetch there. -/
  | ptgtr (t : BitVec 3) (a : BitVec 6)
  /-- R137: Unconditional transfer to t after two delay slots. -/
  | j (t : BitVec 3)
  /-- R137: Transfer to t after two delay slots when predicate p is 1. -/
  | jt (t : BitVec 3) (p : BitVec 4)
  /-- R137: Transfer to t after two delay slots when predicate p is 0. -/
  | jf (t : BitVec 3) (p : BitVec 4)
  /-- R140: Pushes the return address, spilling the oldest entry by a strong store when the stack is full, and transfers to t. -/
  | call (t : BitVec 3)
  /-- R141: Pops the return stack, filling from the spill area when the stack is empty, and transfers there. -/
  | ret
  /-- R142: Starts a hardware loop whose count is taken from s_d[31:0]. -/
  | loop (d : BitVec 6) (l : BitVec 6)
  /-- R142: Starts a hardware loop whose count is an 18-bit immediate. -/
  | loopi (l : BitVec 6) (n : BitVec 18)
  /-- R143: Closes an iteration of the innermost loop and either branches back or pops the loop. -/
  | endl
  /-- R143: As ENDL; on the V stream it also decrements the rotating bases. -/
  | endlRot
  /-- R146: Plain sign-extending load from context memory on the LS path. -/
  | ld (sr : BitVec 6) (a : BitVec 4) (z : BitVec 2) (o : BitVec 12)
  /-- R146: Plain zero-extending load from context memory. -/
  | ldu (sr : BitVec 6) (a : BitVec 4) (z : BitVec 2) (o : BitVec 12)
  /-- R146: Plain store to context memory, buffered until the phase boundary. -/
  | st (sr : BitVec 6) (a : BitVec 4) (z : BitVec 2) (o : BitVec 12)
  /-- R148: Sign-extending scratchpad load, or a load from the local store on a queue thread. -/
  | ldsp (sr : BitVec 6) (a : BitVec 4) (z : BitVec 2) (o : BitVec 12)
  /-- R148: Zero-extending scratchpad load. -/
  | ldspu (sr : BitVec 6) (a : BitVec 4) (z : BitVec 2) (o : BitVec 12)
  /-- R148: Scratchpad store, performed at issue + 4. -/
  | stsp (sr : BitVec 6) (a : BitVec 4) (z : BitVec 2) (o : BitVec 12)
  /-- R149: Resolves guard slot g to the value of predicate p. -/
  | gres (g : BitVec 4) (p : BitVec 4)
  /-- R149: Resolves guard slot g to an immediate bit. -/
  | gset (g : BitVec 4) (v : BitVec 1)
  /-- R149: Resolves every masked guard slot to 1. -/
  | gmaskT (m : BitVec 16)
  /-- R149: Resolves every masked guard slot to 0. -/
  | gmaskF (m : BitVec 16)
  /-- R149: Makes every masked guard slot unresolved. -/
  | gclr (m : BitVec 16)
  /-- R153: Configures channel c with its base, slot size and count, and empties it. -/
  | chcfg (c : BitVec 4) (a : BitVec 6) (b : BitVec 6)
  /-- R155: Holds the stream until the channel has at least n available slots. -/
  | chwaitFull (c : BitVec 4) (n : BitVec 12)
  /-- R155: Holds the stream until the channel has at least n free slots. -/
  | chwaitFree (c : BitVec 4) (n : BitVec 12)
  /-- R155: Consumes n channel slots. -/
  | chadvCons (c : BitVec 4) (n : BitVec 12)
  /-- R155: Marks n slots at the producer index as filled. -/
  | chadvProd (c : BitVec 4) (n : BitVec 12)
  /-- R155: Empties a channel and keeps its configuration. -/
  | chrst (c : BitVec 4)
  /-- R157: Adds n to a semaphore count, raising cause 44 on overflow. -/
  | semsig (sr : BitVec 5) (n : BitVec 12)
  /-- R157: Holds the stream until the count reaches n, then subtracts n. -/
  | semwait (sr : BitVec 5) (n : BitVec 12)
  /-- R160: Holds the stream until a copy tag is ready. -/
  | twait (t : BitVec 6)
  /-- R161: Sets p_d to whether a tag is ready, answered from the virtual schedule or from the wall clock. -/
  | ttest (p : BitVec 4) (t : BitVec 6)
  /-- R161: Sets s_d to the lowest masked tag that is ready, or to 64. -/
  | tffr (d : BitVec 6) (a : BitVec 6)
  /-- R162: Holds the stream until VCYC ≥ s_a + imm. -/
  | vcwait (a : BitVec 6) (imm : BitVec 12)
  /-- R160: Copy barrier: holds the stream until every masked tag is ready. -/
  | cbwait (a : BitVec 6)
  /-- R161: Sets p_d to whether every masked tag is ready. -/
  | cbtest (p : BitVec 4) (a : BitVec 6)
  /-- R163: Arrives at the next phase boundary at group scope and holds the stream until release. -/
  | phaseG
  /-- R163: Arrives at the next phase boundary at kernel scope. -/
  | phaseK
  /-- R163: Arrives at the next phase boundary at context scope. -/
  | phaseX
  /-- R83: Orders accesses of path set E before accesses of path set L, acting on the snapshot or the buffer as R83 gives. -/
  | fence (l : BitVec 4) (e : BitVec 4)
  /-- R166: Ends the stream's part of the job and holds it for the rendezvous. -/
  | rdv
  /-- R165: Discards the stream's fetched words and empties its loop buffer. -/
  | iflush
  /-- R168: Raises cause 56 + imm precisely. -/
  | trap (imm : BitVec 3)
  /-- R169: Resumes the trapped job at its resume addresses and returns the thread to QEPC. -/
  | eret
  /-- R169: Resumes the trapped job with the trapping stream restarted at s_a. -/
  | eretAt (a : BitVec 6)
  /-- R170: Reads a status register by selector into s_d. -/
  | rdst (d : BitVec 6) (sr : BitVec 12)
  /-- R170: Writes s_a to a status register by selector, with each field's own checks. -/
  | wrst (a : BitVec 6) (sr : BitVec 12)
  /-- R99: No operation. -/
  | nop
  /-- R98: A hint word in majors 0x70–0x7F; it executes as a no-operation. -/
  | hint (k : BitVec 4) (imm : BitVec 24)
  /-- R364: Atomic add at the point of coherence; the old value is returned. -/
  | atadd (g : BitVec 5) (d : BitVec 6) (a : BitVec 6) (b : BitVec 6) (w : BitVec 1)
  /-- R364: Atomic AND. -/
  | atand (g : BitVec 5) (d : BitVec 6) (a : BitVec 6) (b : BitVec 6) (w : BitVec 1)
  /-- R364: Atomic OR. -/
  | ator (g : BitVec 5) (d : BitVec 6) (a : BitVec 6) (b : BitVec 6) (w : BitVec 1)
  /-- R364: Atomic XOR. -/
  | atxor (g : BitVec 5) (d : BitVec 6) (a : BitVec 6) (b : BitVec 6) (w : BitVec 1)
  /-- R364: Atomic signed minimum. -/
  | atmin (g : BitVec 5) (d : BitVec 6) (a : BitVec 6) (b : BitVec 6) (w : BitVec 1)
  /-- R364: Atomic signed maximum. -/
  | atmax (g : BitVec 5) (d : BitVec 6) (a : BitVec 6) (b : BitVec 6) (w : BitVec 1)
  /-- R364: Atomic unsigned minimum. -/
  | atminu (g : BitVec 5) (d : BitVec 6) (a : BitVec 6) (b : BitVec 6) (w : BitVec 1)
  /-- R364: Atomic unsigned maximum. -/
  | atmaxu (g : BitVec 5) (d : BitVec 6) (a : BitVec 6) (b : BitVec 6) (w : BitVec 1)
  /-- R364: Atomic swap. -/
  | atswp (g : BitVec 5) (d : BitVec 6) (a : BitVec 6) (b : BitVec 6) (w : BitVec 1)
  /-- R365: Atomic compare-and-swap with the compare value taken from sD. -/
  | atcas (g : BitVec 5) (d : BitVec 6) (a : BitVec 6) (b : BitVec 6) (w : BitVec 1)
  /-- R365: 16-byte atomic compare-and-swap using register pairs. -/
  | atcas16 (g : BitVec 5) (d : BitVec 6) (a : BitVec 6) (b : BitVec 6)
  /-- R366: Unordered FP32 atomic add; the old value and the updated part are tainted. -/
  | atfadd (g : BitVec 5) (d : BitVec 6) (a : BitVec 6) (b : BitVec 6)
  /-- R370: Contributes an FP32 value to an ordered-reduction slot under the key (i, p, n). -/
  | aredOrd (g : BitVec 5) (a : BitVec 6) (b : BitVec 6)
  /-- R369: Strong load performed at the point of coherence. -/
  | ldS (g : BitVec 5) (d : BitVec 6) (a : BitVec 6) (z : BitVec 6) (x : BitVec 1)
  /-- R369: Strong store performed at the point of coherence. -/
  | stS (g : BitVec 5) (d : BitVec 6) (a : BitVec 6) (z : BitVec 6)
  /-- R357: Arrives at the group barrier and holds the S stream. -/
  | bar (g : BitVec 5)
  /-- R357: Arrives at the kernel barrier and holds the S stream. -/
  | kbar (g : BitVec 5)
  /-- R311: Reads a launch record and the code object's header and creates a kernel instance, returning its handle. -/
  | launch (g : BitVec 5) (d : BitVec 6) (a : BitVec 6) (b : BitVec 6)
  /-- R315: Holds the queue in Waiting until the instance is Complete or Faulted, then writes its status. -/
  | kwait (g : BitVec 5) (d : BitVec 6) (a : BitVec 6)
  /-- R315: Writes an instance's status word at once. -/
  | kstat (g : BitVec 5) (d : BitVec 6) (a : BitVec 6)
  /-- R308: Reads a queue register, or a register of the trapped job, by index. -/
  | qrd (g : BitVec 5) (d : BitVec 6) (a : BitVec 6)
  /-- R308: Writes a queue register, or a register of the trapped job, by index. -/
  | qwr (g : BitVec 5) (a : BitVec 6) (b : BitVec 6)
  /-- R299: Reads a context register by index. -/
  | cxrd (g : BitVec 5) (d : BitVec 6) (a : BitVec 6)
  /-- R299: Writes a context register by index, field by field. -/
  | cxwr (g : BitVec 5) (a : BitVec 6) (b : BitVec 6)
  /-- R377: Reads a trail register by index. -/
  | trrd (g : BitVec 5) (d : BitVec 6) (a : BitVec 6)
  /-- R377: Writes a trail register by index, with its range checks. -/
  | trwr (g : BitVec 5) (a : BitVec 6) (b : BitVec 6)
  /-- R300: Reads a performance counter when PCAL allows it, and returns the refusal pattern otherwise. -/
  | pcrd (g : BitVec 5) (d : BitVec 6) (a : BitVec 6)
  /-- R301: Zeroes a range of expert counters and clears their taint. -/
  | eclr (g : BitVec 5) (a : BitVec 6) (b : BitVec 6)
  /-- R321: Opens a non-pre-emptible stretch with a declared bound. -/
  | npbeg (g : BitVec 5) (a : BitVec 6)
  /-- R321: Closes the non-pre-emptible stretch. -/
  | npend (g : BitVec 5)
  /-- R316: Signals an MSI-X vector of the virtual function once earlier strong accesses are acknowledged. -/
  | qsig (g : BitVec 5) (a : BitVec 6)
  /-- R180: Element-wise add by SHAPE type. -/
  | vadd (g : BitVec 5) (d : BitVec 6) (a : BitVec 6) (b : BitVec 6) (p : BitVec 1)
  /-- R180: Element-wise subtract. -/
  | vsub (g : BitVec 5) (d : BitVec 6) (a : BitVec 6) (b : BitVec 6) (p : BitVec 1)
  /-- R180: Element-wise multiply. -/
  | vmul (g : BitVec 5) (d : BitVec 6) (a : BitVec 6) (b : BitVec 6) (p : BitVec 1)
  /-- R180: Element-wise fused multiply-add into D. -/
  | vfma (g : BitVec 5) (d : BitVec 6) (a : BitVec 6) (b : BitVec 6) (p : BitVec 1)
  /-- R180: Element-wise fused multiply-subtract, d − a × b. -/
  | vfms (g : BitVec 5) (d : BitVec 6) (a : BitVec 6) (b : BitVec 6) (p : BitVec 1)
  /-- R181: Element-wise minimum. -/
  | vmin (g : BitVec 5) (d : BitVec 6) (a : BitVec 6) (b : BitVec 6) (p : BitVec 1)
  /-- R181: Element-wise maximum. -/
  | vmax (g : BitVec 5) (d : BitVec 6) (a : BitVec 6) (b : BitVec 6) (p : BitVec 1)
  /-- R180: Element-wise absolute value. -/
  | vabs (g : BitVec 5) (d : BitVec 6) (a : BitVec 6) (p : BitVec 1)
  /-- R180: Element-wise negation. -/
  | vneg (g : BitVec 5) (d : BitVec 6) (a : BitVec 6) (p : BitVec 1)
  /-- R180: Element-wise bitwise AND. -/
  | vand (g : BitVec 5) (d : BitVec 6) (a : BitVec 6) (b : BitVec 6) (p : BitVec 1)
  /-- R180: Element-wise bitwise OR. -/
  | vor (g : BitVec 5) (d : BitVec 6) (a : BitVec 6) (b : BitVec 6) (p : BitVec 1)
  /-- R180: Element-wise bitwise XOR. -/
  | vxor (g : BitVec 5) (d : BitVec 6) (a : BitVec 6) (b : BitVec 6) (p : BitVec 1)
  /-- R180: Element-wise shift left. -/
  | vshl (g : BitVec 5) (d : BitVec 6) (a : BitVec 6) (b : BitVec 6) (p : BitVec 1)
  /-- R180: Element-wise logical shift right. -/
  | vshr (g : BitVec 5) (d : BitVec 6) (a : BitVec 6) (b : BitVec 6) (p : BitVec 1)
  /-- R180: Element-wise arithmetic shift right. -/
  | vsra (g : BitVec 5) (d : BitVec 6) (a : BitVec 6) (b : BitVec 6) (p : BitVec 1)
  /-- R180: Element-wise high half of the integer product. -/
  | vmulh (g : BitVec 5) (d : BitVec 6) (a : BitVec 6) (b : BitVec 6) (p : BitVec 1)
  /-- R180: Element-wise saturating integer add. -/
  | vadds (g : BitVec 5) (d : BitVec 6) (a : BitVec 6) (b : BitVec 6) (p : BitVec 1)
  /-- R180: Element-wise saturating integer subtract. -/
  | vsubs (g : BitVec 5) (d : BitVec 6) (a : BitVec 6) (b : BitVec 6) (p : BitVec 1)
  /-- R200: Special-function exp2 of each FP32 element from the coefficient memory. -/
  | vexp2 (g : BitVec 5) (d : BitVec 6) (a : BitVec 6) (p : BitVec 1)
  /-- R200: Special-function log2. -/
  | vlog2 (g : BitVec 5) (d : BitVec 6) (a : BitVec 6) (p : BitVec 1)
  /-- R200: Special-function reciprocal. -/
  | vrcp (g : BitVec 5) (d : BitVec 6) (a : BitVec 6) (p : BitVec 1)
  /-- R200: Special-function reciprocal square root. -/
  | vrsq (g : BitVec 5) (d : BitVec 6) (a : BitVec 6) (p : BitVec 1)
  /-- R200: Special-function sin(πx). -/
  | vsinpi (g : BitVec 5) (d : BitVec 6) (a : BitVec 6) (p : BitVec 1)
  /-- R200: Special-function cos(πx). -/
  | vcospi (g : BitVec 5) (d : BitVec 6) (a : BitVec 6) (p : BitVec 1)
  /-- R200: Special-function tanh. -/
  | vtanh (g : BitVec 5) (d : BitVec 6) (a : BitVec 6) (p : BitVec 1)
  /-- R182: Element-wise compare into a vector predicate. -/
  | vcmp (g : BitVec 5) (c : BitVec 2) (v : BitVec 4) (a : BitVec 6) (b : BitVec 6) (p : BitVec 1) (h : BitVec 1)
  /-- R183: Selects A's elements where the predicate is 1 and keeps D elsewhere. -/
  | vsel (g : BitVec 5) (d : BitVec 6) (a : BitVec 6) (b : BitVec 6) (p : BitVec 1)
  /-- R184: Vector-predicate AND, with an optional complement of B. -/
  | vpand (g : BitVec 5) (d : BitVec 6) (a : BitVec 6) (b : BitVec 6) (n : BitVec 1)
  /-- R184: Vector-predicate OR. -/
  | vpor (g : BitVec 5) (d : BitVec 6) (a : BitVec 6) (b : BitVec 6) (n : BitVec 1)
  /-- R184: Vector-predicate XOR. -/
  | vpxor (g : BitVec 5) (d : BitVec 6) (a : BitVec 6) (b : BitVec 6) (n : BitVec 1)
  /-- R185: ORs the predicate bits into a scalar predicate, or resolves a guard slot with the result. -/
  | vany (g : BitVec 5) (d : BitVec 4) (a : BitVec 6) (m : BitVec 1)
  /-- R185: ANDs the predicate bits into a scalar predicate, or resolves a guard slot with the result. -/
  | vall (g : BitVec 5) (d : BitVec 4) (a : BitVec 6) (m : BitVec 1)
  /-- R186: Converts elements of a source type into SHAPE's type. -/
  | vcvt (g : BitVec 5) (d : BitVec 6) (a : BitVec 6) (t : BitVec 5) (p : BitVec 1)
  /-- R187: Converts FP32 elements by stochastic rounding with VRAND bits. -/
  | vcvts (g : BitVec 5) (d : BitVec 6) (a : BitVec 6) (b : BitVec 6) (p : BitVec 1)
  /-- R189: Quantises elements into a QC4 register record. -/
  | vquant (g : BitVec 5) (d : BitVec 6) (a : BitVec 6) (b : BitVec 6) (p : BitVec 1)
  /-- R190: Row-sum reduction. -/
  | vrsum (g : BitVec 5) (d : BitVec 6) (a : BitVec 6) (p : BitVec 1)
  /-- R190: Column-sum reduction. -/
  | vcsum (g : BitVec 5) (d : BitVec 6) (a : BitVec 6) (p : BitVec 1)
  /-- R190: Row-maximum reduction. -/
  | vrmax (g : BitVec 5) (d : BitVec 6) (a : BitVec 6) (p : BitVec 1)
  /-- R190: Column-maximum reduction. -/
  | vcmax (g : BitVec 5) (d : BitVec 6) (a : BitVec 6) (p : BitVec 1)
  /-- R190: Row-minimum reduction. -/
  | vrmin (g : BitVec 5) (d : BitVec 6) (a : BitVec 6) (p : BitVec 1)
  /-- R190: Column-minimum reduction. -/
  | vcmin (g : BitVec 5) (d : BitVec 6) (a : BitVec 6) (p : BitVec 1)
  /-- R191: Permutes elements by halfword indices. -/
  | vperm (g : BitVec 5) (d : BitVec 6) (a : BitVec 6) (b : BitVec 6) (p : BitVec 1)
  /-- R192: Broadcasts one row into every row. -/
  | vbcr (g : BitVec 5) (d : BitVec 6) (a : BitVec 6) (b : BitVec 6) (p : BitVec 1)
  /-- R192: Broadcasts one column into every column. -/
  | vbcc (g : BitVec 5) (d : BitVec 6) (a : BitVec 6) (b : BitVec 6) (p : BitVec 1)
  /-- R193: Transposes the tile. -/
  | vtrn (g : BitVec 5) (d : BitVec 6) (a : BitVec 6) (p : BitVec 1)
  /-- R194: Copies N elements. -/
  | vmov (g : BitVec 5) (d : BitVec 6) (a : BitVec 6) (p : BitVec 1)
  /-- R194: Broadcasts a scalar to every element. -/
  | vbcs (g : BitVec 5) (d : BitVec 6) (a : BitVec 6)
  /-- R195: Loads a vector from scratchpad. -/
  | vld (g : BitVec 5) (d : BitVec 6) (a : BitVec 6)
  /-- R195: Stores a vector to scratchpad at its due cycle. -/
  | vst (g : BitVec 5) (a : BitVec 6) (b : BitVec 6) (p : BitVec 1)
  /-- R196: Plain vector load from context memory. -/
  | vldm (g : BitVec 5) (d : BitVec 6) (a : BitVec 6)
  /-- R196: Plain vector store to context memory. -/
  | vstm (g : BitVec 5) (a : BitVec 6) (b : BitVec 6) (p : BitVec 1)
  /-- R197: Gathers elements from scratchpad by indices. -/
  | vgath (g : BitVec 5) (d : BitVec 6) (a : BitVec 6) (b : BitVec 6) (p : BitVec 1)
  /-- R197: Scatters elements to scratchpad by indices. -/
  | vscat (g : BitVec 5) (d : BitVec 6) (a : BitVec 6) (b : BitVec 6) (p : BitVec 1)
  /-- R202: Fills a vector with counter-based random draws from a key. -/
  | vrand (g : BitVec 5) (d : BitVec 6) (a : BitVec 6) (b : BitVec 6)
  /-- R203: Buckets token indices by expert id into scratchpad and adds expert counter increments. -/
  | vbucket (g : BitVec 5) (d : BitVec 6) (a : BitVec 6) (b : BitVec 6) (p : BitVec 1)
  /-- R205: Reads 128 expert counters plus the job's uncommitted increments. -/
  | ecnt (g : BitVec 5) (d : BitVec 6) (a : BitVec 6)
  /-- R172: Writes SHAPE after checking it. -/
  | vshape (g : BitVec 5) (a : BitVec 6)
  /-- R213: Converts a vector into directional form by renormalisation. -/
  | dnorm (g : BitVec 5) (d : BitVec 6) (a : BitVec 6) (p : BitVec 1)
  /-- R214: Expands a directional value into FP32 or BF16 elements. -/
  | dexp (g : BitVec 5) (d : BitVec 6) (a : BitVec 6) (m : BitVec 1)
  /-- R215: Cosine of two directional values into a scalar or a vector element. -/
  | ddot (g : BitVec 5) (d : BitVec 6) (a : BitVec 6) (b : BitVec 6) (m : BitVec 1)
  /-- R216: Cosines of dA against dB to d15. -/
  | ddotm (g : BitVec 5) (d : BitVec 6) (a : BitVec 6) (b : BitVec 6)
  /-- R217: Adds a Q9.22 value to the norm after canonicalisation. -/
  | dscale (g : BitVec 5) (d : BitVec 6) (a : BitVec 6) (b : BitVec 6)
  /-- R219: Adds two directional values and renormalises. -/
  | dadd (g : BitVec 5) (d : BitVec 6) (a : BitVec 6) (b : BitVec 6)
  /-- R219: Subtracts two directional values and renormalises. -/
  | dsub (g : BitVec 5) (d : BitVec 6) (a : BitVec 6) (b : BitVec 6)
  /-- R218: Negates a directional value. -/
  | dneg (g : BitVec 5) (d : BitVec 6) (a : BitVec 6)
  /-- R220: Moves a norm register to a scalar. -/
  | dmovn (g : BitVec 5) (d : BitVec 6) (a : BitVec 6)
  /-- R220: Sets a norm register from a scalar, zeroing the direction for the zero code. -/
  | dsetn (g : BitVec 5) (d : BitVec 6) (a : BitVec 6)
  /-- R221: Writes the invariant-test word of a directional register. -/
  | dtest (g : BitVec 5) (d : BitVec 6) (a : BitVec 6)
  /-- R184: Moves between a vector and a vector predicate. -/
  | vpmov (g : BitVec 5) (d : BitVec 6) (a : BitVec 6) (m : BitVec 1)
  /-- R232: Preloads the A operand tag. -/
  | mlda (g : BitVec 5) (a : BitVec 6) (p : BitVec 1)
  /-- R232: Preloads the B operand tag. -/
  | mldb (g : BitVec 5) (a : BitVec 6) (p : BitVec 1)
  /-- R226: Sets the A scale-region address SCA. -/
  | mldas (g : BitVec 5) (a : BitVec 6)
  /-- R226: Sets the B scale-region address SCB. -/
  | mldbs (g : BitVec 5) (a : BitVec 6)
  /-- R227: Long form: checks and accepts a matrix multiply-accumulate on the array. -/
  | mma (g : BitVec 5) (a : BitVec 6) (b : BitVec 6) (p : BitVec 1) (z : BitVec 1) (prof : BitVec 4) (fa : BitVec 5) (fb : BitVec 5) (km1 : BitVec 14)
  /-- R236: Join that zeroes every cell and clears its taint. -/
  | mzero (g : BitVec 5)
  /-- R237: Join that drains n rows into accumulator storage. -/
  | mshift (g : BitVec 5) (d : BitVec 6) (a : BitVec 6)
  /-- R240: Waits for the follow-on queue and executes its oldest command in its own place. -/
  | mwaitf (g : BitVec 5)
  /-- R238: Join that writes the array image or accumulator rows to scratchpad. -/
  | mspill (g : BitVec 5) (d : BitVec 6)
  /-- R244: Join that reloads the array from an image and re-accepts the described MMAs. -/
  | mfill (g : BitVec 5) (a : BitVec 6)
  /-- R223: Writes MCTL. -/
  | mcfg (g : BitVec 5) (a : BitVec 6)
  /-- R239: Join that returns MCNT and the taint summary. -/
  | mstat (g : BitVec 5) (d : BitVec 6)
  /-- R255: Long form: affine copy with a tag and a due cycle. -/
  | xcopy (g : BitVec 5) (d : BitVec 6) (a : BitVec 6) (b : BitVec 6) (tag : BitVec 6) (ndm1 : BitVec 2) (es : BitVec 2) (f : BitVec 1) (due : BitVec 16)
  /-- R258: Long form: fills a channel slot by slot. -/
  | xfill (g : BitVec 5) (d : BitVec 6) (a : BitVec 6) (b : BitVec 6) (tag : BitVec 6) (ndm1 : BitVec 2) (es : BitVec 2) (f : BitVec 1) (due : BitVec 16)
  /-- R259: Long form: drains a channel slot by slot. -/
  | xdrain (g : BitVec 5) (d : BitVec 6) (a : BitVec 6) (b : BitVec 6) (tag : BitVec 6) (ndm1 : BitVec 2) (es : BitVec 2) (f : BitVec 1) (due : BitVec 16)
  /-- R262: Gathers rows by an index list on the GA path. -/
  | xgath (g : BitVec 5) (d : BitVec 6) (a : BitVec 6) (b : BitVec 6)
  /-- R262: Scatters rows by an index list. -/
  | xscat (g : BitVec 5) (d : BitVec 6) (a : BitVec 6) (b : BitVec 6)
  /-- R264: Long-form collective: all-reduce over the ranks. -/
  | xallred (g : BitVec 5) (d : BitVec 6) (a : BitVec 6) (b : BitVec 6) (tag : BitVec 6) (ty : BitVec 5) (rop : BitVec 3) (duex : BitVec 12)
  /-- R264: Long-form collective: all-gather. -/
  | xallgath (g : BitVec 5) (d : BitVec 6) (a : BitVec 6) (b : BitVec 6) (tag : BitVec 6) (ty : BitVec 5) (rop : BitVec 3) (duex : BitVec 12)
  /-- R264: Long-form collective: reduce-scatter. -/
  | xredscat (g : BitVec 5) (d : BitVec 6) (a : BitVec 6) (b : BitVec 6) (tag : BitVec 6) (ty : BitVec 5) (rop : BitVec 3) (duex : BitVec 12)
  /-- R264: Long-form collective: all-to-all. -/
  | xall2all (g : BitVec 5) (d : BitVec 6) (a : BitVec 6) (b : BitVec 6) (tag : BitVec 6) (ty : BitVec 5) (rop : BitVec 3) (duex : BitVec 12)
  /-- R266: Long form: fetch from a local, peer, host or absent-fetchable source. -/
  | xfetch (g : BitVec 5) (d : BitVec 6) (a : BitVec 6) (b : BitVec 6) (tag : BitVec 6) (due : BitVec 20)
  /-- R267: Long form: fetch that falls back instead of pausing the group. -/
  | xfetchTry (g : BitVec 5) (d : BitVec 6) (a : BitVec 6) (b : BitVec 6) (tag : BitVec 6) (due : BitVec 20)
  /-- R269: Starts tier fetches of a range and hints caching. -/
  | xpref (g : BitVec 5) (a : BitVec 6) (b : BitVec 6)
  /-- R271: Clears FB and ABS of ready masked tags. -/
  | xtclr (g : BitVec 5) (a : BitVec 6)
  /-- R270: Reads the status of a tag. -/
  | xtst (g : BitVec 5) (d : BitVec 6) (a : BitVec 6)
  /-- R344: A group's virtual cycle proceeds: streams issue and the array advances once everything needed has arrived. -/
  | virtualCycle (cxn h g : Nat)
  /-- R129: A register or scratchpad write lands at its due cycle, taking its taint; a channel slot may become filled. -/
  | pendingWriteLand (core seq : Nat)
  /-- R353: The last pause reason ends and the standing cycle proceeds. -/
  | groupUnpause (cxn h g : Nat)
  /-- R150: A guard resolution or clear takes effect at every head on the next cycle. -/
  | guardResolutionEffect (core : Nat)
  /-- R64: When every member has arrived, the boundary releases: buffers commit, snapshots are discarded and PCNT increments. -/
  | phaseRelease (cxn h g : Nat)
  /-- R166: When all four streams have issued RDV and everything has drained, the job ends and its state is reset. -/
  | rendezvous (core : Nat)
  /-- R358: A BAR or KBAR generation releases when every participant has arrived. -/
  | barrierRelease (cxn h g : Nat)
  /-- R252: A copy completes at its due cycle and its tag becomes ready. -/
  | copyComplete (core tag : Nat)
  /-- R254: A copy write is performed at its point of coherence. -/
  | copyWritePerformed (core tag n : Nat)
  /-- R258: An XFILL reserves its next slot once one is free. -/
  | xfillSlotReserve (core tag : Nat)
  /-- R258: An XFILL slot lands and becomes filled in reservation order. -/
  | xfillSlotFilled (core tag : Nat)
  /-- R259: An XDRAIN takes its next available slot. -/
  | xdrainSlotTake (core tag : Nat)
  /-- R259: An XDRAIN slot is released once read, decrementing filled and taken. -/
  | xdrainSlotRelease (core tag : Nat)
  /-- R267: An XFETCH.TRY not landed by its due cycle ends in fallback and taints its destination. -/
  | xfetchTryFallback (core tag : Nat)
  /-- R480: A cause met by a copy after issue is delivered as a trap from the X stream when its tag stops being in flight. -/
  | copyLateCause (core tag : Nat)
  /-- R367: An atomic or strong access is performed at its home slice, with a trail record when recording. -/
  | atomicPerformed (ag : Agent)
  /-- R370: A contribution is held in its reduction slot and acknowledged. -/
  | aredContributionAck (ag : Agent)
  /-- R231: An accepted MMA reaches its step 0. -/
  | mmaStart (core : Nat)
  /-- R230: The array advances one step, and each active cell folds its unit. -/
  | arrayStep (core : Nat)
  /-- R231: An MMA finishes, MCNT increments and any held channel slot is released. -/
  | mmaFin (core : Nat)
  /-- R235: A held matrix join begins its work after the last fin. -/
  | joinStart (core : Nat)
  /-- R397: A two-stage walk completes or faults for a waiting access. -/
  | translationComplete (cxn : Nat)
  /-- R410: A tier fetch lands and the leaf's TGT is conditionally rewritten to local. -/
  | tierFetchComplete (cxn ipa : Nat)
  /-- R410: A tier fetch is refused and a waiting XFETCH raises cause 17 reason 5. -/
  | tierFetchFailed (cxn ipa : Nat)
  /-- R402: An invalidation completes once cached copies are dropped and dependent accesses are done. -/
  | invalidationComplete (cxn : Nat)
  /-- R400: A stage-1 invalidation completes and S1INVS.BUSY clears. -/
  | s1invComplete (cxn : Nat)
  /-- R314: The admission unit admits the highest-priority ready instance, reads its object and checks it. -/
  | admission (cxn : Nat)
  /-- R328: The per-core loads complete; the instance starts Walking and its groups enter Lockstep. -/
  | admissionLoadsDone (cxn h : Nat)
  /-- R332: A walker hands an iteration to a core that asks. -/
  | iterationPlaced (cxn h g ord : Nat)
  /-- R334: A job starts with its preloaded registers. -/
  | jobStart (core : Nat)
  /-- R339: A draining instance completes, publishes at context scope and satisfies its dependents. -/
  | instanceComplete (cxn h : Nat)
  /-- R317: The queue thread enters its handler for a pending trapped job. -/
  | handlerEntry (cxn q : Nat)
  /-- R318: Writing QCTL.HALT halts the queue, faulting the held instance. -/
  | qctlHalt (cxn q : Nat)
  /-- R307: A read of QRSM returns RCAUSE and clears it. -/
  | qrsmRead (cxn q : Nat)
  /-- R322: A stretch outlasts its declared bound and QSTS.NPOVR is set. -/
  | npBoundExpired (cxn q : Nat)
  /-- R322: A stretch reaches eight quanta, and cause 48 goes to the Guide and the host. -/
  | watchdog (cxn q : Nat)
  /-- R321: A deferred PREEMPT or STOP starts when no stretch is open, and debt is added. -/
  | deferredPreemptStart (cxn : Nat)
  /-- R431: Every 1,024 cycles, the HBM token buckets refill with idle tenants' budgets lent out. -/
  | tokenRefill
  /-- R429: A new timetable takes effect at the second slot-0 cycle after SHARES. -/
  | timetableChange
  /-- R433: An acknowledgment echoing a congestion mark reaches the rate controller. -/
  | congestionMark (cxn : Nat) (fabric : Bool)
  /-- R405: A fabric access from a peer device is performed inside an opened window or refused. -/
  | peerRequest (dcn off : Nat) (write : Bool) (bytes : List Byte)
  /-- R420: Link training completes into Up, or into Degraded at a narrower width or lower rate. -/
  | trainingComplete (port width : Nat) (full : Bool)
  /-- R420: Eight training attempts fail and the port goes to Failed. -/
  | trainingFailed (port : Nat)
  /-- R420: An Up port retrains narrower and goes to Degraded. -/
  | lanesLost (port width : Nat)
  /-- R420: Link replay or retraining fails, the port goes to Failed and transactions are rerouted. -/
  | linkReplayExhausted (port : Nat)
  /-- R435: A corrupted flit is replayed invisibly. -/
  | linkLevelReplay (port : Nat)
  /-- R420: A draining port's last transaction completes and the port goes Down. -/
  | drainComplete (port : Nat)
  /-- R378: A TRWR of MODE turns record or replay on or off and translates the ring. -/
  | trailModeChange (cxn q mode : Nat)
  /-- R384: An operation waiting for ring space or contents proceeds once they become available. -/
  | trailWaitRelease (cxn : Nat)
  /-- R386: An issuer's clock passes its next record's CLK and cause 36 is raised. -/
  | replayClockPassed (cxn : Nat)
  /-- R390: No progress for 2^24 cycles while operations are held for their turn raises cause 36. -/
  | replayStallTimeout (cxn : Nat)
  /-- R387: At the recorded VCYC, the job's phase is cancelled with the recorded cause. -/
  | replayPhaseRestart (core : Nat)
  /-- R387: At a recorded class A point, the group's jobs are halted and re-executed. -/
  | replayClassAPoint (cxn h g : Nat)
  /-- R439: A checker mismatch cancels the phase, restores the restart point and raises cause 28. -/
  | pipelineError (site : ErrSite)
  /-- R445: A core SRAM error is corrected, or raises cause 34 when double-bit. -/
  | sramEccError (core : Nat) (e : Engine) (double : Bool)
  /-- R446: A last-level cache error is corrected, refilled or poisoned. -/
  | llcEccError (part : Nat) (double dirty : Bool)
  /-- R448: The periodic HBM patrol scrub corrects parts or poisons them. -/
  | patrolScrub (part : Nat) (uncorrectable : Bool)
  /-- R447: The SRAM rail falls below threshold and the base die begins converting to DEC-TED. -/
  | railBelowThreshold (die : Nat)
  /-- R447: Every set has switched and EBSTS.DECTED becomes 1. -/
  | dectedSwitchComplete (die : Nat)
  /-- R463: A junction reaches 105 °C and an event goes to the Guide. -/
  | thermalWarning (die : Nat)
  /-- R463: A junction reaches 115 °C and the module removes power. -/
  | thermalShutdown (die : Nat)
  /-- R288: The save finishes, byte 6 is written valid and the context enters Saved. -/
  | hamperValid (cxn : Nat)
  /-- R280: The scrub completes: Resetting goes to Bound, Torn-down goes to Free. -/
  | scrubComplete (cxn : Nat)
  /-- R436: A pre-copy round sends dirty pages after clearing D and invalidating. -/
  | migrationPrecopyRound (cxn : Nat)
  /-- R436: The next migration step begins after the target acknowledges the previous one. -/
  | migrationStep (cxn : Nat)
  /-- R279: The target acknowledges resumption and the source goes to Torn-down. -/
  | migrationResumeAck (cxn : Nat)
  /-- R279: Mailbox command that binds a Free context to resources and a virtual function. -/
  | bind (op : BitVec 496)
  /-- R279: Mailbox command that unbinds and tears down a context. -/
  | unbind (op : BitVec 496)
  /-- R432: Mailbox command that sets or stages TOK, the slot mask and FRW. -/
  | shares (op : BitVec 496)
  /-- R458: Mailbox command that sets the context's quantum. -/
  | setquant (op : BitVec 496)
  /-- R458: Mailbox command that sets the performance-counter allow-list. -/
  | setpcal (op : BitVec 496)
  /-- R282: Mailbox command that pre-empts a context by class B, F or A and writes the hamper. -/
  | preempt (op : BitVec 496)
  /-- R293: Mailbox command that restores a context from a valid hamper. -/
  | resume (op : BitVec 496)
  /-- R436: Mailbox command that starts migration of a context to a target. -/
  | migout (op : BitVec 496)
  /-- R279: Mailbox command that prepares a context in Migrating-in on the target. -/
  | migin (op : BitVec 496)
  /-- R279: Mailbox command that makes the migration's class F stop. -/
  | stop (op : BitVec 496)
  /-- R279: Mailbox command that binds the target VF and restores the migrated context. -/
  | rebind (op : BitVec 496)
  /-- R437: Mailbox command that aborts a migration. -/
  | abort (op : BitVec 496)
  /-- R403: Mailbox command that sets the stage-2 root and invalidates. -/
  | s2root (op : BitVec 496)
  /-- R402: Mailbox command that invalidates stage-2 translations. -/
  | s2inv (op : BitVec 496)
  /-- R404: Mailbox command that writes a remote window and invalidates through it. -/
  | winset (op : BitVec 496)
  /-- R415: Mailbox command that turns dirty tracking on or off. -/
  | track (op : BitVec 496)
  /-- R413: Mailbox command that sets the current weight generation. -/
  | setgen (op : BitVec 496)
  /-- R416: Mailbox command that sets a format range. -/
  | frset (op : BitVec 496)
  /-- R416: Mailbox command that disables a format range. -/
  | frclr (op : BitVec 496)
  /-- R412: Mailbox command that re-issues a faulting access, or resolves a divergence. -/
  | resolve (op : BitVec 496)
  /-- R320: Mailbox command that denies a stage-2 fault or a divergence. -/
  | deny (op : BitVec 496)
  /-- R459: Mailbox command that removes the oldest event into MBRES. -/
  | evread (op : BitVec 496)
  /-- R450: Mailbox command that removes the oldest error record and reads EBSTS. -/
  | ebread (op : BitVec 496)
  /-- R458: Mailbox command that reads a performance counter whatever PCAL holds. -/
  | pcread (op : BitVec 496)
  /-- R421: Mailbox command that returns a port's status register. -/
  | portsts (op : BitVec 496)
  /-- R424: Mailbox command that extends a measurement register 8–15. -/
  | mext (op : BitVec 496)
  /-- R447: Mailbox command that returns a base die to SEC-DED. -/
  | eccnorm (op : BitVec 496)
  /-- R448: Mailbox command that sets the patrol scrub period. -/
  | scrubper (op : BitVec 496)
  /-- R458: Mailbox command that sets the device number in the domain. -/
  | devnum (op : BitVec 496)
  /-- R435: Mailbox command that sets the fabric route to a destination. -/
  | routeset (op : BitVec 496)
  /-- R420: Mailbox command that starts link training. -/
  | portup (op : BitVec 496)
  /-- R420: Mailbox command that drains a port. -/
  | portdrain (op : BitVec 496)
  /-- R420: Mailbox command that takes a Failed or Down port Down. -/
  | portdown (op : BitVec 496)
  /-- R453: Mailbox command that performs a warm reset. -/
  | reset (op : BitVec 496)
  /-- R457: A mailbox command code not in the table completes with RESULT 2. -/
  | unknownCommand (code : BitVec 16)
  /-- R305: A host write of QSTARTq ends the queue's instances, resets it and starts it. -/
  | qstartWrite (vf q : Nat) (val : W64)
  /-- R400: A write of S1ROOT sets stage 1 and invalidates all stage-1 translations. -/
  | s1rootWrite (vf : Nat) (val : W64)
  /-- R400: A write of S1INV starts a stage-1 invalidation. -/
  | s1invWrite (vf : Nat) (val : W64)
  /-- R5: A write to a register with no row of its own, following each field's Access. -/
  | registerWrite (fn off : Nat) (bytes : List Byte)
  /-- R89: A host write through VF BAR2 is translated and performed at its home slice. -/
  | hostWrite (vf off : Nat) (bytes : List Byte)
  /-- R407: A host read through VF BAR2 is translated by stage 2 and completed, or completed in error. -/
  | hostRead (vf off len : Nat)
  /-- R423: A host AtomicOp to VF BAR2 is performed at the home slice. -/
  | hostAtomicop (vf off : Nat) (op : HostAtomic) (size : Nat) (x y : BitVec 128)
  /-- R408: A host access through the PF device physical aperture. -/
  | pfBar2Access (off : Nat) (acc : ApertureAccess)
  /-- R296: A function-level reset of a VF takes its context to Resetting. -/
  | vfFlr (vf : Nat)
  /-- R454: A physical function FLR performs a warm reset. -/
  | pfFlr
  /-- R454: Power-on or PERST# runs the boot steps and zeroes everything. -/
  | coldReset
  /-- R425: SPDM GET_VERSION request over DOE. -/
  | getVersion (fn : Nat)
  /-- R425: SPDM GET_CAPABILITIES request. -/
  | getCapabilities (fn : Nat)
  /-- R425: SPDM NEGOTIATE_ALGORITHMS, which succeeds only with RSASSA-4096 and SHA-512. -/
  | negotiateAlgorithms (fn : Nat) (asym hash : BitVec 32)
  /-- R425: SPDM GET_DIGESTS request. -/
  | getDigests (fn : Nat)
  /-- R425: SPDM GET_CERTIFICATE request. -/
  | getCertificate (fn slot off len : Nat)
  /-- R425: SPDM CHALLENGE request. -/
  | challenge (fn slot : Nat) (nonce : BitVec 256)
  /-- R426: SPDM GET_MEASUREMENTS returning the measurement blocks. -/
  | getMeasurements (fn index : Nat) (sign : Bool) (nonce : BitVec 256)
  /-- R425: Any other SPDM request code is answered with ERROR UnsupportedRequest. -/
  | spdmUnsupportedRequest (fn : Nat) (code : Byte)
  /-- R98: A word with an unassigned shared major outside the hint region raises cause 1, and an unassigned private opcode raises cause 2 in its stream. -/
  | illegalInstruction (g : Guard) (cause : Nat)
  /-- R428: On each 940 MHz PCYC cycle, each network port injects at most one 64-byte flit in a slot its context owns, consuming a token, and flits advance one hop. -/
  | timetableSlot
  /-- R448: A demand read of an HBM part finds an error: the controller corrects it within one symbol, or it poisons and records the part. -/
  | hbmEccError (part : Nat) (uncorrectable : Bool)
  /-- R279: The target Guide receives ABORT from the source Guide, which was sent on an FLR or a failed relocation, and the Migrating-in context goes to Torn-down. -/
  | migrationAbortReceived (cxn : Nat)
  /-- R321: A context's quantum runs out and the Guide, by its own firmware policy, may pre-empt the slice, with the quantum shortened by any debt. -/
  | quantumExpiry (cxn : Nat)
  /-- R422: A DOE Discovery request arrives on the DOE mailbox of the PF or of a VF and is answered with the protocols supported. -/
  | doeDiscovery (fn index : Nat)
deriving DecidableEq, Repr

end Sys2Proof
end

