-- ==== Sys2Proof/Config.lean ====
section
/-! DEFINITION. What an implementation fixes and the values the spec leaves open. Every one is an opaque constant:
nothing in Lean can evaluate it, so a proof holds for every value of it. -/
namespace Sys2Proof.Config

/-- Free value (log 3): an undefined byte (R8), fresh for each count. -/
opaque freeByte : Nat → BitVec 8
/-- Free value (log 3): an undefined 32-bit word (R247, R372), fresh for each count. -/
opaque freeWord : Nat → BitVec 32
/-- Free value (log 4): a choice the wall clock settles (arrival, landing, hit or miss), fresh for each count. -/
opaque freeBit : Nat → Bool
/-- Free value (log 4): how many elements of a copy the wall clock has moved, fresh for each count. -/
opaque freeCount : Nat → Nat
/-- Log 31: the set of a line in its home slice (R22), and the line that makes room, by the line that comes and the cycle. -/
opaque llcIndex : Nat → Nat
opaque llcChoice : Nat → Nat → Nat
/-- Log 5: what an unwritten byte of a peer device or of host memory reads as. The key is the remote address with its owner. -/
opaque remoteByte : Nat → BitVec 8
/-- Log 5: the taint of a part of a peer's memory before this device writes it (R56), by its key. -/
opaque remoteTaint : Nat → Bool
/-- Log 5: whether a peer device lets a context in at an address (R405): device number, domain context number, address, write. -/
opaque peerGrants : Nat → Nat → Nat → Bool → Bool
/-- Log 5: whether an access overlaps one of another size or address that a peer's home slice has tagged (R80): device, address, bytes, and a
fresh count. -/
opaque peerMixed : Nat → Nat → Nat → Nat → Bool
/-- Log 5: where in local HBM a window that the Guide has opened to a domain context number puts an offset, for a read or a write (R405). -/
opaque openWindow : Nat → Nat → Bool → Option Nat
/-- Log 5: whether a host read completes successfully (R405): virtual function and address. -/
opaque hostReadOk : Nat → Nat → Bool
/-- Log 5: whether AtomicOp Requester Enable is set in a function's Device Control 2 (R88). -/
opaque atomicOpEnable : Nat → Bool
/-- Log 5: whether a target device's context stands in Migrating-in (R279): device number, context number, and a fresh count. -/
opaque targetReady : Nat → Nat → Nat → Bool
/-- Log 5: the clusters of that target context (R278). -/
opaque targetClusters : Nat → Nat → Nat → BitVec 64
/-- Log 5: what the source Guide has sent of a context that migrates in (R436), by context number, item and a fresh count: 0 the
address of the received hamper, 1 S1ROOT, 2 CG, 3 the pre-copy and the transfer complete (bit 0), 4 the stage-2 state
received whole (bit 0), 5 the blocks of the source's region, 6 its leaves and directory entries, 7 the records of the trail's tail, 16 + 2 k and
17 + 2 k the entry of window k, 2^16 + m block m of the source's region, 2^32 + 3 k the IPA of entry k, its descriptor, and its level (bits 7:0) with
leaf (bit 8), below or of a directory (bit 9) and generation (bits 23:16); 2^48 + 3 k the index of record k of the tail and its two words. -/
opaque migrationWord : Nat → Nat → Nat → BitVec 64
/-- Log 5: a byte that a rank on another device contributes to a collective (R264): identifier, occurrence, rank, offset. -/
opaque rankByte : Nat → Nat → Nat → Nat → BitVec 8
/-- Log 5: its taint (R56). -/
opaque rankTaint : Nat → Nat → Nat → Nat → Bool
/-- Log 6: an image that a boot step verifies (R454), by image and attempt: its length and its bytes. -/
opaque imageLength : Nat → Nat → Nat
opaque imageByte : Nat → Nat → Nat → BitVec 8
/-- Log 6: the signature that comes with it and the modulus of the key that signed it, by image and attempt. -/
opaque imageSignature : Nat → Nat → BitVec 4096
opaque imageKey : Nat → Nat → BitVec 4096
/-- Log 6: the hash of the signing key, fused at manufacture (R454). -/
opaque fusedKeyHash : BitVec 512
/-- Log 6: what else is fused (R424): its length and its bytes. -/
opaque fuseLength : Nat
opaque fuseByte : Nat → BitVec 8
/-- Log 6: the digest of the trained parameters of step 5, and of the host port's configuration of step 6 (R454). -/
opaque bootDigest : Nat → BitVec 512
/-- Log 6: the failed-core map the self-test forms (R454): core numbers 0 to 1,023, control cores 1,024 + cluster. -/
opaque coreFailed : Nat → Bool
/-- Log 7: bytes of the SPDM certificate chain in slot 0 (R425). -/
opaque certByte : Nat → BitVec 8
/-- Log 7: length of that chain. -/
opaque certLength : Nat
/-- Log 7: the device identity key's signature over a digest, a byte of it (R425, R426). -/
opaque signByte : BitVec 512 → Nat → BitVec 8
/-- Log 7: fresh random bytes the responder puts in a response. -/
opaque nonceByte : Nat → BitVec 8

end Sys2Proof.Config
end

