-- ==== Sys2Proof/Machine/State.lean ====
section
/-! DEFINITION. Everything the spec gives the machine, as plain data: cores, contexts, queues, instances, groups, memories,
links, the Guide's mailbox and the error banks. Each field names the rule that gives it. -/
namespace Sys2Proof.Machine

/-- Bytes by address, in rising order, no byte equal to the zero an unlisted address reads as (R454: boot zeroes HBM). -/
abbrev Mem := List Host.Cell
/-- A set of numbers (parts, words, cells) in rising order. -/
abbrev NSet := List Nat

/-- Why a machine stops for good. -/
inductive Fault where
  /-- Raised by `step` when the module has removed power (R463): only a cold reset restarts it. Safe: the spec gives the stop. -/
  | powerRemoved
deriving DecidableEq, Repr

/-- Why a step has no meaning. -/
inductive Refusal where
  /-- An instruction without a meaning in this model. Safe: nothing is claimed of it. -/
  | notModelled (mnemonic : String)
deriving DecidableEq, Repr

/-- One active hardware loop (R142): first word, ENDL, remaining iterations. -/
structure Loop where
  start : W64
  stop : W64
  remaining : BitVec 32
deriving DecidableEq, Repr

/-- What a stream is held on besides an unsatisfied condition at its head. -/
inductive Hold where
  | none
  /-- SEMWAIT of semaphore k for n (Table 14-2, Waiting). -/
  | sem (k n : Nat)
  /-- Such a wait that is served, and whose record the trail makes wait (R158, R384). -/
  | semDue (k n : Nat)
  /-- PHASE at scope 1 group, 2 kernel, 3 context (R163), arrived at a cycle. -/
  | phase (scope : Nat) (cycle : Nat)
  /-- RDV (R166). -/
  | rdv
  /-- BAR or KBAR (R358), arrived at a cycle. -/
  | bar (kernel : Bool) (cycle : Nat)
  /-- BAR or KBAR that has issued and waits for the strong accesses issued before this sequence number (R358). -/
  | barDue (seq : Nat)
  /-- VCWAIT (R162). -/
  | clock
  /-- FENCE (R83): its stream's accesses issued before this sequence number, its copies before this cycle. -/
  | fence (seq : Nat) (cycle : Nat)
  /-- A spill of CALL or a fill of RET until a cycle (R140, R141). -/
  | spill (until_ : Nat)
  /-- A matrix join that waits for the array (R235), with the scalars it read as it issued. -/
  | join (x y : W64)
deriving DecidableEq, Repr, Inhabited

/-- A stream of a job, or the register classes of a queue thread (R110, R304). -/
structure Stream where
  /-- s0 to s63 (Table 4-5) with taint (R56). -/
  s : Vector W64 64
  sT : BitVec 64
  /-- a0 to a15. -/
  a : Vector W64 16
  aT : BitVec 16
  /-- t0 to t7. -/
  t : Vector W64 8
  /-- p0 to p15. -/
  p : BitVec 16
  pT : BitVec 16
  /-- Program counter (R94). -/
  pc : W64
  /-- Pending redirect with the delay slots left (R138). -/
  redirect : Option (W64 × Nat)
  /-- Delay slots of an untaken transfer still to run (R138). -/
  slots : Nat
  /-- Hardware return stack, newest first (R140). -/
  rs : List W64
  /-- RSST.SPILLED (Table 5-3). -/
  spilled : Nat
  /-- RSSP (Table 5-4). -/
  rssp : W64
  /-- Loop stack, innermost first (R142). -/
  loops : List Loop
  /-- The loop buffer: words captured in the bodies of the active loops (R145). -/
  lbuf : List (Nat × W32)
  hold : Hold
  /-- Earliest virtual cycle of the next issue (R179, R235, R251). -/
  nextIssue : Nat
deriving DecidableEq, Repr

/-- Channel state (R153, R154). A reserved slot knows whether its data has landed. -/
structure Chan where
  cfg : Bool
  base : Nat
  size : Nat
  count : Nat
  pidx : Nat
  cidx : Nat
  filled : Nat
  taken : Nat
  /-- Reserved slots in reservation order: sequence number and landed. -/
  rsv : List (Nat × Bool)
  /-- Counts CHCFG and CHRST, so that a later landing knows its slot is gone (R156). -/
  epoch : Nat
deriving DecidableEq, Repr, Inhabited

/-- A copy tag (R159, R270). -/
structure Tag where
  /-- In flight (R253). -/
  infl : Bool
  fb : Bool
  abs : Bool
  /-- The virtual cycle at which the tag last stopped being in flight. -/
  readyAt : Nat
deriving DecidableEq, Repr

/-- What a pending write writes (R129, Table 10-7). -/
inductive PendTarget where
  | s (e : Engine) (r : Nat) (v : W64) (t : Bool)
  | a (e : Engine) (r : Nat) (v : W64) (t : Bool)
  | t (e : Engine) (r : Nat) (v : W64)
  | p (e : Engine) (r : Nat) (v : Bool) (t : Bool)
  /-- Physical vector register: bytes kept beyond `len` when `keep`. -/
  | v (phys : Nat) (data : VWord) (taint : BitVec 256) (lo len : Nat)
  | vp (phys : Nat) (data : BitVec 1024) (taint : BitVec 1024)
  | d (r : Nat) (data : DWord) (taint : BitVec 256)
  | n (r : Nat) (data : BitVec 32) (taint : Bool)
  /-- Scratchpad write of a stream at a mapped address: bytes with the taint of each. -/
  | sp (e : Engine) (addr : Nat) (bytes : List (Byte × Bool))
  | flags (bits : Nat)
  /-- A destination slot's write: channel, slot sequence, epoch, address, bytes with taint. -/
  | chan (c seq epoch addr : Nat) (bytes : List (Byte × Bool))
  /-- Expert-counter increments (kind 10 of Table 10-7). -/
  | expert (incs : List (Nat × Bool × Nat))
  /-- A scratchpad load into a scalar, whose bytes are read when it lands (R84): signed. -/
  | ldsp (e : Engine) (r addr n : Nat) (sgn : Bool)
  /-- A scratchpad load into a vector register (R195): mapped address of each 16-byte part in order, bytes. -/
  | vld (phys : Nat) (addr n : Nat)
  /-- A gather (R197): element width in bytes, mapped address and index taint of each element. -/
  | vgath (phys : Nat) (w : Nat) (elems : List (Nat × Bool))
  /-- A scratchpad load into a channel slot. -/
  | vldChan (c seq epoch dst addr n : Nat)
  /-- A strong access's result register still on its way (R367): nothing lands before it is performed. -/
  | await (id : Nat)
  /-- A poisoned value: its consumer meets a cause when it is due (R449). -/
  | poison (e : Engine) (cause : Nat) (addr : Nat)
  /-- An LS access without a register, which counts as performed when due (R479). -/
  | done (e : Engine)
  /-- A WRST, whose value every stream of the job sees from the next cycle (R170): selector, value. -/
  | status (sel : Nat) (val : W64)
deriving DecidableEq, Repr

/-- A pending write with its due cycle and order (R129). -/
structure Pend where
  seq : Nat
  due : Nat
  /-- Counts as a load, strong access or atomic for R479. -/
  ls : Bool
  target : PendTarget
deriving DecidableEq, Repr

/-- Where a translated byte of context memory lives (R397, R404). -/
inductive Phys where
  /-- Local HBM, with the DPA of the leaf it was translated through, 0 for none (R415). -/
  | hbm (dpa leaf : Nat)
  /-- Decoded window (R24). -/
  | view (dpa : Nat)
  /-- A peer device's address. -/
  | peer (dev addr : Nat)
  /-- Host memory behind a virtual function. -/
  | host (addr : Nat)
deriving DecidableEq, Repr

/-- The kinds of strong access (R364 to R369). -/
inductive StrongOp where
  | rmw (opc : Nat)
  | cas | cas16 | fadd
  | load (sgn : Bool)
  | store
  | ared (i p n : Nat)
  /-- A return-stack spill and fill (R140, R141). -/
  | spill | fill
deriving DecidableEq, Repr

/-- Where a stream stood at an instruction: its program counter, redirect, slots and loops (R168). -/
structure Seat where
  pc : W64
  redirect : Option (W64 × Nat)
  slots : Nat
  loops : List Loop
deriving DecidableEq, Repr

/-- Accesses of a job that an instruction is ordered after (R71): of each stream S, V, M, X the LS accesses whose sequence numbers are
below a bound, and the copies that issued before a cycle. -/
structure Past where
  ls : Vector Nat 4
  cp : Nat
deriving DecidableEq, Repr, Inhabited
def Past.reset : Past := { ls := Vector.replicate 4 0, cp := 0 }

/-- A strong access, atomic or contribution that has issued and is not yet performed (R76, R367). -/
structure Strong where
  id : Nat
  /-- The stream that issued it; S on a queue thread. -/
  e : Engine
  op : StrongOp
  /-- Bytes accessed. -/
  size : Nat
  va : Nat
  loc : Phys
  /-- Register the old value goes to, when there is one; a pair for 16 bytes. -/
  dst : Option Nat
  x : BitVec 128
  xT : Bool
  cmp : BitVec 128
  /-- Issuer clock (R380). -/
  clk : Nat
  due : Nat
  /-- The page is marked deterministic (R337). -/
  det : Bool
  /-- OPC of its trail record (Table 15-4). -/
  opc : Nat
  /-- It has been performed; it counts as acknowledged at its due cycle (R479). -/
  done : Bool
  /-- Where a job's stream stood at it, for a trap of the access itself (R168, R391). -/
  seat : Option Seat
  /-- What its stream came after as it issued (R71). -/
  past : Past
deriving DecidableEq, Repr

/-- Whose accesses come after another's (R71): a stream of a core, by its instance, group, ordinal and engine; a queue thread; every access of
an instance that depends on one; a copy of a core; one access of the host or of another device. -/
inductive Who where
  | stream (h g o : Nat) (e : Engine) | thread (q : Nat) | inst (h : Nat) | copy (h g o : Nat) | outside (n : Nat)
deriving DecidableEq, Repr
/-- A performed access as R71 orders it: its sequence number, its place among those performed, what its stream came after, and the instances
that its own depends on. -/
structure Doer where
  who : Who
  id : Nat
  stamp : Nat
  past : Past
  deps : List Nat
deriving DecidableEq, Repr
/-- A performed strong access or atomic (R80): the bytes, the value written, and who comes after it, each from a sequence number and a
stamp on. One that is plain is a copy's write, which may be read (R71, edge 5) and has no overlap of its own. -/
structure Mark where
  doer : Doer
  plain : Bool
  low : Nat
  size : Nat
  wrote : Option Nat
  known : List (Who × Nat × Nat)
deriving DecidableEq, Repr
/-- The strong accesses performed, oldest first, and how many there were. -/
structure Marks where
  n : Nat
  l : List Mark
deriving DecidableEq, Repr
def Marks.reset : Marks := { n := 0, l := [] }

/-- A line of the phase store buffer (R65): virtual line address, where it commits, mask, taint, data, ranked writers. -/
structure PsbLine where
  va : Nat
  loc : Phys
  mask : BitVec 64
  /-- One bit for each part (Table 10-7). -/
  taint : BitVec 4
  data : BitVec 512
  /-- The engine that stored each byte last, for R406, and when, for R74. -/
  writer : List (Nat × Engine × Nat)
  det : Bool
  /-- The bytes stored before a FENCE from LS to a copy path: 64 bits for each of CP, GA and CO (R83). -/
  fenced : BitVec 192
  /-- Which of the lines that the core has allocated it is (R402). -/
  born : Nat
deriving DecidableEq, Repr

/-- A part of the read snapshot (R67): address, value, taint, poison cause. -/
structure SnapPart where
  va : Nat
  data : BitVec 128
  taint : Bool
  poison : Nat
deriving DecidableEq, Repr

/-- Where a copy's bytes come from or go to. -/
inductive Loc where
  | sp (addr : Nat)
  | cm (va : Nat) (loc : Phys) (det : Bool)
  /-- Bytes a collective has gathered (R264), and the cause that their poison raises in scratchpad, 0 for none. -/
  | data (bytes : List (Byte × Bool)) (poison : Nat)
deriving DecidableEq, Repr

/-- One element of a copy: destination, sources reduced in order, bytes, index taint (R257, R262, R264). -/
structure Move where
  dst : Loc
  src : Loc
  n : Nat
  idxT : Bool
deriving DecidableEq, Repr

/-- The copy forms. -/
inductive CopyForm where
  | xcopy | xfill | xdrain | xgath | xscat | xcoll (cop : Nat) | xfetch | xfetchTry
deriving DecidableEq, Repr

/-- A slot that an XFILL or XDRAIN has claimed and not yet finished (R258, R259). -/
structure CopySlot where
  seq : Nat
  epoch : Nat
  addr : Nat
  claimed : Nat
  /-- XDRAIN: the slot has been read and released. -/
  released : Bool
  moves : List Move
deriving DecidableEq, Repr

/-- What a copy has written of one 16-byte part: the bytes, and whether data of them was tainted or poisoned. -/
structure Cover where
  mask : BitVec 16
  taint : Bool
  poison : Bool
deriving DecidableEq, Repr

/-- A copy in flight (R251 to R254, Table 10-7). -/
structure Copy where
  tag : Nat
  form : CopyForm
  /-- The generation its translations took. -/
  gen : Nat
  /-- Declared latency and slot latency of a fill or drain (R258, R259). -/
  slotLat : Nat
  /-- Which XCOLL of its identifier it is on this rank (R265), and whether its data has been exchanged. -/
  occ : Nat
  matched : Bool
  /-- A collective's ranks as the table gave them, device number, core and domain context number in one, and its source. -/
  ranks : List Nat
  srcs : List Move
  word0 : W32
  word1 : W32
  dEnd : W64
  aEnd : W64
  bOp : W64
  desc : BitVec 512
  issue : Nat
  due : Nat
  /-- Elements not yet performed, in ordinal order. -/
  moves : List Move
  /-- Elements or slots completed. -/
  done : Nat
  /-- Channel, slot size, slots in all, slots reserved or taken so far (R258, R259). -/
  chan : Nat
  slotSize : Nat
  nslots : Nat
  claimed : Nat
  /-- Next cycle at which a slot may be claimed. -/
  nextClaim : Nat
  /-- Claimed slots not yet finished. -/
  slots : List CopySlot
  /-- Follow-on command (R260). -/
  fo : Option (W32 × W32)
  /-- Cause met after issue with the lowest address (R480). -/
  cause : Option (Nat × Nat)
  /-- XFETCH.TRY has fallen back: ABS (R267). -/
  fell : Option Bool
  /-- Moves performed so far, for a refetch (R443). -/
  hist : List Move
  /-- Pages whose tier fetch it waits for (R409). -/
  waitTier : List Nat
  /-- The IPA page that each of its pages translated to, and the level of its leaf (R410). -/
  tierAs : List (Nat × Nat × Nat)
  /-- Parts that its elements have covered only in part so far (R59). -/
  cover : List (Nat × Cover)
  /-- Where the stream stood at an XFETCH.TRY, whose outcome may diverge (R391). -/
  seat : Option Seat
deriving DecidableEq, Repr

/-- An accepted MMA (R227 to R231, Table 8-7). -/
structure Mma where
  word0 : W32
  word1 : W32
  abase : Nat
  bbase : Nat
  sca : Nat
  scb : Nat
  astr : Nat
  bstr : Nat
  th : Nat
  tw : Nat
  /-- Held channel slots: channel and epoch (R228). -/
  ach : Option (Nat × Nat)
  bch : Option (Nat × Nat)
  /-- The cycle at which it finishes, while the array steps (R231). -/
  fin : Nat
  /-- Steps completed. -/
  fstep : Nat
  fph : Nat
  started : Bool
  /-- The cycle from which it steps after an MFILL or a restore (R244). -/
  resume : Nat
deriving DecidableEq, Repr

/-- M-engine state (Table 8-1). -/
structure MEng where
  mctl : W64
  sca : BitVec 32
  scb : BitVec 32
  pta : BitVec 32 × Bool
  ptb : BitVec 32 × Bool
  mmas : List Mma
  /-- Follow-on queue, oldest first, with the cycle at which each was posted (R240, R260). -/
  follow : List (W32 × W32 × Nat)
  mcnt : BitVec 16
  /-- Cells, byte 512 i + 4 j of a map, and the numbers 128 i + j of tainted cells (R222). -/
  cells : Mem
  cellT : NSet
deriving DecidableEq, Repr

/-- A restart point (R441). -/
structure Restart where
  streams : List Stream
  ncsr : BitVec 32
  phst : BitVec 32
  shape : W64
  gres : BitVec 16
  gval : BitVec 16
  dbw0 : W64
  dbw1 : W64
  chans : List Chan
  pend : List Pend
  cycle : Nat
  rb : Nat
deriving DecidableEq, Repr

/-- How a job is stopped (R168, R317, R320). -/
structure Stop where
  cause : Nat
  strm : Engine
  faddr : Nat
  /-- The handler has it (HND). -/
  held : Bool
  /-- Cause 17 or 36 still before the Guide (R320, R391). -/
  parked : Bool
  /-- The cycle at which the job stopped; that cycle still proceeds for its other streams (R344, R168). -/
  cycle : Nat
deriving DecidableEq, Repr

/-- The job on a core (R334). -/
structure Job where
  cxn : Nat
  handle : Nat
  gidx : Nat
  ord : Nat
  i : Nat
  j : Nat
deriving DecidableEq, Repr, Inhabited

/-- What the filler of each slot of a channel that is not taken, and the taker of each that is not filled again, came after. -/
structure ChanLog where
  chan : Nat
  fills : List Past
  takes : List Past
deriving DecidableEq, Repr
/-- The order between the streams of a job that semaphores, channel slots, tag waits and guard slots fix (R71, edge 2): what each stream
comes after, and what each SEMSIG's increments (semaphore and number), channel slot, copy and guard resolution (slot, cycle and engine) came after. -/
structure Order where
  known : Vector Past 4
  sems : List (Nat × Nat × Past)
  chans : List ChanLog
  tags : List (Nat × Past)
  slots : List (Nat × Nat × Nat × Past)
deriving DecidableEq, Repr, Inhabited
/-- Every stream comes after a past, and nothing else is noted. -/
def Order.all (p : Past) : Order := { known := Vector.replicate 4 p, sems := [], chans := [], tags := [], slots := [] }
def Order.reset : Order := .all .reset

/-- A resolution or clear of guard slots on its way (R150): the cycle from which it holds, the engine whose stream made it, its slots,
whether it resolves them, and to what. -/
structure GuardPend where
  cycle : Nat
  eng : Nat
  mask : BitVec 16
  res : Bool
  val : Bool
deriving DecidableEq, Repr

/-- One core: fixed files, pool, job registers, engines (R16 to R21). -/
structure Core where
  /-- The context that last held the core (R21). -/
  owner : Option Nat
  /-- Instance holding the core, with group index and ordinal; kept until it ends (R328). -/
  member : Option (Nat × Nat × Nat × Nat)
  job : Option Job
  /-- The core has asked for an iteration since this cycle (R332). -/
  asking : Bool
  ended : Bool
  /-- Iteration placed, to start in the next cycle (R334). -/
  placed : Option (Nat × Nat)
  stop : Option Stop
  partw : BitVec 32
  strS : Stream
  strV : Stream
  strM : Stream
  strX : Stream
  ncsr : BitVec 32
  /-- The last cycle at which flags were set, and those set at it: a W1C write of that cycle leaves them set (R40). -/
  flagNow : Nat × BitVec 32
  phst : BitVec 32
  shape : W64
  gres : BitVec 16
  gval : BitVec 16
  /-- Resolutions and clears on their way, in the order in which they take effect (R150). -/
  gpend : List GuardPend
  chans : Vector Chan 16
  sems : Vector (BitVec 12) 32
  /-- Which accesses each stream's next instruction is ordered after (R71, R83). -/
  order : Order
  tags : Vector Tag 64
  dbw0 : W64
  dbw1 : W64
  pend : List Pend
  seq : Nat
  /-- The sequence number from which the writes and accesses are those of the core's present job (R166). -/
  since : Nat
  strong : List Strong
  /-- The pool's bytes (granule g at 65,536 g) and its tainted 4-byte words (R18, R56). -/
  pool : Mem
  poolT : NSet
  /-- Coefficient memory (R199), and whether its reload has failed (R293). -/
  coef : Mem
  coefLost : Bool
  vp : Vector (BitVec 1024) 16
  vpT : Vector (BitVec 1024) 16
  dirs : Vector DWord 16
  dirT : Vector (BitVec 256) 16
  norms : Vector (BitVec 32) 16
  normT : BitVec 16
  m : MEng
  copies : List Copy
  psb : List PsbLine
  /-- The lines that the phase store buffer has allocated so far. -/
  allocs : Nat
  /-- A plain store of this phase found no line (R66). -/
  psbFull : Bool
  snap : List SnapPart
  /-- Uncommitted expert increments (R204): id, taint, count. -/
  epend : List (Nat × Bool × Nat)
  /-- Contributions so far by address and PCNT (R370). -/
  aredN : List (Nat × Nat × Nat)
  /-- Collectives issued so far by identifier (R265). -/
  collN : List (Nat × Nat)
  rp : Option Restart
  refetch : List Copy
  /-- XCOPY and XFILL completed in this phase, in order of completion (R443). -/
  doneCopies : List Copy
  /-- Barriers still to complete at once in a re-execution (R360). -/
  rb : Nat
  rbDone : Nat
  /-- A refetch or reload is due before the job issues (R293, R443). -/
  loading : Bool
  /-- Buffered lines, snapshot or copies have yet to be translated again after a restore (R419). -/
  retrans : Bool
  /-- A refetch before a retry has faulted and is to be done again (R443). -/
  refetching : Bool
  /-- A cause 28 or 34 met while the job stood stopped, with the stream it is the trap of: the next ERET delivers it (R440, R445). -/
  lateErr : Option (Nat × Engine)
  /-- The class under which the job stopped, 1 B, 2 F, 3 A (R286). -/
  stopClass : Nat
deriving DecidableEq, Repr

/-- A stage-2 fault record (Table 16-7). -/
structure FaultRec where
  va : Nat
  ipa : Nat
  handle : Nat
  gidx : Nat
  ord : Nat
  strm : Nat
  qt : Bool
  acc : Nat
  level : Nat
  walk : Bool
  reason : Nat
  gen : Nat
  q : Nat
deriving DecidableEq, Repr

/-- Queue states (Table 11-1). -/
inductive QState where
  | idle | running | waiting | parked | preempted | halted | faulted
deriving DecidableEq, Repr

/-- A queue and its thread (R302 to R310). -/
structure Queue where
  state : QState
  prior : QState
  beforePre : QState
  thread : Stream
  localMem : Mem
  /-- Tainted 16-byte parts of the local store. -/
  localT : NSet
  ncsr : BitVec 32
  pri : BitVec 2
  npovr : Bool
  np : Bool
  hnd : Bool
  qhnd : BitVec 55
  qepc : BitVec 55
  qcauseStrm : BitVec 2
  qcauseCode : BitVec 6
  qjob : W64
  qfaddr : W64
  qdebt : W64
  rcnt : BitVec 8
  rcause : BitVec 6
  /-- QSTATE.CAUSE. -/
  lastCause : BitVec 6
  /-- Handle of the last launch since the queue started, 0 for none (R311, SER). -/
  seq : Nat
  /-- Launches so far; the launch sequence counter is this, wrapped by R311. -/
  launched : Nat
  /-- KWAIT's handle while Waiting. -/
  kwait : Option Nat
  bound : W64
  elapsed : Nat
  watched : Bool
  /-- Unresolved stage-2 faults with their IDs. -/
  faults : List (Nat × FaultRec)
  /-- The thread's own strong accesses not yet performed. -/
  strong : List Strong
  /-- A read of the thread's that waits for its link (R435): address, bytes, and the thread's count of instructions. -/
  waitLink : Option (Nat × Nat × Nat)
  /-- Instructions issued since the queue last started (R380). -/
  icount : Nat
  /-- Delay slots of an untaken transfer that the thread has still to run when its handler returns (R138, R317). -/
  hslots : Nat
  /-- The clock of the last record matched since the queue last started (R386). -/
  matchedAt : Nat
  /-- Core of the trapped job the handler holds. -/
  handling : Option Nat
  /-- A divergence has parked it (R391). -/
  divParked : Bool
  /-- PREEMPT or STOP deferred by this queue's stretch. -/
  deferring : Bool
  /-- The class under which the thread stopped, 1 B, 2 F, 3 A, 0 when it is not stopped (R286). -/
  stopClass : Nat
  /-- The thread before the instruction whose strong accesses are not yet performed, with its count of instructions: a stop that
  finds them waiting for the trail takes the instruction as not issued (R384). -/
  undo : Option (Stream × Nat)
deriving DecidableEq, Repr

/-- Instance states (Table 11-4). -/
inductive IState where
  | pending | admitted | walking | draining | complete | faulted
deriving DecidableEq, Repr

/-- Walker state of one group (R331, Table 12-5) with the group's counter (R343, Table 13-4). -/
inductive GState where
  | forming | lockstep | paused | draining | dissolved
deriving DecidableEq, Repr

structure Group where
  gidx : Nat
  die : Nat
  /-- Member cores in ordinal order. -/
  members : List Nat
  state : GState
  ret : GState
  prsn : BitVec 8
  vcyc : Nat
  /-- VCYC stands at `vcyc`, whose cycle has not yet proceeded (R344). -/
  stand : Bool
  /-- Some streams have gone through that cycle, and others are to issue at it again (R168, R320). -/
  redo : Bool
  nextJ : Nat
  tuples : Nat
  /-- Ordinals that have ended their part (R333). -/
  endedMask : BitVec 128
deriving DecidableEq, Repr

/-- A contribution with its key (i, p, n) (R370). -/
structure Contrib where
  i : Nat
  p : Nat
  n : Nat
  taint : Bool
  x : BitVec 32
deriving DecidableEq, Repr

/-- An ordered-reduction slot (R370 to R373): ea, home address with the leaf it was translated through (R415), contributions. -/
structure Slot where
  ea : Nat
  dpa : Nat
  leaf : Nat
  handle : Nat
  det : Bool
  overrun : Bool
  /-- A checker at the home slice has failed: its close poisons the part (R440). -/
  bad : Bool
  /-- Its address is still to be translated again after a restore (R373). -/
  lost : Bool
  contribs : List Contrib
deriving DecidableEq, Repr

/-- A kernel instance (R311 to R315, R324 to R341). -/
structure Inst where
  handle : Nat
  q : Nat
  state : IState
  cause : Nat
  tev : Bool
  tnt : Bool
  det : Bool
  /-- 0 free, 1 fixed, 2 replay (Table 12-5). -/
  mode : Nat
  code : Nat
  argp : W64
  lcnt : List Nat
  /-- Effective counts and kinds of the used levels. -/
  counts : List Nat
  kinds : List Nat
  pri : Nat
  deps : List Nat
  /-- Order in which LAUNCH completed (R314). -/
  order : Nat
  gen : Nat
  partw : BitVec 32
  codeOff : List Nat
  coefOff : Nat
  rssb : Nat
  groups : List Group
  kbarGen : Nat
  /-- Groups in the order in which they completed their arrivals at the open KBAR (R375). -/
  kbarOrder : List Nat
  slots : List Slot
  /-- An admission read waits for RESOLVE, and what has been read meanwhile: 0 the header, 1 the dependence list, 2 the coefficient image
  (R327). -/
  readFault : Bool
  reads : List (Nat × List Byte)
deriving DecidableEq, Repr

/-- A host request that enters coherence order at a home slice (R89, R423). -/
inductive HostReq where
  | write (bytes : List Byte)
  | atomic (op : HostAtomic) (size : Nat) (x y : BitVec 128)
deriving DecidableEq, Repr

/-- An operation that waits at the trail, by its record: for space or supply, or for its turn (R384, R390), as one whose record lies beyond the
lookahead does (R389), and whether it has been tried in the clock cycle under way. -/
structure TrailWait where
  q0 : Nat
  q1 : Nat
  turn : Bool
  far : Bool
  fresh : Bool
deriving DecidableEq, Repr

/-- Trail registers and state (R376 to R393). -/
structure Trail where
  base : BitVec 39
  wmf : BitVec 4
  ven : Bool
  vec : BitVec 11
  sz : BitVec 5
  mode : BitVec 2
  widx : W64
  ridx : W64
  lost : Bool
  div : Bool
  fev : Bool
  wev : Bool
  dseq : W64
  dexp0 : W64
  dexp1 : W64
  dact0 : W64
  dact1 : W64
  /-- DPA of each 64 KiB ring page, with its leaf (R378, R415). -/
  pages : List (Nat × Nat)
  /-- Records above RIDX already matched (R389). -/
  matched : NSet
  /-- Pre-emption-point records held for space (R384). -/
  held : List (W64 × W64)
  /-- Owner of the divergent operation: a job's core and stream, or a queue (R391), with its ID. -/
  divOwner : Option (Agent)
  divId : Nat
  /-- Operations that wait. -/
  waits : List TrailWait
  /-- Cycles without progress while something is held for its turn (R390). -/
  idle : Nat
  /-- Host writes and AtomicOps that wait for their turn (R387): home slice, IPA, request. Of one slice 64 stand in its queue, and what is
  beyond them the host port holds by withholding credits. -/
  hostq : List (Nat × Nat × HostReq)
  admissions : Nat
deriving DecidableEq, Repr

/-- Something that an invalidation waits for (R402): a buffered line of a core's phase, a copy by tag and issue cycle, a strong access
of a core or of a queue's thread, an ordered-reduction slot, a tier fetch. -/
inductive Watch where
  | line (core va allocs : Nat)
  | copy (core tag issue : Nat)
  | strong (core id : Nat)
  | thread (q clk : Nat)
  | slot (h ea : Nat)
  | tier (key : Nat)
deriving DecidableEq, Repr

/-- Context states (Table 10-2). -/
inductive CxState where
  | free | bound | running | quiescing | saved | migOut | migIn | resetting | tornDown
deriving DecidableEq, Repr

/-- Migration in progress (R436). -/
structure Mig where
  peer : Nat
  peerCxn : Nat
  threshold : Nat
  limit : Nat
  hamper : Nat
  frw : Nat
  /-- Step completed, 0 to 7. -/
  step : Nat
  /-- Pre-copy rounds sent. -/
  rounds : Nat
  /-- Pages of the round under way, by address of the page in the region, once its D bits are cleared. -/
  round : Option (List Nat)
  w0 : W64
  /-- STOP has been asked for, and is held while pre-copy goes on. -/
  asked : Bool
  stopBegun : Bool
  /-- The stop is complete and the hamper valid. -/
  saved : Bool
  /-- ABORT has come after the stop began: the context goes to Saved once the hamper is valid (R437). -/
  aborted : Bool
deriving DecidableEq, Repr

/-- What the Guide keeps of a job beside its hamper, for which the hamper's layout has no place (log 10): its iteration, its stop, what its
streams are held on and when they issue next, the pending writes and strong accesses with their marks, guard slots with what is on its way
to them, channels with the reservations of their slots, copies as they stood, the writers and fences of its buffered lines, counts, and the cycles
from which its accepted MMAs step. -/
structure KeptJob where
  job : Job
  stop : Option Stop
  loading : Bool
  holds : List Hold
  next : List Nat
  pend : List Pend
  strong : List Strong
  seq : Nat
  since : Nat
  gres : BitVec 16
  gval : BitVec 16
  gpend : List GuardPend
  order : Order
  chans : Vector Chan 16
  copies : List Copy
  doneCopies : List Copy
  lines : List (Nat × List (Nat × Engine × Nat) × BitVec 192)
  poisons : List (Nat × Nat)
  aredN : List (Nat × Nat × Nat)
  collN : List (Nat × Nat)
  rb : Nat
  rbDone : Nat
  refetching : Bool
  lateErr : Option (Nat × Engine)
  refetch : List Copy
  resumes : List Nat
deriving DecidableEq, Repr, Inhabited
/-- The same of a core between two jobs, by its saved index: what stores, loads and increments of earlier jobs have left buffered (R92, R166),
and its collectives so far (R265). -/
structure KeptIdle where
  core : Nat
  psb : List PsbLine
  snap : List SnapPart
  epend : List (Nat × Bool × Nat)
  collN : List (Nat × Nat)
deriving DecidableEq, Repr, Inhabited
/-- The same of a queue: its NCSR, the bound of its stretch, its last launch, how many there were, QSTATE.CAUSE, the taint of its local store, and of its thread the
delay slots that wait for its handler, the record it has matched last and the spill or fill that holds it. -/
structure KeptQueue where
  q : Nat
  ncsr : BitVec 32
  bound : W64
  last : Nat
  launched : Nat
  cause : BitVec 6
  hslots : Nat
  matchedAt : Nat
  localT : NSet
  hold : Hold
deriving DecidableEq, Repr, Inhabited
/-- What the Guide keeps of a save (log 10), found again by the hamper's digest: each job, each core between two jobs, each queue, the KBAR releases of each instance, the
groups that have completed their arrivals at the next and those whose cycle is to be gone through again, the count of admissions, the owner of a divergence, and S1ROOT, CG and the windows, which Table 16-4 and R413 say are carried. -/
structure Kept where
  digest : BitVec 512
  jobs : List KeptJob
  idle : List KeptIdle
  queues : List KeptQueue
  kbars : List (Nat × Nat × List Nat × List Nat)
  admissions : Nat
  divOwner : Option Agent
  s1root : W64
  cg : Nat
  wins : List (Nat × BitVec 128)
deriving DecidableEq, Repr, Inhabited

/-- What waits until a request has left its port: a copy, a value or a commit by a cycle of its group, a strong access of the port's core, the
thread of a queue, or the retry of a job whose refetch set is performed again (R443). -/
inductive Need where
  | none
  | copy (tag : Nat)
  | value (due : Nat)
  | strong (id : Nat)
  | thread (q : Nat)
  | refetch
deriving DecidableEq, Repr
/-- Where a request goes: lines of local HBM, which take tokens (R430), a peer, or the host. -/
inductive Dest where
  | hbm | peer (dev : Nat) | host
deriving DecidableEq, Repr
/-- A request that waits at a port: lines left, and since when its next has waited for the host's credits (R433). -/
structure Req where
  lines : Nat
  dest : Dest
  need : Need
  stuck : Option Nat
deriving DecidableEq, Repr
/-- A cached stage-2 descriptor (R401, R473): its address, and the IPAs that it serves, from a base, by log2 of their span. -/
structure Desc where
  addr : Nat
  base : Nat
  shift : Nat
deriving DecidableEq, Repr
/-- What a translation of a page under a generation has used (R402): of stage 1 log2 of its entry's span; of stage 2 the IPAs walked, each with
log2 of its entry's span, and the window. -/
inductive Used where
  | s1 (page gen shift : Nat)
  | s2 (page gen : Nat) (ipas : List (Nat × Nat)) (win : Option Nat)
deriving DecidableEq, Repr

/-- A context (chapter 10). -/
structure Ctx where
  state : CxState
  vf : Nat
  dcn : BitVec 16
  tchk : Bool
  mixdbg : Bool
  partd : BitVec 32
  clmask : W64
  /-- Runs of 512 MiB blocks: first block and count. -/
  runs : List (Nat × Nat)
  tok : Nat
  slotMask : BitVec 256
  frw : Nat
  pcal : BitVec 32
  quant : BitVec 32
  perf : Vector W64 32
  ectr : List (Nat × W64)
  ectrT : NSet
  queues : Vector Queue 16
  insts : List Inst
  launchOrder : Nat
  trail : Trail
  s1root : W64
  /-- What an S1INV, and a stage-2 invalidation, still wait for; none when none is under way (R402). -/
  s1inv : Option (List Watch)
  s2inv : Option (List Watch)
  cg : Nat
  s2root : Nat
  wins : List (Nat × BitVec 128)
  track : Bool
  /-- Mixed-size tags (R80): part, address, size, handle. -/
  mix : List (Nat × Nat × Nat × Nat)
  /-- What R71 orders after each strong access and atomic of the context (R80). -/
  marks : Marks
  saves : Nat
  /-- Class of the pre-emption under way, hamper address, and a deferred request (class, hamper, arrival). -/
  cls : Nat
  hamper : Nat
  deferred : Option (Nat × Nat × Nat)
  /-- The class F stop of a migration, deferred (R321). -/
  mig : Option Mig
  rateFab : Nat
  rateHost : Nat
  markFab : Bool
  markHost : Bool
  /-- Tokens at each port by core number, and whether the context injected since the last refill (R431). -/
  buckets : List (Nat × Nat)
  active : Bool
  /-- Requests that wait at each port in order of issue (R428, R430): ports by core number, a cluster's control core at 1,024 and more. -/
  requests : List (Nat × List Req)
  /-- Stage-2 descriptors that the device has cached for the context (R473). -/
  descs : List Desc
  /-- What translations have used since the last invalidation that covered it (R402). -/
  used : List Used
  /-- Payload that copies have injected in a window of 64 cycles: its number, bytes to peers, bytes to the host (R434). -/
  paced : Nat × Nat × Nat
  /-- Tier fetches under way by key of the page: leaf address, leaf value, IPA page, level of the leaf (R409, R410). -/
  tiers : List (Nat × Nat × W64 × Nat × Nat)
  /-- Restore work left before anything issues (R293, R419). -/
  restoring : Bool
  stagedSlots : Option (Nat × BitVec 256 × Nat)
  /-- Frames MIGIN named for relocated tables. -/
  frames : Nat × Nat
  /-- Records of the trail's tail that a migration has brought, by index, until the ring's pages are known (R393). -/
  tail : List (Nat × List Byte)
  /-- The ring's pages are still to be translated again after a restore (R392). -/
  ringLost : Bool
  /-- Measurement block 17 as it was last computed (R426). -/
  block17 : BitVec 512
  slice : Nat
deriving DecidableEq, Repr

/-- Port states (R420). -/
inductive PortState where
  | down | training | up | degraded | draining | failed
deriving DecidableEq, Repr

structure Port where
  state : PortState
  replays : BitVec 32
  width : BitVec 8
deriving DecidableEq, Repr

/-- A line that the last-level cache holds (R22): its address over 64, its way, the words that are valid and those that are dirty. -/
structure LlcLine where
  line : Nat
  way : Nat
  valid : BitVec 16
  dirty : BitVec 16
deriving DecidableEq, Repr

/-- An error bank (R450). -/
structure Bank where
  cecnt : BitVec 32
  dected : Bool
  ovf : Bool
  records : List (BitVec 256)
deriving DecidableEq, Repr

/-- A format range (Table 16-9). -/
structure FmtRange where
  base : Nat
  size : Nat
  scale : Nat
  fmt : Nat
deriving DecidableEq, Repr

/-- What leaves the device. -/
inductive Output where
  | msix (fn vec : Nat)
  | hostWrite (vf addr : Nat) (bytes : List Byte)
  | completion (fn : Nat) (bytes : List Byte)
  | unsupported (fn : Nat)
  | abort (fn : Nat)
  | spdm (fn : Nat) (bytes : List Byte)
  /-- What the Guide sends to another device for a context, with its domain context number (R433, R436). -/
  | fabric (dev dcn kind : Nat) (bytes : List Byte)
  /-- An answer to a peer's access: acknowledgement 2, data with the taint of each byte (R56) 3, refusal 4; and whether it echoes a congestion
  mark (R433). -/
  | peerAnswer (dcn kind : Nat) (mark : Bool) (bytes : List (Byte × Bool))
  /-- A write to a peer, with the requesting context's domain context number and the taint of each byte (R56, R405). -/
  | peerWrite (dev dcn addr : Nat) (bytes : List (Byte × Bool))
deriving DecidableEq, Repr

/-- SPDM state of one function's DOE mailbox (R425): transcript so far and what was negotiated. -/
structure Doe where
  version : Bool
  caps : Bool
  algs : Bool
  /-- The version agreed on is 1.3 (R425). -/
  v13 : Bool
  transcript : List Byte
deriving DecidableEq, Repr

/-- The Guide, its mailbox and the device-wide state (chapters 16 to 19). -/
structure Guide where
  mbcmd : BitVec 512
  reason : BitVec 32
  err : BitVec 8
  result : BitVec 4
  rdy : Bool
  busy : Bool
  mbres : BitVec 512
  events : List (BitVec 512)
  /-- A dropped event sets bit 7 of the next (R459). -/
  dropped : Bool
  /-- Fault records and divergences the Guide holds back until the queue has room. -/
  backlog : List (BitVec 512)
  nextId : Nat
  ports : Vector Port 25
  mrs : Vector (BitVec 512) 16
  banks : Vector Bank 9
  /-- TTn.OWN (Table 17-6). -/
  timetable : List (BitVec 6)
  /-- Timetables to come, oldest first, each with the slot-0 cycles it still waits (R429). -/
  tables : List (List (BitVec 6) × Nat)
  devnum : Nat
  routes : List (Nat × Nat)
  scrubPeriod : Nat
  ranges : Vector FmtRange 64
  railLow : Vector Bool 8
  /-- Boot step to do next; 8 when the Guide runs (Table 19-2). -/
  boot : Nat
  warm : Bool
  attempt : Nat
  powered : Bool
  does : List (Nat × Doe)
  /-- MSI-X table bytes that software has written, by 2^16 times the function plus the BAR0 offset. -/
  msixTable : List (Nat × Byte)
  /-- Messages pending behind a mask: function and vector. -/
  msixPend : List (Nat × Nat)
  /-- The context whose invalidation the command under way awaits. -/
  waitInv : Option Nat
  /-- What it keeps of the saves it has made (log 10). -/
  kept : List Kept
deriving DecidableEq, Repr

/-- An event of the device's own that a clock cycle or an instruction brings about. Each runs as the row of the opcode table
that bears its name. -/
inductive Auto where
  | jobStart (core : Nat)
  | instanceComplete (cxn h : Nat)
  | handlerEntry (cxn q : Nat)
  | qctlHalt (cxn q : Nat)
  | qrsmRead (cxn q : Nat)
  | npBoundExpired (cxn q : Nat)
  | watchdog (cxn q : Nat)
  | deferredPreemptStart (cxn : Nat)
  | quantumExpiry (cxn : Nat)
  | timetableSlot
  | tokenRefill
  | timetableChange
  | trailModeChange (cxn q mode : Nat)
  | trailWaitRelease (cxn : Nat)
  | replayClockPassed (cxn : Nat)
  | replayStallTimeout (cxn : Nat)
  /-- Before the streams of the cycle issue, or after, as the recorded cause has it (R387). -/
  | replayPhaseRestart (core : Nat) (late : Bool)
  | replayClassAPoint (cxn h g : Nat)
  /-- A pipeline error whose record has waited for the ring (R384). -/
  | retryCancel (core : Nat)
  | hamperValid (cxn : Nat)
  | scrubComplete (cxn : Nat)
  | migrationPrecopyRound (cxn : Nat)
  | migrationStep (cxn : Nat)
  | admission (cxn : Nat)
  | admissionLoadsDone (cxn h : Nat)
  | s1invComplete (cxn : Nat)
  | invalidationComplete (cxn : Nat)
deriving DecidableEq, Repr

/-- One action of the cycle under way. -/
inductive Act where
  | ev (i : Instr)
  | auto (a : Auto)
  | issue (ag : Agent)
deriving DecidableEq, Repr

/-- The whole machine. -/
structure State where
  /-- The agent whose instruction `exec` runs. -/
  cur : Agent
  /-- What is left of the clock cycle under way (log 1). -/
  agenda : List Act
  /-- Inputs from outside the device, oldest first (log 1). -/
  inbox : List Instr
  /-- Cores by device core number; an unlisted core is `Core.reset`. -/
  cores : List (Nat × Core)
  /-- Contexts 0 to 31. -/
  ctxs : Vector Ctx 32
  /-- Local HBM by device physical address (R23), tainted parts and poisoned parts (R56, R449). -/
  hbm : Mem
  hbmT : NSet
  hbmP : NSet
  /-- Parts poisoned in the last-level cache (R446), and the lines that it holds (R22). -/
  llcP : NSet
  llc : List LlcLine
  /-- Bytes of peers and of the host that this device has written, keyed by owner and address (log 5). -/
  remote : List (Nat × Byte)
  /-- Parts of peer memory that this device has written tainted (R56). -/
  remoteT : NSet
  guide : Guide
  /-- PCYC (R427). -/
  pcyc : Nat
  /-- Model's own (log 3, log 4): counts the free values taken. -/
  free : Nat
  /-- What the device has sent, newest first. -/
  out : List Output
  /-- Contexts of which a stream issued in the clock cycle under way (performance counter 0). -/
  issued : NSet
  /-- Contexts of which a queue thread issued in it (R390). -/
  threadIssued : NSet
  /-- Thread that issued last on each cluster control core, by device cluster number (R303). -/
  lastThread : List (Nat × Nat)
deriving DecidableEq, Repr

/-- SHAPE's reset value (R171). -/
def shapeReset : W64 := 0x0000C0000003FC00
/-- MCTL's reset value (Table 8-2). -/
def mctlReset : W64 := 0x3FFF
/-- PARTD's reset value (Table 10-6). -/
def partdReset : BitVec 32 := 0x5812

/-- Registers of a stream or thread at reset (R21, R328). -/
def Stream.reset : Stream :=
  { s := Vector.replicate 64 0, sT := 0, a := Vector.replicate 16 0, aT := 0, t := Vector.replicate 8 0, p := 0, pT := 0,
    pc := 0, redirect := none, slots := 0, rs := [], spilled := 0, rssp := 0, loops := [], lbuf := [], hold := .none, nextIssue := 0 }

/-- An unconfigured channel (R153, Table 5-8). -/
def Chan.reset : Chan :=
  { cfg := false, base := 0, size := 0, count := 0, pidx := 0, cidx := 0, filled := 0, taken := 0, rsv := [], epoch := 0 }

/-- A ready tag (R159). -/
def Tag.reset : Tag := { infl := false, fb := false, abs := false, readyAt := 0 }

/-- The matrix engine at reset (Table 8-1). -/
def MEng.reset : MEng :=
  { mctl := mctlReset, sca := 0, scb := 0, pta := (0, false), ptb := (0, false), mmas := [], follow := [], mcnt := 0,
    cells := [], cellT := [] }

/-- A core with zero pool and every fixed register at its reset value (R21). -/
def Core.reset : Core :=
  { owner := none, member := none, job := none, asking := false, ended := false, placed := none, stop := none, partw := 0,
    strS := .reset, strV := .reset, strM := .reset, strX := .reset, ncsr := 0, flagNow := (0, 0), phst := 0, shape := shapeReset,
    gres := 1, gval := 1, gpend := [], chans := Vector.replicate 16 .reset, sems := Vector.replicate 32 0, order := .reset,
    tags := Vector.replicate 64 .reset, dbw0 := 0, dbw1 := 0, pend := [], seq := 0, since := 0, strong := [], pool := [], poolT := [],
    coef := [], coefLost := false, vp := Vector.replicate 16 0, vpT := Vector.replicate 16 0,
    dirs := Vector.replicate 16 0, dirT := Vector.replicate 16 0, norms := Vector.replicate 16 0x80000000, normT := 0,
    m := .reset, copies := [], psb := [], psbFull := false, snap := [], epend := [], aredN := [], collN := [], rp := none, refetch := [], doneCopies := [],
    allocs := 0, rb := 0, rbDone := 0, loading := false, retrans := false, refetching := false, lateErr := none, stopClass := 0 }

/-- A queue that is Idle (Table 11-2). -/
def Queue.reset : Queue :=
  { state := .idle, prior := .idle, beforePre := .idle, thread := .reset, localMem := [], localT := [], ncsr := 0, pri := 0,
    npovr := false, np := false, hnd := false, qhnd := 0, qepc := 0, qcauseStrm := 0, qcauseCode := 0, qjob := 0, qfaddr := 0,
    qdebt := 0, rcnt := 0, rcause := 0, lastCause := 0, seq := 0, launched := 0, kwait := none, bound := 0, elapsed := 0,
    watched := false, faults := [], strong := [], waitLink := none, icount := 0, hslots := 0, matchedAt := 0, handling := none, divParked := false,
    deferring := false, stopClass := 0, undo := none }

/-- The trail registers at reset (Table 15-1). -/
def Trail.reset : Trail :=
  { base := 0, wmf := 0xC, ven := false, vec := 0, sz := 16, mode := 0, widx := 0, ridx := 0, lost := false, div := false,
    fev := false, wev := false, dseq := 0, dexp0 := 0, dexp1 := 0, dact0 := 0, dact1 := 0, pages := [], matched := [],
    held := [], divOwner := none, divId := 0, waits := [], idle := 0, hostq := [], admissions := 0 }

/-- A Free context (Table 10-2). -/
def Ctx.reset : Ctx :=
  { state := .free, vf := 0, dcn := 0, tchk := false, mixdbg := false, partd := partdReset, clmask := 0, runs := [], tok := 0,
    slotMask := 0, frw := 0, pcal := 0, quant := 0, perf := Vector.replicate 32 0, ectr := [], ectrT := [],
    queues := Vector.replicate 16 .reset, insts := [], launchOrder := 0, trail := .reset, s1root := 0, s1inv := none,
    s2inv := none, cg := 0, s2root := 0, wins := [], track := false, mix := [], marks := .reset, saves := 0, cls := 0, hamper := 0,
    deferred := none, mig := none, rateFab := 5104, rateHost := 257, markFab := false, markHost := false, buckets := [],
    active := false, requests := [], descs := [], used := [], paced := (0, 0, 0), tiers := [], restoring := false, stagedSlots := none, frames := (0, 0), tail := [], ringLost := false,
    block17 := 0, slice := 0 }

/-- A port that is Down (R420). -/
def Port.reset : Port := { state := .down, replays := 0, width := 0 }
def Bank.reset : Bank := { cecnt := 0, dected := false, ovf := false, records := [] }
def FmtRange.reset : FmtRange := { base := 0, size := 0, scale := 0, fmt := 0 }

/-- The Guide before boot (R453 to R456). -/
def Guide.reset : Guide :=
  { mbcmd := 0, reason := 0, err := 0, result := 0, rdy := false, busy := false, mbres := 0, events := [], dropped := false,
    backlog := [], nextId := 1, ports := Vector.replicate 25 .reset, mrs := Vector.replicate 16 0,
    banks := Vector.replicate 9 .reset, timetable := List.replicate 256 0, tables := [], devnum := 0, routes := [],
    scrubPeriod := 24, ranges := Vector.replicate 64 .reset, railLow := Vector.replicate 8 false, boot := 1, warm := false,
    attempt := 0, powered := true, does := [], msixTable := [], msixPend := [], waitInv := none, kept := [] }

/-- The machine right after a cold reset, before boot step 1 (R453, R454). -/
def State.reset : State :=
  { cur := .thread 0 0, agenda := [], inbox := [], cores := [], ctxs := Vector.replicate 32 .reset, hbm := [], hbmT := [],
    hbmP := [], llcP := [], llc := [], remote := [], remoteT := [], guide := .reset, pcyc := 0, free := 0, out := [],
    issued := [], threadIssued := [], lastThread := [] }

end Sys2Proof.Machine

/-! What another device's Guide has kept of a save whose hamper comes here: free values, by the hamper's digest. -/
namespace Sys2Proof.Config
open Sys2Proof.Machine

/-- Free value (log 10): of the job of an instance's group and ordinal. -/
opaque keptJob : BitVec 512 → Nat → Nat → Nat → KeptJob
/-- Free value (log 10): of a core between two jobs, by its saved index. -/
opaque keptIdle : BitVec 512 → Nat → KeptIdle
/-- Free value (log 10): of a queue. -/
opaque keptQueue : BitVec 512 → Nat → KeptQueue
/-- Free value (log 10): of the context. -/
opaque keptRest : BitVec 512 → Kept

end Sys2Proof.Config
end

