-- ==== Sys2Proof/Machine/Bytes.lean ====
section
/-! DEFINITION. Byte memories, sets and keyed lists in canonical form, and little-endian numbers (R3). -/
namespace Sys2Proof.Machine

/-- The byte at an address; an unlisted address reads as zero. -/
def Mem.get : Mem → Nat → Byte
  | [], _ => 0
  | (k, v) :: m, a => if k = a then v else Mem.get m a

/-- A memory without one address. -/
def Mem.drop : Mem → Nat → Mem
  | [], _ => []
  | (k, v) :: m, a => if k = a then m else if a < k then (k, v) :: m else (k, v) :: Mem.drop m a

/-- A memory with a non-zero byte placed at its address. -/
def Mem.put : Mem → Nat → Byte → Mem
  | [], a, b => [(a, b)]
  | (k, v) :: m, a, b =>
    if k = a then (a, b) :: m else if a < k then (a, b) :: (k, v) :: m else (k, v) :: Mem.put m a b

/-- A write of one byte, which keeps the canonical form. -/
def Mem.set (m : Mem) (a : Nat) (b : Byte) : Mem := if b = 0 then Mem.drop m a else Mem.put m a b

/-- The canonical form: addresses strictly rising above a bound, no zero listed. -/
def Mem.wfFrom : Option Nat → Mem → Bool
  | _, [] => true
  | lo, (k, v) :: m => (match lo with
      | none => true
      | some l => decide (l < k)) && decide (v ≠ 0) && Mem.wfFrom (some k) m

/-- The canonical form of a memory. -/
def Mem.wf (m : Mem) : Bool := Mem.wfFrom none m

/-- n bytes from an address. -/
def Mem.read (m : Mem) (a n : Nat) : List Byte := (List.range n).map fun k => m.get (a + k)

/-- Bytes written at rising addresses. -/
def Mem.write : Mem → Nat → List Byte → Mem
  | m, _, [] => m
  | m, a, b :: bs => Mem.write (m.set a b) (a + 1) bs

/-- A memory with the addresses that satisfy a test cleared to zero. -/
def Mem.clear (m : Mem) (p : Nat → Bool) : Mem := m.filter fun c => !p c.1

/-- Membership of a set. -/
def NSet.has (s : NSet) (k : Nat) : Bool := s.any (· == k)
/-- A set with a member. -/
def NSet.add : NSet → Nat → NSet
  | [], k => [k]
  | x :: s, k => if x = k then x :: s else if k < x then k :: x :: s else x :: NSet.add s k
/-- A set without a member. -/
def NSet.del : NSet → Nat → NSet
  | [], _ => []
  | x :: s, k => if x = k then s else if k < x then x :: s else x :: NSet.del s k
/-- A set with a member in or out. -/
def NSet.mk (s : NSet) (k : Nat) (inn : Bool) : NSet := if inn then s.add k else s.del k
/-- A set without the members that satisfy a test. -/
def NSet.clear (s : NSet) (p : Nat → Bool) : NSet := s.filter fun x => !p x

/-- The value of a key. -/
def aget? {α : Type} : List (Nat × α) → Nat → Option α
  | [], _ => none
  | (k, v) :: l, a => if k = a then some v else aget? l a
/-- A keyed list, in rising order, with a key's value. -/
def aset {α : Type} : List (Nat × α) → Nat → α → List (Nat × α)
  | [], a, b => [(a, b)]
  | (k, v) :: l, a, b => if k = a then (a, b) :: l else if a < k then (a, b) :: (k, v) :: l else (k, v) :: aset l a b
/-- A keyed list without a key. -/
def adel {α : Type} (l : List (Nat × α)) (a : Nat) : List (Nat × α) := l.filter fun c => c.1 != a

/-- The number of little-endian bytes (R3). -/
def leNat : List Byte → Nat
  | [] => 0
  | b :: bs => b.toNat + 256 * leNat bs
/-- n little-endian bytes of a number. -/
def leBytes : Nat → Nat → List Byte
  | 0, _ => []
  | n + 1, x => BitVec.ofNat 8 x :: leBytes n (x / 256)

/-- n zero bytes. -/
def zeros (n : Nat) : List Byte := List.replicate n 0

/-- Division rounded up. -/
def cdiv (a b : Nat) : Nat := (a + b - 1) / b

/-- Bits hi to lo of a number. -/
def bits (x hi lo : Nat) : Nat := x / 2 ^ lo % 2 ^ (hi + 1 - lo)
/-- One bit of a number. -/
def nbit (x k : Nat) : Bool := x.testBit k
/-- A bit as a number at a place. -/
def bitAt (b : Bool) (k : Nat) : Nat := if b then 2 ^ k else 0

/-- A bit vector with one bit set or cleared. -/
def setBit {w : Nat} (x : BitVec w) (k : Nat) (b : Bool) : BitVec w :=
  if b then x ||| (BitVec.ofNat w 1 <<< k) else x &&& ~~~ (BitVec.ofNat w 1 <<< k)

/-- An element of a vector, or a default beyond its end. -/
def vget {α : Type} {n : Nat} (v : Vector α n) (k : Nat) (d : α) : α := (v[k]?).getD d

/-- A list with one element replaced. -/
def lset {α : Type} : List α → Nat → α → List α
  | [], _, _ => []
  | _ :: l, 0, b => b :: l
  | x :: l, n + 1, b => x :: lset l n b

end Sys2Proof.Machine
end

