-- ==== Sys2Proof/Machine/Ops.lean ====
section
/-! DEFINITION. Named operations over the state: cores, contexts, queues, instances and groups by name; registers and pending
writes (R129, R131); events to the Guide (R459); taking a trap, and the return from one (R168, R169, R317 to R320). -/
namespace Sys2Proof.Machine

/-! Parts of the state by name. -/

def State.core (s : State) (n : Nat) : Core := (aget? s.cores n).getD .reset
def State.setCore (s : State) (n : Nat) (c : Core) : State := { s with cores := aset s.cores n c }
def State.modCore (s : State) (n : Nat) (f : Core → Core) : State := s.setCore n (f (s.core n))
def State.ctx (s : State) (n : Nat) : Ctx := vget s.ctxs n .reset
def State.setCtx (s : State) (n : Nat) (c : Ctx) : State := { s with ctxs := s.ctxs.setIfInBounds n c }
def State.modCtx (s : State) (n : Nat) (f : Ctx → Ctx) : State := s.setCtx n (f (s.ctx n))
def Ctx.queue (c : Ctx) (q : Nat) : Queue := vget c.queues q .reset
def Ctx.setQueue (c : Ctx) (q : Nat) (x : Queue) : Ctx := { c with queues := c.queues.setIfInBounds q x }
def State.queue (s : State) (cxn q : Nat) : Queue := (s.ctx cxn).queue q
def State.setQueue (s : State) (cxn q : Nat) (x : Queue) : State := s.modCtx cxn (·.setQueue q x)
def State.modQueue (s : State) (cxn q : Nat) (f : Queue → Queue) : State := s.setQueue cxn q (f (s.queue cxn q))
def State.modTrail (s : State) (cxn : Nat) (f : Trail → Trail) : State := s.modCtx cxn fun c => { c with trail := f c.trail }
def State.modGuide (s : State) (f : Guide → Guide) : State := { s with guide := f s.guide }

def Ctx.inst? (c : Ctx) (h : Nat) : Option Inst := c.insts.find? (·.handle == h)
def Ctx.setInst (c : Ctx) (i : Inst) : Ctx := { c with insts := c.insts.map fun x => if x.handle = i.handle then i else x }
def State.inst? (s : State) (cxn h : Nat) : Option Inst := (s.ctx cxn).inst? h
def State.modInst (s : State) (cxn h : Nat) (f : Inst → Inst) : State :=
  s.modCtx cxn fun c => { c with insts := c.insts.map fun x => if x.handle = h then f x else x }
def Inst.group? (i : Inst) (g : Nat) : Option Group := i.groups.find? (·.gidx == g)
def State.group? (s : State) (cxn h g : Nat) : Option Group := (s.inst? cxn h).bind (·.group? g)
def State.modGroup (s : State) (cxn h g : Nat) (f : Group → Group) : State :=
  s.modInst cxn h fun i => { i with groups := i.groups.map fun x => if x.gidx = g then f x else x }

def Core.str (c : Core) : Engine → Stream
  | .S => c.strS
  | .V => c.strV
  | .M => c.strM
  | .X => c.strX
def Core.setStr (c : Core) (e : Engine) (x : Stream) : Core :=
  match e with
  | .S => { c with strS := x }
  | .V => { c with strV := x }
  | .M => { c with strM := x }
  | .X => { c with strX := x }
def engines : List Engine := [.S, .V, .M, .X]
/-- The number of an engine in records and registers (Table 11-2). -/
def engNum : Engine → Nat
  | .S => 0 | .V => 1 | .M => 2 | .X => 3
def engOf (n : Nat) : Engine :=
  match n % 4 with
  | 0 => .S | 1 => .V | 2 => .M | _ => .X

/-- The group of a core's instance. -/
def State.groupOf (s : State) (n : Nat) : Option Group :=
  match (s.core n).member with
  | some (cxn, h, g, _) => s.group? cxn h g
  | none => none
/-- The virtual cycle of a core's group (R343). -/
def State.now (s : State) (n : Nat) : Nat := ((s.groupOf n).map (·.vcyc)).getD 0
/-- Whether a core's instance has the deterministic flag (R336). -/
def State.detCore (s : State) (n : Nat) : Bool :=
  match (s.core n).member with
  | some (cxn, h, _, _) => ((s.inst? cxn h).map (·.det)).getD false
  | none => false
/-- The context of an agent. -/
def State.cxnOf (s : State) : Agent → Nat
  | .job n _ => ((s.core n).member.map (·.1)).getD 0
  | .thread cxn _ => cxn
/-- The weight generation of an agent's translations (R413). -/
def State.genOf (s : State) : Agent → Nat
  | .job n _ =>
    match (s.core n).member with
    | some (cxn, h, _, _) => ((s.inst? cxn h).map (·.gen)).getD 0
    | none => 0
  | .thread cxn _ => (s.ctx cxn).cg
/-- Device cluster numbers of a slice, ascending. -/
def Ctx.clusters (c : Ctx) : List Nat := (List.range 64).filter fun k => c.clmask.getLsbD k
/-- The stream or thread registers of an agent. -/
def State.stream (s : State) : Agent → Stream
  | .job n e => (s.core n).str e
  | .thread cxn q => (s.queue cxn q).thread
def State.setStream (s : State) (ag : Agent) (x : Stream) : State :=
  match ag with
  | .job n e => s.modCore n (·.setStr e x)
  | .thread cxn q => s.modQueue cxn q fun k => { k with thread := x }
def State.modStream (s : State) (ag : Agent) (f : Stream → Stream) : State := s.setStream ag (f (s.stream ag))

/-! Free values: each takes the next count (log 3, log 4). -/

def State.tick (s : State) (k : Nat) : State := { s with free := s.free + k }
/-- n undefined bytes (R8). -/
def State.freeBytes (s : State) (n : Nat) : List Byte := (List.range n).map fun k => Config.freeByte (s.free + k)

/-! Performance counters (Table 10-11). -/

def State.perf (s : State) (cxn i k : Nat) : State :=
  s.modCtx cxn fun c => { c with perf := c.perf.setIfInBounds i (BitVec.ofNat 64 (((vget c.perf i 0).toNat + k) % 2 ^ 63)) }

/-! Messages out of the device. -/

def State.send (s : State) (o : Output) : State := { s with out := o :: s.out }
/-- Key of a byte of a function's MSI-X table. -/
def msixKey (fn off : Nat) : Nat := fn * 2 ^ 16 + off
/-- A byte of a function's MSI-X table (R422), by its BAR0 offset: what software has written, else zero but for the mask bit (log 8). -/
def Guide.msixByte (g : Guide) (fn off : Nat) : Byte := (aget? g.msixTable (msixKey fn off)).getD (if off % 16 = 12 then 1 else 0)
/-- A vector of a function is masked: its Vector Control bit, 1 until software clears it (log 8). -/
def Guide.masked (g : Guide) (fn vec : Nat) : Bool := (g.msixByte fn (0x1000 + 16 * vec + 12)).getLsbD 0
/-- MSI-X vector `vec` of a virtual function (R306, R316), or of the physical function for 0; a masked one becomes pending. -/
def State.msix (s : State) (fn vec : Nat) : State :=
  if s.guide.masked fn vec then
    s.modGuide fun g => { g with msixPend := if g.msixPend.contains (fn, vec) then g.msixPend else g.msixPend ++ [(fn, vec)] }
  else s.send (.msix fn vec)

/-- An event for the hypervisor (R459): type, context + 1, ID and payload from byte 8. -/
def mkEvent (type cx id payload : Nat) : BitVec 512 :=
  BitVec.ofNat 512 (type + cx * 2 ^ 8 + id * 2 ^ 16 + payload * 2 ^ 64)

/-- R459: queueing of an event; `keep` for fault records and divergences, which are never dropped. -/
def Guide.post (g : Guide) (ev : BitVec 512) (keep : Bool) : Guide :=
  if g.events.length < 256 then
    { g with events := g.events ++ [if g.dropped then ev ||| 0x80 else ev], dropped := false }
  else if keep then { g with backlog := g.backlog ++ [ev] }
  else { g with dropped := true }
/-- R459 with its MSI-X message when the queue leaves empty. -/
def State.event (s : State) (type cx id payload : Nat) (keep : Bool := false) : State :=
  let s1 := s.modGuide (·.post (mkEvent type cx id payload) keep)
  if s.guide.events.isEmpty then s1.msix 0 1 else s1
/-- A new record ID (R459). -/
def State.newId (s : State) : Nat × State :=
  (s.guide.nextId, s.modGuide fun g => { g with nextId := if g.nextId = 65535 then 1 else g.nextId + 1 })

/-- Context state change with its event (R276, R459). -/
def CxState.code : CxState → Nat
  | .free => 0 | .bound => 1 | .running => 2 | .quiescing => 3 | .saved => 4 | .migOut => 5 | .migIn => 6 | .resetting => 7 | .tornDown => 8
def State.cxGoto (s : State) (cxn : Nat) (st : CxState) : State :=
  let old := (s.ctx cxn).state
  (s.modCtx cxn fun c => { c with state := st }).event 7 (cxn + 1) 0 (st.code + old.code * 256)

/-! Registers. Reads return what landed (R129); a job's writes pend and a queue thread's are immediate (R131). -/

def Stream.rs? (x : Stream) (r : Nat) : W64 := if r = 0 then 0 else vget x.s r 0
def Stream.rsT (x : Stream) (r : Nat) : Bool := r != 0 && x.sT.getLsbD r
def Stream.ra (x : Stream) (r : Nat) : W64 := vget x.a (r % 16) 0
def Stream.raT (x : Stream) (r : Nat) : Bool := x.aT.getLsbD (r % 16)
def Stream.rp (x : Stream) (r : Nat) : Bool := x.p.getLsbD (r % 16)
def Stream.rpT (x : Stream) (r : Nat) : Bool := x.pT.getLsbD (r % 16)
def Stream.rt (x : Stream) (r : Nat) : W64 := vget x.t (r % 8) 0
def Stream.ws (x : Stream) (r : Nat) (v : W64) (t : Bool) : Stream :=
  if r = 0 then x else { x with s := x.s.setIfInBounds r v, sT := setBit x.sT r t }
def Stream.wa (x : Stream) (r : Nat) (v : W64) (t : Bool) : Stream :=
  { x with a := x.a.setIfInBounds (r % 16) v, aT := setBit x.aT (r % 16) t }
def Stream.wp (x : Stream) (r : Nat) (v t : Bool) : Stream :=
  { x with p := setBit x.p (r % 16) v, pT := setBit x.pT (r % 16) t }
def Stream.wt (x : Stream) (r : Nat) (v : W64) : Stream := { x with t := x.t.setIfInBounds (r % 8) v }

/-- R129: a pending write due at a cycle; the list stays in ascending order of sequence. -/
def Core.addPend (c : Core) (due : Nat) (ls : Bool) (t : PendTarget) : Core :=
  { c with pend := c.pend ++ [⟨c.seq, due, ls, t⟩], seq := c.seq + 1 }
def State.addPend (s : State) (n : Nat) (lat : Nat) (ls : Bool) (t : PendTarget) : State :=
  s.modCore n (·.addPend (s.now n + lat) ls t)

/-- A scalar result with latency `lat`. -/
def State.putS (s : State) (ag : Agent) (r : Nat) (v : W64) (t : Bool) (lat : Nat) : State :=
  match ag with
  | .job n e => s.addPend n lat false (.s e r v t)
  | .thread _ _ => s.modStream ag (·.ws r v t)
def State.putA (s : State) (ag : Agent) (r : Nat) (v : W64) (t : Bool) (lat : Nat) : State :=
  match ag with
  | .job n e => s.addPend n lat false (.a e (r % 16) v t)
  | .thread _ _ => s.modStream ag (·.wa r v t)
def State.putP (s : State) (ag : Agent) (r : Nat) (v t : Bool) (lat : Nat) : State :=
  match ag with
  | .job n e => s.addPend n lat false (.p e (r % 16) v t)
  | .thread _ _ => s.modStream ag (·.wp r v t)
def State.putT (s : State) (ag : Agent) (r : Nat) (v : W64) (lat : Nat) : State :=
  match ag with
  | .job n e => s.addPend n lat false (.t e (r % 8) v)
  | .thread _ _ => s.modStream ag (·.wt r v)

/-! Going on to the next instruction (R94, R137, R138, R144). -/

/-- R144: loops whose body does not hold the target end, innermost first. -/
def endLoops (target : W64) : List Loop → List Loop
  | [] => []
  | l :: ls => if l.start.toNat ≤ target.toNat ∧ target.toNat ≤ l.stop.toNat then l :: ls else endLoops target ls

/-- The program counter past an instruction of `len` bytes, with a pending redirect counted down. -/
def Stream.advance (x : Stream) (len : Nat) : Stream :=
  match x.redirect with
  | some (t, 0) => { x with pc := t, redirect := none, loops := endLoops t x.loops }
  | some (t, 1) => { x with pc := t, redirect := none, loops := endLoops t x.loops }
  | some (t, k + 2) => { x with pc := x.pc + BitVec.ofNat 64 len, redirect := some (t, k + 1) }
  | none => { x with pc := x.pc + BitVec.ofNat 64 len, slots := x.slots - 1 }

/-- An instruction has issued: the next is due no earlier than `interval` cycles later (R127, R179). -/
def State.finish (s : State) (ag : Agent) (len interval : Nat) : State :=
  match ag with
  | .job n e =>
    { s.modStream (.job n e) fun x => { x.advance len with nextIssue := s.now n + interval, hold := .none } with
        issued := s.issued.add (s.cxnOf (.job n e)) }
  | .thread cxn q =>
    { s.modQueue cxn q fun k => { k with thread := k.thread.advance len, icount := (k.icount + 1) % 2 ^ 32 } with
        threadIssued := s.threadIssued.add cxn }

/-- R138: the instruction stands in a delay slot. -/
def Stream.inSlot (x : Stream) : Bool := x.redirect.isSome || decide (0 < x.slots)

/-- Where a stream stands (R168), and a stream put back there. -/
def Stream.seat (x : Stream) : Seat := { pc := x.pc, redirect := x.redirect, slots := x.slots, loops := x.loops }
def Stream.sit (x : Stream) (z : Seat) : Stream := { x with pc := z.pc, redirect := z.redirect, slots := z.slots, loops := z.loops }

/-! Pauses (R345). -/

/-- A pause reason arises (Table 13-4). -/
def Group.pause (g : Group) (bit : Nat) : Group :=
  match g.state with
  | .lockstep => { g with state := .paused, ret := .lockstep, prsn := setBit g.prsn bit true }
  | .draining => { g with state := .paused, ret := .draining, prsn := setBit g.prsn bit true }
  | .paused => { g with prsn := setBit g.prsn bit true }
  | _ => g
/-- A pause reason ends. -/
def Group.unpause (g : Group) (bit : Nat) : Group :=
  match g.state with
  | .paused =>
    let p := setBit g.prsn bit false
    if p = 0 then { g with state := g.ret, prsn := 0 } else { g with prsn := p }
  | _ => g
def State.pauseCore (s : State) (n bit : Nat) : State :=
  match (s.core n).member with
  | some (cxn, h, g, _) => s.modGroup cxn h g (·.pause bit)
  | none => s
/-- R320, R348, R384: a cycle of a core's group stands: what has not issued at it is to issue at it. -/
def State.standCore (s : State) (n : Nat) : State :=
  match (s.core n).member with
  | some (cxn, h, g, _) => s.modGroup cxn h g fun x => { x with stand := true, redo := true }
  | none => s
/-- Whether a member of a group is stopped, or its queue parked (R354, R320). -/
def State.memberStopped (s : State) (g : Group) : Bool := g.members.any fun n => (s.core n).stop.isSome

/-! Queue states (Table 11-5). -/

def QState.code : QState → Nat
  | .idle => 0 | .running => 1 | .waiting => 2 | .parked => 3 | .preempted => 4 | .halted => 5 | .faulted => 6
def QState.ofCode (n : Nat) : QState :=
  match n with
  | 1 => .running | 2 => .waiting | 3 => .parked | 4 => .preempted | 5 => .halted | 6 => .faulted | _ => .idle

/-- A queue that runs, waits or is parked enters Halted or Faulted with its cause and its message (R306); in another state Table 11-5 has
no row for it (R7). -/
def State.endQueue (s : State) (cxn q : Nat) (st : QState) (cause : Nat) : State :=
  let k := s.queue cxn q
  if k.state = .running ∨ k.state = .waiting ∨ k.state = .parked then
    (s.modQueue cxn q fun k => { k with state := st, lastCause := BitVec.ofNat 6 cause }).msix (s.ctx cxn).vf 0
  else s

/-- The queue that launched a core's instance. -/
def State.queueOfCore (s : State) (n : Nat) : Option (Nat × Nat) :=
  match (s.core n).member with
  | some (cxn, h, _, _) => (s.inst? cxn h).map fun i => (cxn, i.q)
  | none => none

/-- Cores that hold members of instances of a queue. -/
def State.coresOfQueue (s : State) (cxn q : Nat) : List Nat :=
  (s.ctx cxn).insts.flatMap fun i =>
    if i.q = q ∧ (i.state = .walking ∨ i.state = .draining) then i.groups.flatMap (·.members) else []

/-- R320: a Running or Waiting queue parks, and the groups of a Parked queue's instances pause; in another state Table 11-5 has no row for
it (R7). -/
def State.parkQueue (s : State) (cxn q : Nat) : State :=
  let k := s.queue cxn q
  let s1 := if k.state = .running ∨ k.state = .waiting then s.modQueue cxn q fun x => { x with prior := x.state, state := .parked } else s
  if (s1.queue cxn q).state = .parked then (s.coresOfQueue cxn q).foldl (fun t n => t.pauseCore n 2) s1 else s1

/-- The 32 bytes of a fault record (Table 16-7). -/
def FaultRec.toNat (r : FaultRec) : Nat :=
  r.va + r.ipa * 2 ^ 64 + r.handle * 2 ^ 128 + r.gidx * 2 ^ 160 + r.ord * 2 ^ 176 + (r.strm + bitAt r.qt 2) * 2 ^ 184
    + r.acc * 2 ^ 192 + (r.level + bitAt r.walk 7) * 2 ^ 200 + r.reason * 2 ^ 208 + r.gen * 2 ^ 216 + r.q * 2 ^ 224

/-- R411, R412: a stage-2 fault record goes to the Guide with a new ID and is held by its queue; beyond 255 it waits. -/
def State.faultRecord (s : State) (cxn q : Nat) (r : FaultRec) : State :=
  let s := s.perf cxn 7 1
  if (s.queue cxn q).faults.length < 255 then
    let (id, s) := s.newId
    (s.modQueue cxn q fun k => { k with faults := k.faults ++ [(id, r)] }).event 1 (cxn + 1) id r.toNat true
  else s.modQueue cxn q fun k => { k with faults := k.faults ++ [(0, r)] }

/-- The record of a fault of an agent. -/
def State.fillRec (s : State) (ag : Agent) (r : FaultRec) : FaultRec :=
  match ag with
  | .job n e =>
    match (s.core n).member with
    | some (cxn, h, g, o) =>
      { r with handle := h, gidx := g, ord := o, strm := engNum e, qt := false, q := ((s.inst? cxn h).map (·.q)).getD 0 }
    | none => r
  | .thread _ q => { r with handle := 0, gidx := 0, ord := 0, strm := 0, qt := true, q := q }

/-! Taking an exception (R168, R317 to R320). -/

/-- A trap in a job (R168): the job stops precisely at its stream's current instruction, the group pauses at the end of
the cycle (R354), and the trap is pending at the handler of its queue (R317). A second cause of the cycle is not recorded. -/
def State.trapJob (s : State) (n : Nat) (e : Engine) (cause faddr : Nat) : State :=
  if (s.core n).stop.isSome then s
  else
    (s.modCore n fun c => { c with stop := some { cause := cause, strm := e, faddr := faddr, held := false, parked := false, cycle := s.now n } }).pauseCore n 2

/-- A stage-2 fault of a job (R320): the job stops at its instruction, the queue parks, the record goes to the Guide. -/
def State.parkJob (s : State) (n : Nat) (e : Engine) (cause faddr : Nat) : State :=
  if (s.core n).stop.isSome then s
  else
    (s.modCore n fun c => { c with stop := some { cause := cause, strm := e, faddr := faddr, held := false, parked := true, cycle := s.now n } }).pauseCore n 2

/-- A cause of a queue program (R318, R319), TRAP apart: the queue becomes Faulted. -/
def State.trapThread (s : State) (cxn q cause : Nat) : State := s.endQueue cxn q .faulted cause

/-- Takes the exception of a cause at the current instruction of an agent; `rec` is the record of a stage-2 fault. -/
def State.take (s : State) (ag : Agent) (cause faddr : Nat) (rec : Option FaultRec := none) : State :=
  match ag, rec with
  | .job n e, some r =>
    if (s.core n).stop.isSome then s
    else
      let s1 := (s.parkJob n e cause faddr).standCore n
      match s.queueOfCore n with
      | some (cxn, q) => (s1.faultRecord cxn q (s.fillRec ag r)).parkQueue cxn q
      | none => s1
  | .job n e, none => if (s.core n).stop.isSome then s else (s.trapJob n e cause faddr).standCore n
  | .thread cxn q, some r => (s.faultRecord cxn q (s.fillRec ag r)).parkQueue cxn q
  | .thread cxn q, none => s.trapThread cxn q cause

/-- R317: entry of the queue's handler for a stopped job. -/
def State.enterHandler (s : State) (cxn q n : Nat) : State :=
  match (s.core n).stop, (s.core n).member with
  | some st, some (_, h, g, o) =>
    let s1 := s.modCore n fun c => { c with stop := some { st with held := true } }
    s1.modQueue cxn q fun k =>
      { k with
        state := .running, hnd := true, handling := some n, kwait := none, hslots := k.thread.slots
        qepc := BitVec.ofNat 55 k.thread.pc.toNat
        qcauseStrm := BitVec.ofNat 2 (engNum st.strm), qcauseCode := BitVec.ofNat 6 st.cause
        qjob := BitVec.ofNat 64 (h * 2 ^ 32 + g * 2 ^ 16 + o * 2 ^ 9)
        qfaddr := BitVec.ofNat 64 st.faddr
        thread := { k.thread with pc := BitVec.ofNat 64 (k.qhnd.toNat / 4 * 4), slots := 0 } }
  | _, _ => s

/-- A redirect kept past its last delay slot takes effect (R138, R168). -/
def Stream.takeRedirect (x : Stream) : Stream :=
  match x.redirect with
  | some (t, 0) => { x with pc := t, redirect := none, loops := endLoops t x.loops }
  | _ => x
/-- The stopped job of a core goes on (R169): its group leaves the pause when no member is stopped. -/
def State.resumeJob (s : State) (n : Nat) : State :=
  let s1 := s.modCore n fun c => { c with
    stop := none, strS := c.strS.takeRedirect, strV := c.strV.takeRedirect, strM := c.strM.takeRedirect, strX := c.strX.takeRedirect }
  match (s.core n).member with
  | some (cxn, h, g, _) =>
    match s1.group? cxn h g with
    | some gr => if s1.memberStopped gr then s1 else s1.modGroup cxn h g (·.unpause 2)
    | none => s1
  | none => s1

/-- R318: the thread leaves its handler for QEPC, with the delay slots it had still to run. -/
def State.leaveHandler (s : State) (cxn q : Nat) : State :=
  s.modQueue cxn q fun k =>
    { k with hnd := false, handling := none, hslots := 0, icount := (k.icount + 1) % 2 ^ 32,
             thread := { k.thread with pc := BitVec.ofNat 64 (k.qepc.toNat / 4 * 4), slots := k.hslots } }

end Sys2Proof.Machine
end

