-- ==== Sys2Proof/Machine/Llc.lean ====
section
/-! DEFINITION. Local addresses (R14, R22 to R24), and the last-level cache: which lines it holds, in which way, with the words that are valid and
those that are dirty (R22, R62, R65). What it holds of a line's bytes is in `State.hbm` with the rest of memory (log 31). -/
namespace Sys2Proof.Machine

/-- Bytes of local HBM (R23). -/
def hbmTop : Nat := 0x18000000000
/-- First address of the decoded window (R24). -/
def viewBase : Nat := 2 ^ 51
def inHbm (dpa : Nat) : Bool := decide (dpa < hbmTop)
def inView (dpa : Nat) : Bool := decide (viewBase ≤ dpa) && decide (dpa < 2 ^ 52)
/-- The die of a local address (R23). -/
def dieOf (dpa : Nat) : Nat := dpa / 0x3000000000
/-- The device home slice of a local address (R14, R23). -/
def homeSlice (dpa : Nat) : Nat :=
  32 * dieOf dpa + (bits dpa 12 8 ^^^ bits dpa 17 13)
/-- The stack of a local address (R23). -/
def stackOf (dpa : Nat) : Nat := 3 * dieOf dpa + (dpa % 0x3000000000 / 4096) % 3

/-! Sets and ways (R22). -/

/-- The slice of a line, and its set there: the spec gives no index (log 31). -/
def llcSet (line : Nat) : Nat × Nat := (homeSlice (64 * line), Config.llcIndex line % 4096)
/-- Ways of a line's die: 14 of 16 under DEC-TED (R447). -/
def State.llcWays (s : State) (line : Nat) : Nat := if (vget s.guide.banks (dieOf (64 * line)) .reset).dected then 14 else 16
/-- The words of a line that n bytes at an address touch. -/
def llcWords (line a n : Nat) : BitVec 16 :=
  BitVec.ofNat 16 ((List.range 16).foldl (fun m k => m + bitAt (decide (a < 64 * line + 4 * k + 4) && decide (64 * line + 4 * k < a + n)) k) 0)
/-- Lines touched by n bytes at an address. -/
def linesAt (a n : Nat) : List Nat := if n = 0 then [] else (List.range ((a + n - 1) / 64 - a / 64 + 1)).map (a / 64 + ·)
def State.llcLine? (s : State) (line : Nat) : Option LlcLine := s.llc.find? (·.line == line)
/-- The part has a dirty word. -/
def LlcLine.dirtyPart (x : LlcLine) (k : Nat) : Bool := bits x.dirty.toNat (4 * k + 3) (4 * k) != 0
def State.llcDirty (s : State) (part : Nat) : Bool := ((s.llcLine? (part / 4)).map fun x => x.dirtyPart (part % 4)).getD false
/-- An access misses: its line is not there, or a word that it reads is not valid (R65). -/
def State.llcMiss (s : State) (line : Nat) (words : BitVec 16) (write : Bool) : Bool :=
  match s.llcLine? line with
  | some x => !write && words &&& ~~~x.valid != 0
  | none => true
/-- A line as an access leaves it: a write makes its words valid and dirty, and a fill for a read makes every word valid (R65). -/
def LlcLine.use (x : LlcLine) (words : BitVec 16) (write : Bool) : LlcLine :=
  if write then { x with valid := x.valid ||| words, dirty := x.dirty ||| words }
  else { x with valid := if words &&& ~~~x.valid = 0 then x.valid else BitVec.allOnes 16 }

/-! Lines that come and go. -/

/-- Lines leave: what is dirty is written back, and a poisoned part stays poisoned in HBM (R446, R449). -/
def State.llcDrop (s : State) (p : LlcLine → Bool) : State :=
  let parts := (s.llc.filter p).flatMap fun x => ((List.range 4).map (4 * x.line + ·)).filter s.llcP.has
  { s with llc := s.llc.filter fun x => !p x, hbmP := parts.foldl (fun l k => l.add k) s.hbmP, llcP := s.llcP.clear parts.contains }
/-- The line that makes room for another, none while a way of its set is free. The spec names no choice: an opaque constant takes it (log 31). -/
def State.llcVictim (s : State) (line : Nat) : Option LlcLine :=
  let ways := s.llcWays line
  if s.llc.length < ways then none
  else
    let mates := s.llc.filter fun x => llcSet x.line == llcSet line
    if mates.length < ways then none else mates.find? fun x => x.way == Config.llcChoice line s.pcyc % ways
/-- The way that it takes. -/
def State.llcWay (s : State) (line : Nat) : Nat :=
  match s.llcVictim line with
  | some x => x.way
  | none => ((List.range (s.llcWays line)).find? fun w => s.llc.all fun x => x.way != w || llcSet x.line != llcSet line).getD 0
/-- An access to words of a line at its home slice. -/
def State.llcTake (s : State) (line : Nat) (words : BitVec 16) (write : Bool) : State :=
  if (s.llcLine? line).isSome then { s with llc := s.llc.map fun x => if x.line = line then x.use words write else x }
  else
    let t := s.llcDrop fun x => (s.llcVictim line).any (·.line == x.line)
    { t with llc := t.llc ++ [({ line := line, way := s.llcWay line, valid := 0, dirty := 0 } : LlcLine).use words write] }
/-- Accesses to the words of n bytes of local HBM; how many lines missed. -/
def State.llcAccess (s : State) (a n : Nat) (write : Bool) : State × Nat :=
  (linesAt a n).foldl (fun (t, k) l => (t.llcTake l (llcWords l a n) write, k + bitAt (t.llcMiss l (llcWords l a n) write) 0)) (s, 0)
/-- A write of n bytes of local HBM. -/
def State.llcWrite (s : State) (a n : Nat) : State := (linesAt a n).foldl (fun t l => t.llcTake l (llcWords l a n) true) s

end Sys2Proof.Machine
end

