-- ==== Sys2Proof/Machine/Numbers.lean ====
section
/-! DEFINITION. Chapter 2 of the spec: floating-point formats, rounding, conversions and stochastic rounding (R33 to R42).
A value is exact until one explicit rounding function narrows it (R10). -/
namespace Sys2Proof.Machine

/-- The floating-point formats of Table 2-1. -/
inductive FpF where
  | f32 | f16 | bf16 | e4m3 | e5m2
deriving DecidableEq, Repr

/-- An exact value: NaN, an infinity, or (-1)^neg * m * 2^e (R33). A zero keeps its sign. -/
inductive Fp where
  | nan
  | inf (neg : Bool)
  | fin (neg : Bool) (m : Nat) (e : Int)
deriving DecidableEq, Repr

/-- The rounding modes of R38. -/
inductive Rm where
  | rne | rz | ru | rd
deriving DecidableEq, Repr

/-- RM's encodings (R38). -/
def Rm.ofBits (n : Nat) : Rm :=
  match n % 4 with
  | 0 => .rne
  | 1 => .rz
  | 2 => .ru
  | _ => .rd

/-- Flags as they stand in NCSR (Table 2-3). -/
def flagNX : Nat := 8
def flagUF : Nat := 16
def flagOF : Nat := 32
def flagDZ : Nat := 64
def flagNV : Nat := 128
def flagQSAT : Nat := 256

/-- Mantissa bits of a format (Table 2-1). -/
def FpF.mant : FpF → Nat
  | .f32 => 23 | .f16 => 10 | .bf16 => 7 | .e4m3 => 3 | .e5m2 => 2
/-- Exponent bits of a format. -/
def FpF.expb : FpF → Nat
  | .f32 => 8 | .f16 => 5 | .bf16 => 8 | .e4m3 => 4 | .e5m2 => 5
/-- Exponent bias of a format. -/
def FpF.bias : FpF → Nat
  | .f32 => 127 | .f16 => 15 | .bf16 => 127 | .e4m3 => 7 | .e5m2 => 15
/-- Width of a format in bits. -/
def FpF.width (f : FpF) : Nat := 1 + f.expb + f.mant
/-- The canonical NaN (Table 2-1, R35). -/
def FpF.cnan : FpF → Nat
  | .f32 => 0x7FC00000 | .f16 => 0x7E00 | .bf16 => 0x7FC0 | .e4m3 => 0x7F | .e5m2 => 0x7E
/-- The code of the largest finite magnitude, without sign (Table 2-1). -/
def FpF.maxFin : FpF → Nat
  | .f32 => 0x7F7FFFFF | .f16 => 0x7BFF | .bf16 => 0x7F7F | .e4m3 => 0x7E | .e5m2 => 0x7B
/-- The code of infinity without sign; E4M3 has none and saturates (R33, Table 2-4). -/
def FpF.infCode : FpF → Nat
  | .f32 => 0x7F800000 | .f16 => 0x7C00 | .bf16 => 0x7F80 | .e4m3 => 0x7E | .e5m2 => 0x7C
/-- The sign bit of a format as a number. -/
def FpF.signBit (f : FpF) (neg : Bool) : Nat := if neg then 2 ^ (f.width - 1) else 0

/-- R33: the exact value of a code. -/
def Fp.decode (f : FpF) (x : Nat) : Fp :=
  let neg := x.testBit (f.width - 1)
  let m := x % 2 ^ f.mant
  let e := x / 2 ^ f.mant % 2 ^ f.expb
  if e = 0 then .fin neg m (1 - (f.bias : Int) - f.mant)
  else if e = 2 ^ f.expb - 1 ∧ f ≠ .e4m3 then (if m = 0 then .inf neg else .nan)
  else if e = 15 ∧ f = .e4m3 ∧ m = 7 then .nan
  else .fin neg (2 ^ f.mant + m) ((e : Int) - f.bias - f.mant)

/-- The floor of log2 of m * 2^e for a non-zero m. -/
def log2Of (m : Nat) (e : Int) : Int := (Nat.log2 m : Int) + e

/-- A code with the flags its rounding set. -/
structure Rounded where
  bits : Nat
  flags : Nat := 0
deriving DecidableEq, Repr

/-- m * 2^e as a count of units 2^q: the floor, and the numerator and denominator of what is left below one unit. -/
def toUnits (m : Nat) (e q : Int) : Nat × Nat × Nat :=
  if q ≤ e then (m * 2 ^ (e - q).toNat, 0, 1)
  else (m / 2 ^ (q - e).toNat, m % 2 ^ (q - e).toNat, 2 ^ (q - e).toNat)

/-- Whether the magnitude n + rem/den is rounded up by a mode (R10). -/
def roundUp (rm : Rm) (neg : Bool) (n rem den : Nat) : Bool :=
  if rem = 0 then false
  else match rm with
    | .rne => decide (den < 2 * rem) || (decide (den = 2 * rem) && n % 2 == 1)
    | .rz => false
    | .ru => !neg
    | .rd => neg

/-- The overflow result of Table 2-4. -/
def overflowCode (f : FpF) (rm : Rm) (neg : Bool) : Nat :=
  f.signBit neg + match rm with
    | .rne => f.infCode
    | .rz => f.maxFin
    | .ru => if neg then f.maxFin else f.infCode
    | .rd => if neg then f.infCode else f.maxFin

/-- The exponent of one unit in the last place of m * 2^e in a format, subnormals kept (R34). -/
def ulpExp (f : FpF) (m : Nat) (e : Int) : Int := max (log2Of m e) (1 - (f.bias : Int)) - f.mant

/-- The code of n units of 2^q, where q is a format's unit exponent for that magnitude. -/
def packUnits (f : FpF) (n : Nat) (q : Int) : Nat :=
  (q - (1 - (f.bias : Int) - f.mant)).toNat * 2 ^ f.mant + n

/-- R41 and Table 2-4: one rounding of an exact value into a format, with its flags (R40). -/
def roundFp (f : FpF) (rm : Rm) : Fp → Rounded
  | .nan => ⟨f.cnan, 0⟩
  | .inf neg => if f = .e4m3 then ⟨f.signBit neg + f.maxFin, flagOF + flagNX⟩ else ⟨f.signBit neg + f.infCode, 0⟩
  | .fin neg m e =>
    if m = 0 then ⟨f.signBit neg, 0⟩
    else
      let q := ulpExp f m e
      let u := toUnits m e q
      let n := if roundUp rm neg u.1 u.2.1 u.2.2 then u.1 + 1 else u.1
      let code := packUnits f n q
      if f.maxFin < code then ⟨overflowCode f rm neg, flagOF + flagNX⟩
      else if u.2.1 = 0 then ⟨f.signBit neg + code, 0⟩
      else ⟨f.signBit neg + code, flagNX + (if code < 2 ^ f.mant then flagUF else 0)⟩

/-- R42: stochastic rounding into a floating-point format with the random bits b. -/
def roundStoch (f : FpF) (b : Nat) : Fp → Rounded
  | .fin neg m e =>
    if m = 0 then ⟨f.signBit neg, 0⟩
    else
      let q := ulpExp f m e
      let u := toUnits m e q
      let n := if u.2.1 ≠ 0 ∧ b < 2 ^ 16 * u.2.1 / u.2.2 then u.1 + 1 else u.1
      let code := packUnits f n q
      if f.maxFin < code then ⟨f.signBit neg + f.maxFin, flagOF + flagNX⟩
      else if u.2.1 = 0 then ⟨f.signBit neg + code, 0⟩
      else ⟨f.signBit neg + code, flagNX + (if code < 2 ^ f.mant then flagUF else 0)⟩
  | v => roundFp f .rz v

/-- The range of an integer format of `w` bits (Table 2-2). -/
def intLo (sgn : Bool) (w : Nat) : Int := if sgn then -(2 ^ (w - 1) : Int) else 0
def intHi (sgn : Bool) (w : Nat) : Int := if sgn then 2 ^ (w - 1) - 1 else 2 ^ w - 1

/-- Saturation of an exact integer to a range, with NV when it saturates (Table 2-4). -/
def satInt (sgn : Bool) (w : Nat) (x : Int) (fl : Nat) : Int × Nat :=
  if x < intLo sgn w then (intLo sgn w, flagNV)
  else if intHi sgn w < x then (intHi sgn w, flagNV)
  else (x, fl)

/-- A signed integer from a sign and a magnitude. -/
def signed (neg : Bool) (n : Nat) : Int := if neg then -(n : Int) else n

/-- R41 and Table 2-4: conversion of an exact value to an integer. -/
def roundInt (sgn : Bool) (w : Nat) (rm : Rm) : Fp → Int × Nat
  | .nan => (0, flagNV)
  | .inf neg => (if neg then intLo sgn w else intHi sgn w, flagNV)
  | .fin neg m e =>
    let u := toUnits m e 0
    let n := if roundUp rm neg u.1 u.2.1 u.2.2 then u.1 + 1 else u.1
    satInt sgn w (signed neg n) (if u.2.1 = 0 then 0 else flagNX)

/-- R42 for an integer destination. -/
def roundIntStoch (sgn : Bool) (w : Nat) (b : Nat) : Fp → Int × Nat
  | .fin neg m e =>
    let u := toUnits m e 0
    let n := if u.2.1 ≠ 0 ∧ b < 2 ^ 16 * u.2.1 / u.2.2 then u.1 + 1 else u.1
    satInt sgn w (signed neg n) (if u.2.1 = 0 then 0 else flagNX)
  | v => roundInt sgn w .rz v

/-- The exact value of an integer. -/
def Fp.ofInt (x : Int) : Fp := .fin (decide (x < 0)) x.natAbs 0

/-- The two magnitudes of a pair of finite values over one unit, signed. -/
def commonUnits (n1 : Bool) (m1 : Nat) (e1 : Int) (n2 : Bool) (m2 : Nat) (e2 : Int) : Int × Int × Int :=
  let q := min e1 e2
  (signed n1 (m1 * 2 ^ (e1 - q).toNat), signed n2 (m2 * 2 ^ (e2 - q).toNat), q)

/-- The exact sum. An exact zero from operands of unlike sign is +0, or -0 toward minus infinity, as IEEE 754 gives. -/
def Fp.add (rm : Rm) : Fp → Fp → Fp
  | .nan, _ => .nan
  | _, .nan => .nan
  | .inf a, .inf b => if a = b then .inf a else .nan
  | .inf a, .fin _ _ _ => .inf a
  | .fin _ _ _, .inf b => .inf b
  | .fin n1 m1 e1, .fin n2 m2 e2 =>
    let u := commonUnits n1 m1 e1 n2 m2 e2
    let x := u.1 + u.2.1
    if x = 0 then (if n1 = n2 then .fin n1 0 0 else .fin (decide (rm = .rd)) 0 0)
    else .fin (decide (x < 0)) x.natAbs u.2.2

/-- The exact product; zero times infinity is NaN. -/
def Fp.mul : Fp → Fp → Fp
  | .nan, _ => .nan
  | _, .nan => .nan
  | .inf a, .inf b => .inf (a != b)
  | .inf a, .fin n m _ => if m = 0 then .nan else .inf (a != n)
  | .fin n m _, .inf b => if m = 0 then .nan else .inf (n != b)
  | .fin n1 m1 e1, .fin n2 m2 e2 => .fin (n1 != n2) (m1 * m2) (e1 + e2)

/-- Sign change of a value that is not NaN. -/
def Fp.neg : Fp → Fp
  | .nan => .nan
  | .inf a => .inf (!a)
  | .fin n m e => .fin (!n) m e

/-- Magnitude of a value. -/
def Fp.abs : Fp → Fp
  | .nan => .nan
  | .inf _ => .inf false
  | .fin _ m e => .fin false m e

def Fp.isNan : Fp → Bool
  | .nan => true
  | _ => false

def Fp.isInf : Fp → Bool
  | .inf _ => true
  | _ => false

def Fp.isZero : Fp → Bool
  | .fin _ m _ => m == 0
  | _ => false

def Fp.isNeg : Fp → Bool
  | .nan => false
  | .inf n => n
  | .fin n _ _ => n

/-- Strictly less, false when either is NaN; the two zeros are equal. -/
def Fp.lt : Fp → Fp → Bool
  | .nan, _ => false
  | _, .nan => false
  | .inf a, .inf b => a && !b
  | .inf a, .fin _ _ _ => a
  | .fin _ _ _, .inf b => !b
  | .fin n1 m1 e1, .fin n2 m2 e2 =>
    let u := commonUnits n1 m1 e1 n2 m2 e2
    decide (u.1 < u.2.1)

/-- Equal as numbers, false when either is NaN. -/
def Fp.eq (a b : Fp) : Bool := !a.isNan && !b.isNan && !a.lt b && !b.lt a

/-- NV of R40: a NaN made from operands none of which is NaN. -/
def nvIfNew (r : Fp) (ops : List Fp) : Nat := if r.isNan && !ops.any Fp.isNan then flagNV else 0

/-- A result rounded once, with NV when it is a new NaN. -/
def finish (f : FpF) (rm : Rm) (r : Fp) (ops : List Fp) : Rounded :=
  let x := roundFp f rm r
  ⟨x.bits, x.flags ||| nvIfNew r ops⟩

end Sys2Proof.Machine
end

