-- ==== Sys2Proof/Machine/Qc4.lean ====
section
/-! DEFINITION. QC4 (R43 to R47) and the numerics profiles' folds (R51 to R54). -/
namespace Sys2Proof.Machine

/-- Table 2-5: magnitudes of the positive codes 8 to 15. -/
def qcMag : List Nat := [1379, 4172, 7076, 10184, 13656, 17760, 23184, 32768]

/-- q(c) of R43, an integer over 32768. -/
def qcQ (c : Nat) : Int :=
  if 8 ≤ c % 16 then (qcMag.getD (c % 16 - 8) 0 : Int) else -(qcMag.getD (7 - c % 16) 0 : Int)

/-- Table 2-6. -/
def qcT : List Nat := [0x3F800000, 0x3F8B95C2, 0x3F9837F0, 0x3FA5FED7, 0x3FB504F3, 0x3FC5672A, 0x3FD744FD, 0x3FEAC0C7]

/-- Multiplication by a power of two. -/
def Fp.scale (k : Int) : Fp → Fp
  | .nan => .nan
  | .inf n => .inf n
  | .fin n m e => .fin n m (e + k)

/-- Value of an FP32 rounding by rne. -/
def rneF32 (v : Fp) : Fp := Fp.decode .f32 (roundFp .f32 .rne v).bits

/-- R45: the block scale of scale code s under the superscale with FP32 code sup. -/
def blockScale (s sup : Nat) : Fp :=
  if s % 256 = 0 then .fin false 0 0
  else
    let x := s % 256
    let e : Int := (x / 8 : Nat) - 16
    let j := x % 8
    rneF32 ((rneF32 (Fp.mul (Fp.decode .f32 sup) (Fp.decode .f32 (qcT.getD j 0)))).scale e)

/-- The exact value q(c)/32768. -/
def qcVal (c : Nat) : Fp := (Fp.ofInt (qcQ c)).scale (-15)

/-- R46: an element of code c in a block of scale code s decoded into a format. -/
def qcDecode (f : FpF) (s sup c : Nat) : Nat :=
  if s % 256 = 0 then 0 else (roundFp f .rne (Fp.mul (blockScale s sup) (qcVal c))).bits

/-- |x| > sigma as R47 compares; an infinite source counts as exceeding it, a NaN never does. -/
def qcExceeds (sigma x : Fp) : Bool :=
  match x with
  | .nan => false
  | .inf _ => true
  | .fin _ _ _ => sigma.lt x.abs

/-- R47's search for the scale code: (s, saturated). -/
def qcSearch (sup : Nat) (xs : List Fp) : Nat → Nat → Nat × Bool
  | 0, s => (s, xs.any (qcExceeds (blockScale s sup)))
  | tries + 1, s =>
    if xs.any (qcExceeds (blockScale s sup)) then
      if s = 255 then (s, true) else qcSearch sup xs tries (s + 1)
    else (s, false)

/-- The exact distance |x - sigma * q(c)/32768| of R47. -/
def qcDist (sigma x : Fp) (c : Nat) : Fp := (Fp.add .rne x (Fp.mul sigma (qcVal c)).neg).abs

/-- Codes in the order in which a tie is settled: smaller magnitude first (R47). -/
def qcOrder : List Nat := [8, 7, 9, 6, 10, 5, 11, 4, 12, 3, 13, 2, 14, 1, 15, 0]

/-- The nearest code of R47. -/
def qcNearest (sigma x : Fp) : Nat :=
  qcOrder.foldl (fun best c => if (qcDist sigma x c).lt (qcDist sigma x best) then c else best) 8

/-- R47: the code of one source element, for the sigma on which the loop exits. -/
def qcCode (sigma x : Fp) (sat : Bool) : Nat :=
  match x with
  | .nan => 8
  | .inf n => if n then 0 else 15
  | .fin n m _ =>
    if m = 0 then (if n then 7 else 8)
    else match sigma with
      | .fin _ _ _ => if sat && sigma.lt x.abs then (if n then 0 else 15) else qcNearest sigma x
      | _ => if n then 7 else 8

/-- R47: one block. Result: scale code, codes, flags. -/
def quantise (sup s0 : Nat) (xs : List Fp) : Nat × List Nat × Nat :=
  if xs.all Fp.isZero then (0, xs.map (fun _ => 8), 0)
  else
    let r := qcSearch sup xs 3 (max s0 1)
    let sigma := blockScale r.1 sup
    (r.1, xs.map (fun x => qcCode sigma x r.2),
      (if r.2 then flagQSAT else 0) ||| (if xs.any Fp.isNan then flagNV else 0))

/-! Folds of one group of products into an accumulator (R51 to R54). -/

/-- IEEE sum of the non-finite products of a group (R52). -/
def nonFiniteSum (ps : List Fp) : Fp :=
  (ps.filter (fun p => p.isNan || p.isInf)).foldl (fun acc p =>
    match acc with
    | none => some p
    | some a => some (Fp.add .rne a p)) none |>.getD .nan

/-- R52: the windowed sum g of a group of finite products, truncated `win` binades below the largest. -/
def windowSum (win : Int) (ps : List Fp) : Fp :=
  let es := ps.filterMap (fun p => match p with
    | .fin _ m e => if m = 0 then none else some (log2Of m e)
    | _ => none)
  match es with
  | [] => .fin false 0 0
  | e0 :: rest =>
    let G := rest.foldl max e0 - win
    let Q := ps.foldl (fun acc p => match p with
      | .fin n m e => acc + signed n (toUnits m e G).1
      | _ => acc) (0 : Int)
    if Q = 0 then .fin false 0 0 else .fin (decide (Q < 0)) Q.natAbs G

/-- Profiles 1 and 2 (R52). -/
def foldWindow (win : Int) (acc : Nat) (ps : List Fp) : Nat :=
  let g := if ps.any (fun p => p.isNan || p.isInf) then nonFiniteSum ps else windowSum win ps
  (roundFp .f32 .rne (Fp.add .rne (Fp.decode .f32 acc) g)).bits

/-- Profile 0 (Table 2-7). -/
def foldFused (acc : Nat) (p : Fp) : Nat :=
  (roundFp .f32 .rne (Fp.add .rne (Fp.decode .f32 acc) p)).bits

/-- Profile 4 (R53): the pair sum is exact, and the non-finite rule of R52 applies to the pair. -/
def foldPair (acc : Nat) (p0 p1 : Fp) : Nat :=
  let g := if p0.isNan || p0.isInf || p1.isNan || p1.isInf then nonFiniteSum [p0, p1] else Fp.add .rne p0 p1
  (roundFp .f32 .rne (Fp.add .rne (Fp.decode .f32 acc) g)).bits

/-- Profile 3 (Table 2-7). -/
def foldInt (acc : Nat) (ps : List (Int × Int)) : Nat :=
  (((acc : Int) + ps.foldl (fun (s : Int) (p : Int × Int) => s + p.1 * p.2) 0) % 2 ^ 32).toNat

/-- R54: v of one block, from the exact integer sum, the shift and sigma; an exact zero is +0. -/
def blockValue (nanIn : Bool) (I : Int) (shift : Nat) (sigma : Fp) : Fp :=
  if nanIn then .nan
  else match Fp.mul ((Fp.ofInt I).scale (-(shift : Int))) sigma with
    | .fin _ 0 _ => .fin false 0 0
    | v => v

/-- Profile 5 (R54): the fold of one block. -/
def foldBlock (acc : Nat) (v : Fp) : Nat :=
  (roundFp .f32 .rne (Fp.add .rne (Fp.decode .f32 acc) v)).bits

end Sys2Proof.Machine
end

