-- ==== Sys2Proof/Machine/Translate.lean ====
section
/-! DEFINITION. Chapter 16 of the spec: the two-stage walk, permissions, remote windows and decoded views (R394 to R418),
and reads and writes of translated bytes with taint and poison (R59, R449). -/
namespace Sys2Proof.Machine

/-- The bytes k further on. -/
def Phys.add (p : Phys) (k : Nat) : Phys :=
  match p with
  | .hbm d l => .hbm (d + k) l
  | .view d => .view (d + k)
  | .peer dev a => .peer dev (a + k)
  | .host a => .host (a + k)

/-- Keys of remote bytes: the host's addresses, then each peer's. -/
def hostKey (a : Nat) : Nat := a
def peerKey (dev a : Nat) : Nat := (dev + 1) * 2 ^ 65 + a
def State.remoteGet (s : State) (k : Nat) : Byte := (aget? s.remote k).getD (Config.remoteByte k)

/-! Decoded views (R416 to R418). -/

/-- Expansion factor of a format (Table 16-9). -/
def fmtX (fmt : Nat) : Nat := if fmt = 2 then 4 else 2
/-- Width in bytes of a decoded element. -/
def fmtW (fmt : Nat) : Nat := if fmt = 1 then 1 else 2
/-- The enabled range whose decoded span holds an address. -/
def State.rangeAt (s : State) (dpa : Nat) : Option FmtRange :=
  s.guide.ranges.toList.find? fun r =>
    r.fmt != 0 && decide (viewBase + r.base ≤ dpa) && decide (dpa < viewBase + r.base + fmtX r.fmt * r.size)
/-- Raw addresses that element e of a range reads: its source byte, and scale code and superscale for QC4 (R417). -/
def rawOf (r : FmtRange) (e : Nat) : List Nat :=
  if r.fmt = 1 ∨ r.fmt = 2 then
    let rec0 := r.scale + 260 * (e / 16384)
    [r.base + e / 2, rec0 + 4 + e / 64 % 256, rec0, rec0 + 1, rec0 + 2, rec0 + 3]
  else [r.base + e]
/-- R417: the code of element e. -/
def State.viewElem (s : State) (r : FmtRange) (e : Nat) : Nat :=
  if r.fmt = 1 ∨ r.fmt = 2 then
    let c := (s.hbm.get (r.base + e / 2)).toNat / (if e % 2 = 0 then 1 else 16) % 16
    let rec0 := r.scale + 260 * (e / 16384)
    let sc := (s.hbm.get (rec0 + 4 + e / 64 % 256)).toNat
    qcDecode (if r.fmt = 1 then .e4m3 else .bf16) sc (leNat (s.hbm.read rec0 4)) c
  else
    (roundFp .bf16 .rne (Fp.decode (if r.fmt = 3 then .e4m3 else .e5m2) (s.hbm.get (r.base + e)).toNat)).bits
/-- The raw byte holding the first element of a decoded line, whose home slice fills it (R417). -/
def State.viewRaw (s : State) (dpa : Nat) : Nat :=
  match s.rangeAt dpa with
  | some r => (rawOf r ((dpa / 64 * 64 - viewBase - r.base) / fmtW r.fmt)).headD 0
  | none => 0
def State.viewByte (s : State) (dpa : Nat) : Byte :=
  match s.rangeAt dpa with
  | some r =>
    let t := dpa - viewBase - r.base
    BitVec.ofNat 8 (s.viewElem r (t / fmtW r.fmt) / 2 ^ (8 * (t % fmtW r.fmt)))
  | none => 0
/-- Raw and scale parts that a decoded part reads. -/
def State.viewParts (s : State) (dpa : Nat) : List Nat :=
  match s.rangeAt dpa with
  | some r =>
    let t := dpa / 16 * 16 - viewBase - r.base
    (List.range (16 / fmtW r.fmt)).flatMap fun k => (rawOf r (t / fmtW r.fmt + k)).map (· / 16)
  | none => []

/-! Reads and writes of translated bytes. -/

def State.physByte (s : State) : Phys → Byte
  | .hbm d _ => s.hbm.get d
  | .view d => s.viewByte d
  | .peer dev a => s.remoteGet (peerKey dev a)
  | .host a => s.remoteGet (hostKey a)
/-- Taint of a part of a peer's memory: as the peer held it until it is written here (log 5). -/
def State.peerTaint (s : State) (part : Nat) : Bool := s.remoteT.has part != Config.remoteTaint part
def State.setPeerTaint (s : State) (part : Nat) (t : Bool) : State := { s with remoteT := s.remoteT.mk part (t != Config.remoteTaint part) }
/-- n bytes at consecutive addresses of one mapping. -/
def State.physRead (s : State) (p : Phys) (n : Nat) : List Byte := (List.range n).map fun k => s.physByte (p.add k)
/-- Taint of the part that holds a byte (R56, R417); host memory has none. -/
def State.physTaint1 (s : State) : Phys → Bool
  | .hbm d _ => s.hbmT.has (d / 16)
  | .view d => (s.viewParts d).any s.hbmT.has
  | .peer dev a => s.peerTaint (peerKey dev a / 16)
  | .host _ => false
/-- Parts touched by n bytes from an offset, as offsets of one byte in each. -/
def partOffsets (a n : Nat) : List Nat :=
  if n = 0 then [] else (List.range ((a + n - 1) / 16 - a / 16 + 1)).map fun k => if k = 0 then 0 else (a / 16 + k) * 16 - a
def Phys.low : Phys → Nat
  | .hbm d _ => d
  | .view d => d
  | .peer _ a => a
  | .host a => a
def State.physTaint (s : State) (p : Phys) (n : Nat) : Bool := (partOffsets p.low n).any fun k => s.physTaint1 (p.add k)
/-- The cause a consumer of a byte's part meets: 32 or 33 for poison (R446, R449), or 0. -/
def State.physPoison1 (s : State) (p : Phys) : Nat :=
  let parts := match p with
    | .hbm d _ => [d / 16]
    | .view d => s.viewParts d
    | _ => []
  if parts.any s.hbmP.has then 32 else if parts.any s.llcP.has then 33 else 0
def State.physPoison (s : State) (p : Phys) (n : Nat) : Nat :=
  (partOffsets p.low n).foldl (fun acc k => if acc ≠ 0 then acc else s.physPoison1 (p.add k)) 0

/-- The leaf of a place that no walk gave: no descriptor stands there. -/
def noLeaf : Nat := hbmTop
/-- R415: D is set in the leaf before a tracked write. -/
def State.setDirty (s : State) (cxn leaf : Nat) : State :=
  if (s.ctx cxn).track ∧ inHbm leaf then ({ s with hbm := s.hbm.set leaf (s.hbm.get leaf ||| 0x80) } : State).llcWrite leaf 1 else s

/-- R59: the taint of a part after n bytes from offset o of it were written. -/
def partTaint (old : Bool) (whole any_ : Bool) : Bool := if whole then any_ else old || any_

/-- One part's share of a write: taint by R59, and a whole write clears poison (R449). -/
def State.touchPart (s : State) (part : Nat) (whole any_ : Bool) : State :=
  { s with hbmT := s.hbmT.mk part (partTaint (s.hbmT.has part) whole any_)
           hbmP := if whole then s.hbmP.del part else s.hbmP
           llcP := if whole then s.llcP.del part else s.llcP }

/-- Taint of the bytes of a write that fall into a part, and whether they fill it. -/
def partShare (a : Nat) (bs : List (Byte × Bool)) (part : Nat) : Bool × Bool :=
  let inP := fun k => decide (a + k < 16 * part + 16) && decide (16 * part ≤ a + k)
  let l := ((List.range bs.length).zip bs).filter fun x => inP x.1
  (decide (l.length = 16), l.any fun x => x.2.2)

/-- Bytes kept for a remote owner. -/
def remoteWrite (r : List (Nat × Byte)) : Nat → List (Byte × Bool) → List (Nat × Byte)
  | _, [] => r
  | k, (b, _) :: bs => remoteWrite (aset r k b) (k + 1) bs

/-- Bytes with taint written at a translated address, performed at its point of coherence. Mixed-size tags of covered parts
are kept by their own rule (R80). Host memory drops taint (R56); a write to it or to a peer leaves the device. -/
def State.physWrite (s : State) (cxn : Nat) (p : Phys) (bs : List (Byte × Bool)) : State :=
  match p with
  | .hbm d leaf =>
    let s0 := s.setDirty cxn leaf
    let s1 := { s0 with hbm := s0.hbm.write d (bs.map Prod.fst) }
    (partOffsets d bs.length).foldl (fun t k =>
      let sh := partShare d bs ((d + k) / 16)
      t.touchPart ((d + k) / 16) sh.1 sh.2) s1 |>.llcWrite d bs.length
  | .view _ => s
  | .peer dev a =>
    let k0 := peerKey dev a
    let s1 := { s with remote := remoteWrite s.remote k0 bs }
    let s2 := (partOffsets k0 bs.length).foldl (fun t k =>
      let sh := partShare k0 bs ((k0 + k) / 16)
      t.setPeerTaint ((k0 + k) / 16) (partTaint (t.peerTaint ((k0 + k) / 16)) sh.1 sh.2)) s1
    s2.send (.peerWrite dev (s.ctx cxn).dcn.toNat a bs)
  | .host a =>
    ({ s with remote := remoteWrite s.remote (hostKey a) bs }).send
      (.hostWrite (s.ctx cxn).vf a (bs.map Prod.fst))

/-! The walk (R395 to R399). -/

/-- What an access requires (Table 16-3), with its ACC code (Table 16-7). -/
structure Access where
  acc : Nat
  s1w : Bool := false
  s1x : Bool := false
  r : Bool := false
  w : Bool := false
  x : Bool := false
  /-- TGT 3 allowed: XFETCH, XFETCH.TRY, XPREF. -/
  fetchOk : Bool := false
deriving DecidableEq, Repr

def accLoad : Access := { acc := 0, r := true }
def accStore : Access := { acc := 1, s1w := true, w := true }
def accFetch : Access := { acc := 2, s1x := true, r := true, x := true }
def accStrongLoad : Access := { acc := 3, r := true }
def accStrongStore : Access := { acc := 3, s1w := true, w := true }
def accAtomic : Access := { acc := 3, s1w := true, r := true, w := true }
def accCopyRead : Access := { acc := 4, r := true }
def accCopyWrite : Access := { acc := 5, s1w := true, w := true }
def accXfetch : Access := { acc := 4, r := true, fetchOk := true }
def accSpill : Access := { acc := 6, s1w := true, w := true }
def accFill : Access := { acc := 6, r := true }
def accAdmission : Access := { acc := 7, r := true }
def accRing (write : Bool) : Access := { acc := 8, s1w := write, r := !write, w := write }
def accTable : Access := { acc := 0, r := true }

/-- A stage-2 leaf with where it was found. -/
structure Leaf where
  out : Nat
  val : Nat
  addr : Nat
  level : Nat
deriving DecidableEq, Repr

/-- How a walk of stage 2 ends. -/
inductive S2 where
  | leaf (l : Leaf)
  | fault (reason level : Nat)
  /-- A descriptor outside local HBM (R399). -/
  | outside
  /-- A descriptor that reads poisoned, at its address (R449). -/
  | poison (dpa : Nat)
deriving DecidableEq, Repr

/-- log2 of the mapping size of a level (Table 16-1). -/
def levelShift (lvl : Nat) : Nat := match lvl with
  | 0 => 42
  | 1 => 29
  | _ => 16

/-- A descriptor: none outside local HBM, and whether it is poisoned. -/
def State.desc (s : State) (a : Nat) : Option (Nat × Bool) :=
  if inHbm a then some (leNat (s.hbm.read a 8), s.physPoison1 (.hbm a 0) != 0) else none

/-- R397's s2: `n` levels are left, `dir` a directory has been passed. -/
def State.s2walk (s : State) (gen ipa : Nat) : Nat → Nat → Bool → S2
  | 0, _, _ => .fault 1 2
  | n + 1, t, dir =>
    let lvl := 2 - n
    match s.desc (t + 8 * (ipa / 2 ^ levelShift lvl % (if lvl = 0 then 1024 else 8192))) with
    | none => .outside
    | some (_, true) => .poison (t + 8 * (ipa / 2 ^ levelShift lvl % (if lvl = 0 then 1024 else 8192)))
    | some (e, false) =>
      let a := t + 8 * (ipa / 2 ^ levelShift lvl % (if lvl = 0 then 1024 else 8192))
      let useDir := decide (e % 4 = 3) && decide (lvl < 2) && !dir
      let go := fun (e : Nat) (a : Nat) (dir : Bool) =>
        if dir && decide (e % 4 ≠ 0) && decide (bits e 15 8 ≠ gen) then S2.fault 3 lvl
        else if e % 4 = 1 then
          .leaf ⟨bits e 51 16 * 2 ^ 16 / 2 ^ levelShift lvl * 2 ^ levelShift lvl + ipa % 2 ^ levelShift lvl, e, a, lvl⟩
        else if e % 4 = 0 then .fault 0 lvl
        else if e % 4 = 2 ∧ lvl < 2 then s.s2walk gen ipa n (bits e 51 16 * 2 ^ 16) dir
        else .fault 1 lvl
      if useDir then
        let f := bits e 51 16 * 2 ^ 16 + 8 * gen
        match s.desc f with
        | none => .outside
        | some (_, true) => .poison f
        | some (e2, false) => if e2 % 4 ≠ 2 then .fault 2 lvl else go e2 f true
      else if e % 4 = 3 then .fault 1 lvl
      else go e a dir

def State.s2 (s : State) (cxn gen ipa : Nat) : S2 := s.s2walk gen ipa 3 (s.ctx cxn).s2root false

def Leaf.tgt (l : Leaf) : Nat := bits l.val 3 2
def Leaf.r (l : Leaf) : Bool := nbit l.val 4
def Leaf.w (l : Leaf) : Bool := nbit l.val 5
def Leaf.x (l : Leaf) : Bool := nbit l.val 6
def Leaf.win (l : Leaf) : Nat := bits l.val 63 58

/-- R409: what names an absent-fetchable page: the frame in its leaf, and the leaf. -/
def Leaf.tierKey (l : Leaf) : Nat := l.out / 65536 + 2 ^ 40 * l.addr
/-- The frame of a page so named. -/
def tierFrame (key : Nat) : Nat := key % 2 ^ 40

/-- How a translation ends. -/
inductive Tr where
  /-- Where the byte is, with DET of its page, TGT and the leaf. -/
  | ok (p : Phys) (det : Bool) (ipa : Nat) (l : Leaf)
  /-- A cause with no record, or with the record of a stage-2 fault (R411). -/
  | fault (cause : Nat) (rec : Option FaultRec)
  /-- A poisoned descriptor, at its address, parks the context (R449). -/
  | poison (dpa : Nat)
deriving DecidableEq, Repr

/-- A stage-2 fault record before its issuer is filled in. -/
def mkRec (va ipa acc level : Nat) (walk : Bool) (reason gen : Nat) : FaultRec :=
  { va := va, ipa := ipa, handle := 0, gidx := 0, ord := 0, strm := 0, qt := false, acc := acc, level := level, walk := walk,
    reason := reason, gen := gen, q := 0 }

/-- How stage 1 ends: IPA with W, X, DET. -/
inductive S1 where
  | ok (ipa : Nat) (w x det : Bool)
  | fault (cause : Nat) (rec : Option FaultRec)
  | poison (dpa : Nat)
deriving DecidableEq, Repr

/-- R397: stage 1, whose table reads are themselves translated (R399); `n` levels are left. -/
def State.s1walk (s : State) (cxn gen va acc : Nat) : Nat → Nat → S1
  | 0, _ => .fault 16 none
  | n + 1, t =>
    let lvl := 2 - n
    let ti := t + 8 * (va / 2 ^ levelShift lvl % 8192)
    match s.s2 cxn gen ti with
    | .fault r l => .fault 17 (some (mkRec va ti acc l true r gen))
    | .outside => .fault 19 none
    | .poison d => .poison d
    | .leaf l =>
      if (l.tgt ≠ 0 ∧ l.tgt ≠ 3) ∨ !inHbm l.out ∨ !l.r then .fault 19 none
      else if l.tgt = 3 then .fault 20 none
      else
        match s.desc l.out with
        | none => .fault 19 none
        | some (_, true) => .poison l.out
        | some (e, false) =>
          if e % 4 = 1 then
            .ok (bits e 51 16 * 2 ^ 16 / 2 ^ levelShift lvl * 2 ^ levelShift lvl + va % 2 ^ levelShift lvl)
              (nbit e 2) (nbit e 3) (nbit e 4)
          else if e % 4 = 2 ∧ lvl < 2 then s.s1walk cxn gen va acc n (bits e 51 16 * 2 ^ 16)
          else .fault 16 none

def State.s1 (s : State) (cxn gen va acc : Nat) : S1 :=
  let root := (s.ctx cxn).s1root.toNat
  if root % 2 = 0 then
    (if va / 2 ^ 52 = 0 then .ok va true true false else .fault 16 none)
  else s.s1walk cxn gen va acc 3 (bits root 51 16 * 2 ^ 16)

/-- The remote window a leaf names (R404): valid, kind, device, base. -/
def Ctx.window (c : Ctx) (k : Nat) : Bool × Nat × Nat × Nat :=
  let e := ((aget? c.wins k).getD 0).toNat
  (nbit e 0, bits e 1 1, bits e 15 2, e / 2 ^ 64)

/-- Where a leaf's byte lives; none when its window does not serve (R404). -/
def State.place (s : State) (cxn : Nat) (l : Leaf) : Option Phys :=
  let w := (s.ctx cxn).window l.win
  match l.tgt with
  | 0 => some (if inView l.out then .view l.out else .hbm l.out l.addr)
  | 1 => if w.1 ∧ w.2.1 = 0 then some (.peer w.2.2.1 ((w.2.2.2 + l.out) % 2 ^ 64)) else none
  | 2 => if w.1 ∧ w.2.1 = 1 then some (.host ((w.2.2.2 + l.out) % 2 ^ 64)) else none
  | _ => if w.1 then some (.hbm l.out l.addr) else none

/-- R397, R398, R404, R418: the whole translation of one address; the lowest cause is delivered (R11). -/
def State.translate (s : State) (cxn gen va : Nat) (k : Access) : Tr :=
  if 2 ^ 55 ≤ va then .fault 16 none
  else
    match s.s1 cxn gen va k.acc with
    | .fault c r => .fault c r
    | .poison d => .poison d
    | .ok ipa w x det =>
      match s.s2 cxn gen ipa with
      | .fault r l => .fault 17 (some (mkRec va ipa k.acc l false r gen))
      | .poison d => .poison d
      | .outside => .fault (if (k.s1w && !w) || (k.s1x && !x) then 18 else 19) none
      | .leaf l =>
        match s.place cxn l with
        | none => .fault 17 (some (mkRec va ipa k.acc l.level false 4 gen))
        | some p =>
          if (k.s1w && !w) || (k.s1x && !x) then .fault 18 none
          else if (k.r && !l.r) || (k.x && !l.x) then .fault 19 none
          else if l.tgt = 0 ∧ !inHbm l.out ∧ !inView l.out then .fault 19 none
          else if l.tgt = 0 ∧ inView l.out then
            (if k.w then .fault 22 none
             else if (s.rangeAt l.out).isNone then .fault 19 none
             else .ok p det ipa l)
          else if k.w && !l.w then .fault 19 none
          else if l.tgt = 3 ∧ !k.fetchOk then .fault 20 none
          else if l.tgt = 3 ∧ !inHbm l.out then .fault 19 none
          else .ok p det ipa l

/-- R347: the exposed latency of a load, strong access or atomic from a die. -/
def State.latency (s : State) (die : Nat) : Phys → Nat
  | .hbm d _ => if dieOf d = die then 96 else 160
  | .view d => if dieOf (s.viewRaw d) = die then 96 else 160
  | .peer _ _ => 4096
  | .host _ => 4096

/-- R251: the class latency of a copy end. -/
def copyClass : Phys → Nat
  | .hbm _ _ => 320
  | .view _ => 320
  | .peer _ _ => 4096
  | .host _ => 4096

/-- Starts of the 16-byte-part pieces of n bytes from an address: address and length of each. -/
def pieces (a n : Nat) : List (Nat × Nat) :=
  (partOffsets a n).map fun k => (a + k, min (a + n) ((a + k) / 16 * 16 + 16) - (a + k))

/-- How the translation of a range ends: its parts with where they are, or the lowest cause with its address. -/
inductive TrRange where
  | ok (ps : List (Nat × Nat × Phys × Bool))
  | fault (cause addr : Nat) (rec : Option FaultRec)
  | poison (dpa : Nat)
deriving DecidableEq, Repr

/-- The pieces of a range translated one by one; the lowest cause, and for it the lowest address, is delivered. -/
def State.transPieces (s : State) (cxn gen : Nat) (k : Access) : List (Nat × Nat) → TrRange
  | [] => .ok []
  | (a, n) :: rest =>
    match s.translate cxn gen a k, s.transPieces cxn gen k rest with
    | .poison d, _ => .poison d
    | .ok _ _ _ _, .poison d => .poison d
    | .ok _ _ _ _, .fault c d r => .fault c d r
    | .ok p det _ _, .ok ps => .ok ((a, n, p, det) :: ps)
    | .fault c r, .fault c2 d2 r2 => if c2 < c then .fault c2 d2 r2 else .fault c a r
    | .fault c r, _ => .fault c a r

/-- Translation of n bytes from an address. -/
def State.transRange (s : State) (cxn gen va n : Nat) (k : Access) : TrRange := s.transPieces cxn gen k (pieces va n)

/-- The 64-byte lines that n bytes touch (R428). -/
def linesOf (a n : Nat) : Nat := if n = 0 then 0 else (a + n - 1) / 64 - a / 64 + 1
def Phys.dest : Phys → Dest
  | .peer d _ => .peer d
  | .host _ => .host
  | _ => .hbm

/-! What walks read (R395, R401, R473). -/

/-- The table entries that the stage-1 walk of an address reads: IPA, and log2 of the span. -/
def State.s1reads (s : State) (cxn gen va : Nat) : Nat → Nat → List (Nat × Nat)
  | 0, _ => []
  | n + 1, t =>
    let lvl := 2 - n
    let ti := t + 8 * (va / 2 ^ levelShift lvl % 8192)
    (ti, levelShift lvl) :: (match s.s2 cxn gen ti with
      | .leaf l => (match s.desc l.out with
        | some (e, _) => if e % 4 = 2 ∧ lvl < 2 then s.s1reads cxn gen va n (bits e 51 16 * 2 ^ 16) else []
        | none => [])
      | _ => [])
/-- Those of an address; none where stage 1 is off. -/
def State.s1entries (s : State) (cxn gen va : Nat) : List (Nat × Nat) :=
  let root := (s.ctx cxn).s1root.toNat
  if root % 2 = 0 then [] else s.s1reads cxn gen va 3 (bits root 51 16 * 2 ^ 16)
/-- The descriptors that the stage-2 walk of an IPA reads. -/
def State.s2reads (s : State) (gen ipa : Nat) : Nat → Nat → List Desc
  | 0, _ => []
  | n + 1, t =>
    let sh := levelShift (2 - n)
    let d := fun (a : Nat) => ({ addr := a, base := ipa / 2 ^ sh * 2 ^ sh, shift := sh } : Desc)
    let a := t + 8 * (ipa / 2 ^ sh % (if n = 2 then 1024 else 8192))
    match s.desc a with
    | none => []
    | some (e, _) =>
      let f := bits e 51 16 * 2 ^ 16
      if e % 4 = 2 ∧ n ≠ 0 then d a :: s.s2reads gen ipa n f
      else if e % 4 = 3 ∧ n ≠ 0 then
        d a :: d (f + 8 * gen) :: (match s.desc (f + 8 * gen) with
          | some (e2, _) => if e2 % 4 = 2 then s.s2reads gen ipa n (bits e2 51 16 * 2 ^ 16) else []
          | none => [])
      else [d a]
/-- The IPAs that the translation of an address walks: those of its stage-1 entries, and its own. -/
def State.walked (s : State) (cxn gen va : Nat) : List Nat :=
  (s.s1entries cxn gen va).map Prod.fst ++ (match s.s1 cxn gen va 0 with
    | .ok ipa _ _ _ => [ipa]
    | _ => [])
/-- The stage-2 descriptors that it reads. -/
def State.walkDescs (s : State) (cxn gen va : Nat) : List Desc :=
  (s.walked cxn gen va).flatMap fun ipa => s.s2reads gen ipa 3 (s.ctx cxn).s2root
/-- What the translation of an address uses (R402). -/
def State.usedNow (s : State) (cxn gen va : Nat) : List Used :=
  let ipas := (s.walked cxn gen va).map fun ipa => (ipa, match s.s2 cxn gen ipa with
    | .leaf l => levelShift l.level
    | .fault _ lvl => levelShift lvl
    | _ => 42)
  let win := match s.s1 cxn gen va 0 with
    | .ok ipa _ _ _ => (match s.s2 cxn gen ipa with
      | .leaf l => if l.tgt = 0 then none else some l.win
      | _ => none)
    | _ => none
  ((s.s1entries cxn gen va).getLast?.map fun e => Used.s1 (va / 65536) gen e.2).toList ++ [.s2 (va / 65536) gen ipas win]
/-- Descriptors that the device caches for a context at the least (R473). -/
def descRoom : Nat := 4096
/-- The walks of accesses at some addresses: the stage-2 descriptors that are not cached are read and cached; of a context that holds more than the
device need cache, and of stage 1, what is cached the wall clock settles (R473, log 4). The state, and the lines read. -/
def State.walk (s : State) (cxn gen : Nat) (vas : List Nat) : State × Nat :=
  let pages := (vas.map (· / 65536)).eraseDups
  let c := s.ctx cxn
  let ds := (pages.flatMap fun p => s.walkDescs cxn gen (65536 * p)).eraseDups
  let cached := fun (d : Desc) => c.descs.contains d && (decide (c.descs.length ≤ descRoom) || Config.freeBit (s.free + d.addr))
  let new := ds.filter fun d => !cached d
  let tables := pages.foldl (fun a p => a + (s.s1entries cxn gen (65536 * p)).length) 0
  ((s.modCtx cxn fun c =>
      { c with descs := c.descs ++ new.filter (fun d => !c.descs.contains d)
               used := c.used ++ (pages.flatMap fun p => s.usedNow cxn gen (65536 * p)).filter fun u => !c.used.contains u }).tick 1,
   new.length + Config.freeCount s.free % (tables + 1))
/-- The port of an agent's requests: its core's, or its cluster control core's. -/
def State.portOf (s : State) : Agent → Nat
  | .job n _ => n
  | .thread cxn q => 1024 + ((s.ctx cxn).clusters.getD (q / 4) 0)
/-- What an access touches of local HBM: a decoded part is filled from its raw and scale parts (R417). Nothing of it is kept here (R62). -/
def State.llcTouch (s : State) (p : Phys) (n : Nat) (write : Bool) : State × Nat :=
  match p with
  | .hbm d _ => if write then (s, ((linesAt d n).filter fun l => s.llcMiss l (llcWords l d n) true).length) else s.llcAccess d n false
  | .view d => ((partOffsets d n).flatMap fun k => s.viewParts (d + k)).eraseDups.foldl (fun (t, k) x => let r := t.llcAccess (16 * x) 16 false; (r.1, k + r.2)) (s, 0)
  | _ => (s, 0)
/-- The last-level cache's part in some reads and writes; a write takes its place there as it is performed. The misses. -/
def State.llcServe (s : State) (l : List (Phys × Nat × Bool)) : State × Nat :=
  l.foldl (fun (t, k) x => let r := t.llcTouch x.1 x.2.1 x.2.2; (r.1, k + r.2)) (s, 0)
/-- Requests wait at an agent's port, behind those of the walks for some addresses, which the same waits for (R428, R430, R473). Misses of the
last-level cache are counted in counter 6: those of the accesses that are named, and of the lines of walks and fetches as many as the wall clock
settles (log 4). -/
def State.requests (s0 : State) (ag : Agent) (gen : Nat) (vas : List Nat) (need : Need) (l : List (Nat × Dest)) (touch : List (Phys × Nat × Bool)) : State :=
  let cxn := s0.cxnOf ag
  let (s, k) := s0.walk cxn gen vas
  let rs := ((k, Dest.hbm) :: l).filter fun x => x.1 != 0
  let c := s.llcServe touch
  let near := if touch.isEmpty then rs.foldl (fun m x => if x.2 = .hbm then m + x.1 else m) 0 else k
  let port := s.portOf ag
  if rs.isEmpty then s
  else
    ((c.1.modCtx cxn fun x => { x with requests := aset x.requests port ((aget? x.requests port).getD [] ++ rs.map fun r =>
        ({ lines := r.1, dest := r.2, need := need, stuck := none } : Req)) }).perf cxn 6 (c.2 + Config.freeCount s.free % (near + 1))).tick 1
/-- A request for the line of n bytes at an address. -/
def State.request (s : State) (ag : Agent) (va : Nat) (p : Phys) (n : Nat) (write : Bool) (need : Need) : State :=
  s.requests ag (s.genOf ag) [va] need [(1, p.dest)] [(p, n, write)]
/-- Something waits for requests that have not yet left an agent's port. -/
def State.unsentFor (s : State) (ag : Agent) (p : Need → Bool) : Bool :=
  ((aget? (s.ctx (s.cxnOf ag)).requests (s.portOf ag)).getD []).any fun r => p r.need

/-! Links (R420, R435). -/

/-- A port carries new traffic. -/
def Port.carries (p : Port) : Bool := p.state == .up || p.state == .degraded
def State.portUp (s : State) (k : Nat) : Bool := (vget s.guide.ports k .reset).carries
/-- It carries traffic, be it only what is in flight (Draining). -/
def State.portLive (s : State) (k : Nat) : Bool := s.portUp k || (vget s.guide.ports k .reset).state == .draining
/-- A port of the route to a device carries traffic. -/
def State.routed (s : State) (dev : Nat) : Bool := (List.range 24).any fun k => nbit ((aget? s.guide.routes dev).getD 0) k && s.portUp k
/-- A new transaction can set out for its place; one that cannot waits (R435). -/
def State.linked (s : State) : Phys → Bool
  | .peer dev _ => s.routed dev
  | .host _ => s.portUp 24
  | _ => true
/-- A transaction in flight can reach its place (R420, R435). -/
def State.reaches (s : State) : Phys → Bool
  | .peer dev _ => (List.range 24).any fun k => nbit ((aget? s.guide.routes dev).getD 0) k && s.portLive k
  | .host _ => s.portLive 24
  | _ => true

end Sys2Proof.Machine
end

