-- ==== Sys2Proof/Machine/Marks.lean ====
section
/-! DEFINITION. Which strong accesses and atomics happen before which (R71), for the bytes that overlapping accesses of different size or
address leave undefined (R80). -/
namespace Sys2Proof.Machine

def Past.join (p q : Past) : Past := { ls := Vector.zipWith max p.ls q.ls, cp := max p.cp q.cp }
def joinAll (ps : List Past) : Past := ps.foldl Past.join .reset
/-- A stream comes after a past too. -/
def Order.learn (o : Order) (e : Engine) (p : Past) : Order :=
  { o with known := o.known.setIfInBounds (engNum e) ((vget o.known (engNum e) .reset).join p) }

/-- R71: a performed access happens before another. -/
def Mark.before (m : Mark) (x : Doer) : Bool :=
  m.known.any fun k => match x.who, k.1 with
    | _, .inst d => x.deps.contains d
    | .copy h g o, .stream h' g' o' f => h == h' && g == g' && o == o' && decide (k.2.1 < vget x.past.ls (engNum f) 0)
    | .stream h g o e, .stream h' g' o' f =>
      h == h' && g == g' && o == o' && (if e = f then decide (k.2.2 ≤ x.stamp) else decide (k.2.1 < vget x.past.ls (engNum f) 0))
    | w, v => w == v && decide (k.2.2 ≤ x.stamp)
def Mark.covers (m : Mark) (a : Nat) : Bool := decide (m.low ≤ a) && decide (a < m.low + m.size)
/-- A write whose value an access of `size` bytes at `low` returns, as it reads `old`. -/
def Mark.returnedBy (m : Mark) (low size old : Nat) : Bool :=
  match m.wrote with
  | none => false
  | some v => ((List.range size).any fun j => m.covers (low + j)) &&
      (List.range size).all fun j => !m.covers (low + j) || old / 256 ^ j % 256 == v / 256 ^ (low + j - m.low) % 256
/-- The last write to bytes of an access, where the access returns its value. -/
def Marks.source (k : Marks) (low size old : Nat) : Option Mark :=
  (k.l.reverse.find? fun m => m.wrote.isSome && (List.range size).any fun j => m.covers (low + j)).filter (·.returnedBy low size old)
/-- What an access comes after, as one that reads a write comes after all that the write comes after (R71, edge 5). -/
def Marks.follow (k : Marks) (z : Mark) (x : Doer) : Marks :=
  { k with l := k.l.map fun m => if m.before z.doer && !m.before x then { m with known := m.known ++ [(x.who, x.id, x.stamp)] } else m }
/-- An access has been performed: where it returns the value of the last write, it comes after that write and all that the write comes after
(R71, edge 5), and its stream with it (edge 1). An earlier access of the stream to the same bytes that no other knows of is kept no longer. -/
def Marks.note (k : Marks) (x : Doer) (low size : Nat) (old wrote : Option Nat) : Marks :=
  let k1 := match old.bind (k.source low size) with
    | some z => k.follow z x
    | none => k
  { n := k.n + 1
    l := (k1.l.filter fun m => !(m.doer.who == x.who && m.low == low && m.size == size && m.wrote.isSome == wrote.isSome && m.known.length == 1)) ++
      [{ doer := x, plain := false, low := low, size := size, wrote := wrote, known := [(x.who, x.id, x.stamp)] }] }
/-- Bytes are written by what is no strong access: the values that strong accesses and copies wrote there are returned no more. -/
def Marks.overwritten (k : Marks) (low size : Nat) : Marks :=
  let hit := fun (m : Mark) => decide (m.low < low + size) && decide (low < m.low + m.size)
  { k with l := (k.l.filter fun m => !(m.plain && hit m)).map fun m => if hit m then { m with wrote := none } else m }
/-- A copy has written bytes (R71, edge 5); those after the ones that it wrote last are one write with them. -/
def Marks.copied (k : Marks) (x : Doer) (low size v : Nat) : Marks :=
  let k1 := k.overwritten low size
  match k1.l.getLast? with
  | some m =>
    if m.plain ∧ m.doer.who = x.who ∧ m.doer.id = x.id ∧ m.low + m.size = low then
      { n := k.n + 1, l := k1.l.dropLast ++ [{ m with size := m.size + size, wrote := m.wrote.map fun w => w + v * 256 ^ m.size }] }
    else { n := k.n + 1, l := k1.l ++ [{ doer := x, plain := true, low := low, size := size, wrote := some v, known := [] }] }
  | none => { n := k.n + 1, l := [{ doer := x, plain := true, low := low, size := size, wrote := some v, known := [] }] }
/-- What a stream of a core comes after once it returns the value of a write: the accesses of the core's streams that happen before it, and the
copy itself (R71, R83). -/
def Marks.learnt (k : Marks) (z : Mark) (h g o : Nat) : List Past :=
  k.l.filterMap fun m => match m.doer.who with
    | .stream h' g' o' f =>
      if h = h' ∧ g = g' ∧ o = o' ∧ m.before z.doer then some { m.doer.past with ls := m.doer.past.ls.setIfInBounds (engNum f) (m.doer.id + 1) } else none
    | .copy h' g' o' => if h = h' ∧ g = g' ∧ o = o' ∧ m.doer = z.doer ∧ m.low = z.low then some m.doer.past else none
    | _ => none
/-- A release (R71, edge 3; R359): what one of the participants comes after, all of them come after from then on. -/
def Marks.join (k : Marks) (ws : List (Who × Nat)) : Marks :=
  { k with l := k.l.map fun m =>
      if m.known.any fun z => ws.any (·.1 == z.1) then
        { m with known := m.known ++ (ws.filter fun w => !m.known.any (·.1 == w.1)).map fun w => (w.1, w.2, k.n) }
      else m }
/-- An instance is Complete (R71, edge 6; R340): what its accesses come after, its dependents and the queue programs of the context come after. -/
def Marks.complete (k : Marks) (h : Nat) (deps : List Nat) : Marks :=
  let ws := Who.inst h :: (List.range 16).map Who.thread
  { k with l := k.l.map fun m =>
      if m.known.any fun z => match z.1 with
        | .stream x _ _ _ => x == h
        | .inst d => deps.contains d
        | _ => false
      then { m with known := m.known ++ (ws.filter fun w => !m.known.any (·.1 == w)).map fun w => (w, 0, k.n) }
      else m }

/-- An access of an agent as R71 orders it. -/
def State.doer (s : State) (ag : Agent) (x : Strong) : Doer :=
  let n := (s.ctx (s.cxnOf ag)).marks.n
  match ag with
  | .job c e =>
    match (s.core c).member with
    | some (cxn, h, g, o) => { who := .stream h g o e, id := x.id, stamp := n, past := x.past, deps := ((s.inst? cxn h).map (·.deps)).getD [] }
    | none => { who := .stream 0 0 0 e, id := x.id, stamp := n, past := x.past, deps := [] }
  | .thread _ q => { who := .thread q, id := 0, stamp := n, past := .reset, deps := [] }
/-- The address under which the marks know a byte: local addresses, and above them the keys of peers' and the host's. A decoded view is
written by nobody. -/
def Phys.markKey : Phys → Option Nat
  | .hbm d _ => some d
  | .peer dev a => some (peerKey dev a)
  | .host a => some (2 ^ 64 + hostKey a)
  | .view _ => none
/-- Of n bytes at a, those that an access of another size or address overlaps which nothing orders before the given one. -/
def State.overlaid (s : State) (cxn : Nat) (x : Doer) (a n : Nat) : List Nat :=
  let ms := (List.range 32).flatMap fun k => (s.ctx k).marks.l.filter fun m => !m.plain && (m.low != a || m.size != n) && !(k == cxn && m.before x)
  if ms.isEmpty then [] else ((List.range n).map (a + ·)).filter fun b => ms.any (·.covers b)
/-- R80, MIXDBG 0: the bytes of an access that one of another size or address, which nothing orders before it, overlaps. -/
def State.mixOpen (s : State) (ag : Agent) (x : Strong) : List Nat :=
  let cxn := s.cxnOf ag
  match x.loc.markKey with
  | some a => if (s.ctx cxn).mixdbg then [] else s.overlaid cxn (s.doer ag x) a x.size
  | none => []
/-- Bytes take undefined values, where they stand. -/
def State.undefine (s : State) (as : List Nat) : State :=
  as.foldl (fun t a =>
    let b := Config.freeByte t.free
    if a < 2 ^ 64 then { t.tick 1 with hbm := t.hbm.write a [b] }
    else { t.tick 1 with remote := aset t.remote (if a < 2 ^ 65 then a - 2 ^ 64 else a) b }) s
/-- A performed access joins those of its context; where it returns the value of a write, its stream comes after what that write does, as a
FENCE of it asks (R71, R83). -/
def State.noteMark (s : State) (ag : Agent) (x : Strong) (old wrote : Option Nat) : State :=
  match x.loc.markKey with
  | some a =>
    let k := (s.ctx (s.cxnOf ag)).marks
    let s1 := s.modCtx (s.cxnOf ag) fun c => { c with marks := c.marks.note (s.doer ag x) a x.size old wrote }
    (match ag, old.bind (k.source a x.size) with
     | .job n e, some z =>
       (match (s.core n).member with
        | some (_, h, g, o) => s1.modCore n fun c => { c with order := (k.learnt z h g o).foldl (fun y p => y.learn e p) c.order }
        | none => s1)
     | _, _ => s1)
  | none => s
/-- A write that is no strong access and no copy. -/
def State.plainWrote (s : State) (cxn : Nat) (p : Phys) (n : Nat) : State :=
  match p.markKey with
  | some a => s.modCtx cxn fun c => { c with marks := c.marks.overwritten a n }
  | none => s
/-- A write of a core's copy. -/
def State.copyWrote (s : State) (n : Nat) (x : Copy) (p : Phys) (bs : List (Byte × Bool)) : State :=
  match p.markKey, (s.core n).member with
  | some a, some (cxn, h, g, o) =>
    let d : Doer := { who := .copy h g o, id := x.issue, stamp := (s.ctx cxn).marks.n, past := (aget? (s.core n).order.tags x.tag).getD .reset, deps := [] }
    s.modCtx cxn fun c => { c with marks := c.marks.copied d a bs.length (leNat (bs.map (·.1))) }
  | _, _ => s
/-- The context whose region holds a local address. -/
def State.ctxAt (s : State) (dpa : Nat) : Nat :=
  ((List.range 32).find? fun k => (s.ctx k).runs.any fun r => decide (r.1 * 2 ^ 29 ≤ dpa) && decide (dpa < (r.1 + r.2) * 2 ^ 29)).getD 0
/-- An atomic of the host or of another device is about to be performed on local bytes: those that R80 leaves undefined. -/
def State.outsideOpen (s : State) (dpa n : Nat) : List Nat :=
  let k := s.ctxAt dpa
  if (s.ctx k).mixdbg then []
  else s.overlaid k { who := .outside (s.ctx k).marks.n, id := 0, stamp := (s.ctx k).marks.n, past := .reset, deps := [] } dpa n
/-- It has been performed. -/
def State.outsideMark (s : State) (dpa n : Nat) (old wrote : Option Nat) : State :=
  s.modCtx (s.ctxAt dpa) fun c =>
    { c with marks := c.marks.note { who := .outside c.marks.n, id := 0, stamp := c.marks.n, past := .reset, deps := [] } dpa n old wrote }
/-- A release of the boundary or barrier of some cores. -/
def State.joinMarks (s : State) (cxn : Nat) (cores : List Nat) : State :=
  let ws := cores.flatMap fun n => match (s.core n).member with
    | some (_, h, g, o) => engines.map fun e => (Who.stream h g o e, (s.core n).seq)
    | none => []
  s.modCtx cxn fun c => { c with marks := c.marks.join ws }

end Sys2Proof.Machine
end

