-- ==== Sys2Proof/WellFormed.lean ====
section
/-! DEFINITION. Which instructions dxa writes: every register field within its class (R102, R123), every code assigned,
and one spelling for each word. An instruction outside this still has a meaning, which raises the cause the spec gives. -/
namespace Sys2Proof

/-- A scalar field of a private word names s0 to s47 (R102). -/
def sOk (x : BitVec 6) : Bool := decide (x.toNat < 48)
/-- A vector field that accepts no channel. -/
def vOk (x : BitVec 6) : Bool := decide (x.toNat < 48)
/-- An address register field. -/
def aOk (x : BitVec 6) : Bool := decide (x.toNat < 16)
/-- A vector-predicate field. -/
def vpOk (x : BitVec 6) : Bool := decide (x.toNat < 16)
/-- A directional or norm field. -/
def dOk (x : BitVec 6) : Bool := decide (x.toNat < 16)
/-- A field that must name a channel (R117). -/
def chOk (x : BitVec 6) : Bool := decide (48 ≤ x.toNat)
/-- The first register of a pair is even (R113). -/
def pairOk (x : BitVec 6) : Bool := decide (x.toNat < 48) && decide (x.toNat % 2 = 0)
/-- An access size code of LD.s and ST.s (R369). -/
def sizeOk (x : BitVec 6) : Bool := decide (x.toNat ≤ 4)
/-- A numerics profile that exists (R51). -/
def profOk (x : BitVec 4) : Bool := decide (x.toNat ≤ 5)
/-- A reduction code that exists (R107). -/
def ropOk (x : BitVec 3) : Bool := decide (x.toNat ≤ 2)
/-- A type code of Table 4-4. -/
def tyOk (x : BitVec 5) : Bool :=
  decide (x.toNat ≤ 5) || (decide (8 ≤ x.toNat) && decide (x.toNat ≤ 0x10)) || (decide (0x14 ≤ x.toNat) && decide (x.toNat ≤ 0x17))

/-- R102, R113, R117, R123: what dxa accepts. The word of HINT 0, 0 is spelled NOP (R99). -/
def WellFormed : Instr → Bool
  | .hint k imm => decide (k ≠ 0) || decide (imm ≠ 0)
  | .atadd _ d a b _ => sOk d && aOk a && sOk b
  | .atand _ d a b _ => sOk d && aOk a && sOk b
  | .ator _ d a b _ => sOk d && aOk a && sOk b
  | .atxor _ d a b _ => sOk d && aOk a && sOk b
  | .atmin _ d a b _ => sOk d && aOk a && sOk b
  | .atmax _ d a b _ => sOk d && aOk a && sOk b
  | .atminu _ d a b _ => sOk d && aOk a && sOk b
  | .atmaxu _ d a b _ => sOk d && aOk a && sOk b
  | .atswp _ d a b _ => sOk d && aOk a && sOk b
  | .atcas _ d a b _ => sOk d && aOk a && sOk b
  | .atcas16 _ d a b => pairOk d && aOk a && pairOk b
  | .atfadd _ d a b => sOk d && aOk a && sOk b
  | .aredOrd _ a b => aOk a && sOk b
  | .ldS _ d a z _ => sizeOk z && aOk a && sOk d && (decide (z ≠ 4) || pairOk d)
  | .stS _ d a z => sizeOk z && aOk a && sOk d && (decide (z ≠ 4) || pairOk d)
  | .launch _ d a b => sOk d && aOk a && sOk b
  | .kwait _ d a => sOk d && sOk a
  | .kstat _ d a => sOk d && sOk a
  | .qrd _ d a => sOk d && sOk a
  | .qwr _ a b => sOk a && sOk b
  | .cxrd _ d a => sOk d && sOk a
  | .cxwr _ a b => sOk a && sOk b
  | .trrd _ d a => sOk d && sOk a
  | .trwr _ a b => sOk a && sOk b
  | .pcrd _ d a => sOk d && sOk a
  | .eclr _ a b => sOk a && sOk b
  | .npbeg _ a => sOk a
  | .qsig _ a => sOk a
  | .vfma _ d _ _ _ => vOk d
  | .vfms _ d _ _ _ => vOk d
  | .vsel _ d _ b _ => vOk d && vpOk b
  | .vpand _ d a b _ => vpOk d && vpOk a && vpOk b
  | .vpor _ d a b _ => vpOk d && vpOk a && vpOk b
  | .vpxor _ d a b _ => vpOk d && vpOk a && vpOk b
  | .vany _ _ a _ => vpOk a
  | .vall _ _ a _ => vpOk a
  | .vcvt _ _ _ t _ => tyOk t
  | .vcvts _ _ _ b _ => vOk b
  | .vquant _ _ _ b _ => sOk b
  | .vrsum _ d _ _ => vOk d
  | .vcsum _ d _ _ => vOk d
  | .vrmax _ d _ _ => vOk d
  | .vcmax _ d _ _ => vOk d
  | .vrmin _ d _ _ => vOk d
  | .vcmin _ d _ _ => vOk d
  | .vperm _ d _ _ _ => vOk d
  | .vbcr _ d _ b _ => vOk d && sOk b
  | .vbcc _ d _ b _ => vOk d && sOk b
  | .vtrn _ d _ _ => vOk d
  | .vbcs _ d a => vOk d && sOk a
  | .vld _ _ a => sOk a
  | .vst _ a _ _ => sOk a
  | .vldm _ _ a => sOk a
  | .vstm _ a _ _ => sOk a
  | .vgath _ d a _ _ => vOk d && sOk a
  | .vscat _ _ a _ _ => sOk a
  | .vrand _ _ a b => sOk a && sOk b
  | .vbucket _ d _ _ _ => sOk d
  | .ecnt _ d a => vOk d && sOk a
  | .vshape _ a => sOk a
  | .dnorm _ d _ _ => dOk d
  | .dexp _ _ a _ => dOk a
  | .ddot _ d a b _ => vOk d && dOk a && dOk b
  | .ddotm _ d a b => vOk d && dOk a && dOk b
  | .dscale _ d a b => dOk d && dOk a && sOk b
  | .dadd _ d a b => dOk d && dOk a && dOk b
  | .dsub _ d a b => dOk d && dOk a && dOk b
  | .dneg _ d a => dOk d && dOk a
  | .dmovn _ d a => sOk d && dOk a
  | .dsetn _ d a => dOk d && sOk a
  | .dtest _ d a => sOk d && dOk a
  | .vpmov _ d a m => if m = 0 then vpOk d && vOk a else vOk d && vpOk a
  | .mldas _ a => sOk a
  | .mldbs _ a => sOk a
  | .mma _ _ _ _ _ prof fa fb _ => profOk prof && tyOk fa && tyOk fb
  | .mshift _ d a => sOk d && sOk a
  | .mspill _ d => sOk d
  | .mfill _ a => sOk a
  | .mcfg _ a => sOk a
  | .mstat _ d => sOk d
  | .xcopy _ d a b _ _ _ _ _ => sOk d && sOk a && sOk b
  | .xfill _ d a b _ _ _ _ _ => chOk d && sOk a && sOk b
  | .xdrain _ d a b _ _ _ _ _ => sOk d && chOk a && sOk b
  | .xgath _ d a b => sOk d && sOk a && sOk b
  | .xscat _ d a b => sOk d && sOk a && sOk b
  | .xallred _ d a b _ ty rop _ => sOk d && sOk a && sOk b && tyOk ty && ropOk rop
  | .xallgath _ d a b _ ty _ _ => sOk d && sOk a && sOk b && tyOk ty
  | .xredscat _ d a b _ ty rop _ => sOk d && sOk a && sOk b && tyOk ty && ropOk rop
  | .xall2all _ d a b _ ty _ _ => sOk d && sOk a && sOk b && tyOk ty
  | .xfetch _ d a b _ _ => sOk d && sOk a && sOk b
  | .xfetchTry _ d a b _ _ => sOk d && sOk a && sOk b
  | .xpref _ a b => sOk a && sOk b
  | .xtclr _ a => sOk a
  | .xtst _ d a => sOk d && sOk a
  | _ => true

end Sys2Proof
end

