-- ==== Sys2Proof/Decode.lean ====
section
/-! DEFINITION. Chapter 4 of the spec: which instruction a word is in which engine (R94 to R118), total on any bytes,
and the encoder written from the same tables. -/
namespace Sys2Proof

/-- Why words are no instruction of the table; `g` is the guard field of a private word (R101). -/
inductive DecodeReject where
  /-- Unassigned shared major outside the hint region (R98): cause 1. -/
  | unassignedMajor
  /-- Unassigned private opcode of the decoding engine (R105): cause 2. -/
  | unassignedPrivate (g : Guard)
  /-- A long form whose payload word has another payload kind (R106): cause 4. -/
  | payloadKind (g : Guard)
  /-- A field value that selects no instruction of its row (R97, R105, R115): cause 10. -/
  | fieldValue (g : Guard)
  /-- PHASE or ARED.ORD with such a field value: cause 10, and cause 3 on a queue thread (R118, R11). -/
  | jobField (g : Guard)
  /-- VSF or VRED with no function code of Table 4-9, and its D and A fields: cause 10, or a lower one of its operands (R11, R115). -/
  | vFunction (g : Guard) (red : Bool) (d a : BitVec 6)
  /-- Fewer bytes than one word. -/
  | truncated
deriving DecidableEq, Repr

/-- The cause a rejected word raises when it executes. -/
def DecodeReject.cause : DecodeReject → Nat
  | .unassignedMajor => 1
  | .unassignedPrivate _ => 2
  | .payloadKind _ => 4
  | .fieldValue _ => 10
  | .jobField _ => 10
  | .vFunction _ _ _ _ => 10
  | .truncated => 1

/-- The guard under which a rejected word raises its cause. -/
def DecodeReject.guard : DecodeReject → Guard
  | .unassignedPrivate g => g
  | .payloadKind g => g
  | .fieldValue g => g
  | .jobField g => g
  | .vFunction g _ _ _ => g
  | _ => 0

/-- Bits lo + n - 1 to lo of a word (R3). -/
def fld (w : W32) (lo n : Nat) : BitVec n := BitVec.ofNat n (w.toNat / 2 ^ lo)
/-- Bit k of a word. -/
def bit (w : W32) (k : Nat) : Bool := w.toNat / 2 ^ k % 2 == 1
/-- The guard field G of a private word (Table 4-2). -/
def guardOf (w : W32) : Guard := fld w 26 5

/-- Table 4-6, by the major opcode; a hint executes whatever its other bits (R98). -/
def decodeShared (w : W32) : Except DecodeReject Instr :=
  match w.toNat / 2 ^ 24 % 128 with
  | 0x01 => .ok (.add (fld w 18 6) (fld w 12 6) (fld w 6 6))
  | 0x02 => .ok (.sub (fld w 18 6) (fld w 12 6) (fld w 6 6))
  | 0x03 => .ok (.mul (fld w 18 6) (fld w 12 6) (fld w 6 6))
  | 0x04 => if bit w 0 then .ok (.mulhu (fld w 18 6) (fld w 12 6) (fld w 6 6)) else .ok (.mulh (fld w 18 6) (fld w 12 6) (fld w 6 6))
  | 0x05 => if bit w 0 then .ok (.divu (fld w 18 6) (fld w 12 6) (fld w 6 6)) else .ok (.div (fld w 18 6) (fld w 12 6) (fld w 6 6))
  | 0x06 => if bit w 0 then .ok (.remu (fld w 18 6) (fld w 12 6) (fld w 6 6)) else .ok (.rem (fld w 18 6) (fld w 12 6) (fld w 6 6))
  | 0x07 => .ok (.and (fld w 18 6) (fld w 12 6) (fld w 6 6))
  | 0x08 => .ok (.or (fld w 18 6) (fld w 12 6) (fld w 6 6))
  | 0x09 => .ok (.xor (fld w 18 6) (fld w 12 6) (fld w 6 6))
  | 0x0A => .ok (.shl (fld w 18 6) (fld w 12 6) (fld w 6 6))
  | 0x0B => .ok (.shr (fld w 18 6) (fld w 12 6) (fld w 6 6))
  | 0x0C => .ok (.sra (fld w 18 6) (fld w 12 6) (fld w 6 6))
  | 0x0D => if bit w 0 then .ok (.minu (fld w 18 6) (fld w 12 6) (fld w 6 6)) else .ok (.min (fld w 18 6) (fld w 12 6) (fld w 6 6))
  | 0x0E => if bit w 0 then .ok (.maxu (fld w 18 6) (fld w 12 6) (fld w 6 6)) else .ok (.max (fld w 18 6) (fld w 12 6) (fld w 6 6))
  | 0x0F => .ok (.sel (fld w 18 6) (fld w 12 6) (fld w 6 6) (fld w 0 4))
  | 0x10 => .ok (.addi (fld w 18 6) (fld w 12 6) (fld w 0 12))
  | 0x11 => .ok (.andi (fld w 18 6) (fld w 12 6) (fld w 0 12))
  | 0x12 => .ok (.ori (fld w 18 6) (fld w 12 6) (fld w 0 12))
  | 0x13 => .ok (.xori (fld w 18 6) (fld w 12 6) (fld w 0 12))
  | 0x14 => .ok (.shli (fld w 18 6) (fld w 12 6) (fld w 0 6))
  | 0x15 => .ok (.shri (fld w 18 6) (fld w 12 6) (fld w 0 6))
  | 0x16 => .ok (.srai (fld w 18 6) (fld w 12 6) (fld w 0 6))
  | 0x17 => .ok (.muli (fld w 18 6) (fld w 12 6) (fld w 0 12))
  | 0x18 => .ok (.li (fld w 18 6) (fld w 0 18))
  | 0x19 => .ok (.lih (fld w 18 6) (fld w 0 18))
  | 0x1A => .ok (.adda (fld w 18 4) (fld w 12 4) (fld w 6 6))
  | 0x1B => .ok (.addai (fld w 18 4) (fld w 12 4) (fld w 0 12))
  | 0x1C => .ok (.mova (fld w 18 4) (fld w 12 6))
  | 0x1D => .ok (.movs (fld w 18 6) (fld w 12 4))
  | 0x20 => .ok (.cmp (fld w 22 2) (fld w 18 4) (fld w 12 6) (fld w 6 6))
  | 0x21 => .ok (.cmpi (fld w 22 2) (fld w 18 4) (fld w 12 6) (fld w 0 12))
  | 0x22 => .ok (.pand (fld w 18 4) (fld w 12 4) (fld w 6 4))
  | 0x23 => .ok (.por (fld w 18 4) (fld w 12 4) (fld w 6 4))
  | 0x24 => .ok (.pxor (fld w 18 4) (fld w 12 4) (fld w 6 4))
  | 0x25 => .ok (.pandn (fld w 18 4) (fld w 12 4) (fld w 6 4))
  | 0x28 => .ok (.ptgt (fld w 21 3) (fld w 0 21))
  | 0x29 => .ok (.ptgtr (fld w 18 3) (fld w 12 6))
  | 0x2A => .ok (.j (fld w 21 3))
  | 0x2B => .ok (.jt (fld w 21 3) (fld w 17 4))
  | 0x2C => .ok (.jf (fld w 21 3) (fld w 17 4))
  | 0x2D => .ok (.call (fld w 21 3))
  | 0x2E => .ok .ret
  | 0x2F => .ok (.loop (fld w 18 6) (fld w 12 6))
  | 0x30 => .ok (.loopi (fld w 18 6) (fld w 0 18))
  | 0x31 => if bit w 0 then .ok .endlRot else .ok .endl
  | 0x38 => .ok (.ld (fld w 18 6) (fld w 14 4) (fld w 12 2) (fld w 0 12))
  | 0x39 => .ok (.ldu (fld w 18 6) (fld w 14 4) (fld w 12 2) (fld w 0 12))
  | 0x3A => .ok (.st (fld w 18 6) (fld w 14 4) (fld w 12 2) (fld w 0 12))
  | 0x3B => .ok (.ldsp (fld w 18 6) (fld w 14 4) (fld w 12 2) (fld w 0 12))
  | 0x3C => .ok (.ldspu (fld w 18 6) (fld w 14 4) (fld w 12 2) (fld w 0 12))
  | 0x3D => .ok (.stsp (fld w 18 6) (fld w 14 4) (fld w 12 2) (fld w 0 12))
  | 0x40 => .ok (.gres (fld w 18 4) (fld w 12 4))
  | 0x41 => .ok (.gset (fld w 18 4) (fld w 0 1))
  | 0x42 => if bit w 18 then .ok (.gmaskT (fld w 0 16)) else .ok (.gmaskF (fld w 0 16))
  | 0x43 => .ok (.gclr (fld w 0 16))
  | 0x44 => .ok (.chcfg (fld w 18 4) (fld w 12 6) (fld w 6 6))
  | 0x45 => if bit w 22 then .ok (.chwaitFree (fld w 18 4) (fld w 0 12)) else .ok (.chwaitFull (fld w 18 4) (fld w 0 12))
  | 0x46 => if bit w 22 then .ok (.chadvProd (fld w 18 4) (fld w 0 12)) else .ok (.chadvCons (fld w 18 4) (fld w 0 12))
  | 0x47 => .ok (.chrst (fld w 18 4))
  | 0x48 => .ok (.semsig (fld w 18 5) (fld w 0 12))
  | 0x49 => .ok (.semwait (fld w 18 5) (fld w 0 12))
  | 0x4A => .ok (.twait (fld w 0 6))
  | 0x4B => .ok (.ttest (fld w 18 4) (fld w 0 6))
  | 0x4C => .ok (.tffr (fld w 18 6) (fld w 12 6))
  | 0x4D => .ok (.vcwait (fld w 12 6) (fld w 0 12))
  | 0x4E => .ok (.cbwait (fld w 12 6))
  | 0x4F => .ok (.cbtest (fld w 18 4) (fld w 12 6))
  | 0x50 => 
    match (fld w 0 2).toNat with
    | 1 => .ok .phaseG
    | 2 => .ok .phaseK
    | 3 => .ok .phaseX
    | _ => .error (.jobField 0)
  | 0x51 => .ok (.fence (fld w 4 4) (fld w 0 4))
  | 0x52 => .ok .rdv
  | 0x53 => .ok .iflush
  | 0x54 => .ok (.trap (fld w 0 3))
  | 0x55 => if bit w 0 then .ok (.eretAt (fld w 12 6)) else .ok .eret
  | 0x56 => .ok (.rdst (fld w 18 6) (fld w 0 12))
  | 0x57 => .ok (.wrst (fld w 12 6) (fld w 0 12))
  | n =>
    if 0x70 ≤ n then
      (if w = 0x70000000 then .ok .nop else .ok (.hint (fld w 24 4) (fld w 0 24)))
    else .error .unassignedMajor

/-- Table 4-7. -/
def decodeS (w : W32) : Except DecodeReject Instr :=
  match w.toNat / 2 ^ 20 % 64 with
  | 0x01 => .ok (.atadd (fld w 26 5) (fld w 14 6) (fld w 8 6) (fld w 2 6) (fld w 0 1))
  | 0x02 => .ok (.atand (fld w 26 5) (fld w 14 6) (fld w 8 6) (fld w 2 6) (fld w 0 1))
  | 0x03 => .ok (.ator (fld w 26 5) (fld w 14 6) (fld w 8 6) (fld w 2 6) (fld w 0 1))
  | 0x04 => .ok (.atxor (fld w 26 5) (fld w 14 6) (fld w 8 6) (fld w 2 6) (fld w 0 1))
  | 0x05 => .ok (.atmin (fld w 26 5) (fld w 14 6) (fld w 8 6) (fld w 2 6) (fld w 0 1))
  | 0x06 => .ok (.atmax (fld w 26 5) (fld w 14 6) (fld w 8 6) (fld w 2 6) (fld w 0 1))
  | 0x07 => .ok (.atminu (fld w 26 5) (fld w 14 6) (fld w 8 6) (fld w 2 6) (fld w 0 1))
  | 0x08 => .ok (.atmaxu (fld w 26 5) (fld w 14 6) (fld w 8 6) (fld w 2 6) (fld w 0 1))
  | 0x09 => .ok (.atswp (fld w 26 5) (fld w 14 6) (fld w 8 6) (fld w 2 6) (fld w 0 1))
  | 0x0A => .ok (.atcas (fld w 26 5) (fld w 14 6) (fld w 8 6) (fld w 2 6) (fld w 0 1))
  | 0x0B => .ok (.atcas16 (fld w 26 5) (fld w 14 6) (fld w 8 6) (fld w 2 6))
  | 0x0C => .ok (.atfadd (fld w 26 5) (fld w 14 6) (fld w 8 6) (fld w 2 6))
  | 0x0D => if bit w 0 then .ok (.aredOrd (fld w 26 5) (fld w 8 6) (fld w 2 6)) else .error (.jobField (guardOf w))
  | 0x10 => .ok (.ldS (fld w 26 5) (fld w 14 6) (fld w 8 6) (fld w 2 6) (fld w 0 1))
  | 0x11 => .ok (.stS (fld w 26 5) (fld w 14 6) (fld w 8 6) (fld w 2 6))
  | 0x14 => .ok (.bar (fld w 26 5))
  | 0x15 => .ok (.kbar (fld w 26 5))
  | 0x18 => .ok (.launch (fld w 26 5) (fld w 14 6) (fld w 8 6) (fld w 2 6))
  | 0x19 => .ok (.kwait (fld w 26 5) (fld w 14 6) (fld w 8 6))
  | 0x1A => .ok (.kstat (fld w 26 5) (fld w 14 6) (fld w 8 6))
  | 0x1C => .ok (.qrd (fld w 26 5) (fld w 14 6) (fld w 8 6))
  | 0x1D => .ok (.qwr (fld w 26 5) (fld w 8 6) (fld w 2 6))
  | 0x1E => .ok (.cxrd (fld w 26 5) (fld w 14 6) (fld w 8 6))
  | 0x1F => .ok (.cxwr (fld w 26 5) (fld w 8 6) (fld w 2 6))
  | 0x20 => .ok (.trrd (fld w 26 5) (fld w 14 6) (fld w 8 6))
  | 0x21 => .ok (.trwr (fld w 26 5) (fld w 8 6) (fld w 2 6))
  | 0x24 => .ok (.pcrd (fld w 26 5) (fld w 14 6) (fld w 8 6))
  | 0x25 => .ok (.eclr (fld w 26 5) (fld w 8 6) (fld w 2 6))
  | 0x28 => .ok (.npbeg (fld w 26 5) (fld w 8 6))
  | 0x29 => .ok (.npend (fld w 26 5))
  | 0x2C => .ok (.qsig (fld w 26 5) (fld w 8 6))
  | _ => .error (.unassignedPrivate (guardOf w))

/-- Table 4-8 with the function codes of Table 4-9. -/
def decodeV (w : W32) : Except DecodeReject Instr :=
  match w.toNat / 2 ^ 20 % 64 with
  | 0x01 => .ok (.vadd (fld w 26 5) (fld w 14 6) (fld w 8 6) (fld w 2 6) (fld w 1 1))
  | 0x02 => .ok (.vsub (fld w 26 5) (fld w 14 6) (fld w 8 6) (fld w 2 6) (fld w 1 1))
  | 0x03 => .ok (.vmul (fld w 26 5) (fld w 14 6) (fld w 8 6) (fld w 2 6) (fld w 1 1))
  | 0x04 => .ok (.vfma (fld w 26 5) (fld w 14 6) (fld w 8 6) (fld w 2 6) (fld w 1 1))
  | 0x05 => .ok (.vfms (fld w 26 5) (fld w 14 6) (fld w 8 6) (fld w 2 6) (fld w 1 1))
  | 0x06 => .ok (.vmin (fld w 26 5) (fld w 14 6) (fld w 8 6) (fld w 2 6) (fld w 1 1))
  | 0x07 => .ok (.vmax (fld w 26 5) (fld w 14 6) (fld w 8 6) (fld w 2 6) (fld w 1 1))
  | 0x08 => .ok (.vabs (fld w 26 5) (fld w 14 6) (fld w 8 6) (fld w 1 1))
  | 0x09 => .ok (.vneg (fld w 26 5) (fld w 14 6) (fld w 8 6) (fld w 1 1))
  | 0x0A => .ok (.vand (fld w 26 5) (fld w 14 6) (fld w 8 6) (fld w 2 6) (fld w 1 1))
  | 0x0B => .ok (.vor (fld w 26 5) (fld w 14 6) (fld w 8 6) (fld w 2 6) (fld w 1 1))
  | 0x0C => .ok (.vxor (fld w 26 5) (fld w 14 6) (fld w 8 6) (fld w 2 6) (fld w 1 1))
  | 0x0D => .ok (.vshl (fld w 26 5) (fld w 14 6) (fld w 8 6) (fld w 2 6) (fld w 1 1))
  | 0x0E => .ok (.vshr (fld w 26 5) (fld w 14 6) (fld w 8 6) (fld w 2 6) (fld w 1 1))
  | 0x0F => .ok (.vsra (fld w 26 5) (fld w 14 6) (fld w 8 6) (fld w 2 6) (fld w 1 1))
  | 0x10 => .ok (.vmulh (fld w 26 5) (fld w 14 6) (fld w 8 6) (fld w 2 6) (fld w 1 1))
  | 0x11 => .ok (.vadds (fld w 26 5) (fld w 14 6) (fld w 8 6) (fld w 2 6) (fld w 1 1))
  | 0x12 => .ok (.vsubs (fld w 26 5) (fld w 14 6) (fld w 8 6) (fld w 2 6) (fld w 1 1))
  | 0x14 =>
    match (fld w 2 6).toNat with
    | 0 => .ok (.vexp2 (fld w 26 5) (fld w 14 6) (fld w 8 6) (fld w 1 1))
    | 1 => .ok (.vlog2 (fld w 26 5) (fld w 14 6) (fld w 8 6) (fld w 1 1))
    | 2 => .ok (.vrcp (fld w 26 5) (fld w 14 6) (fld w 8 6) (fld w 1 1))
    | 3 => .ok (.vrsq (fld w 26 5) (fld w 14 6) (fld w 8 6) (fld w 1 1))
    | 4 => .ok (.vsinpi (fld w 26 5) (fld w 14 6) (fld w 8 6) (fld w 1 1))
    | 5 => .ok (.vcospi (fld w 26 5) (fld w 14 6) (fld w 8 6) (fld w 1 1))
    | 6 => .ok (.vtanh (fld w 26 5) (fld w 14 6) (fld w 8 6) (fld w 1 1))
    | _ => .error (.vFunction (guardOf w) false (fld w 14 6) (fld w 8 6))
  | 0x15 => .ok (.vcmp (fld w 26 5) (fld w 18 2) (fld w 14 4) (fld w 8 6) (fld w 2 6) (fld w 1 1) (fld w 0 1))
  | 0x16 => .ok (.vsel (fld w 26 5) (fld w 14 6) (fld w 8 6) (fld w 2 6) (fld w 1 1))
  | 0x17 => .ok (.vpand (fld w 26 5) (fld w 14 6) (fld w 8 6) (fld w 2 6) (fld w 0 1))
  | 0x18 => .ok (.vpor (fld w 26 5) (fld w 14 6) (fld w 8 6) (fld w 2 6) (fld w 0 1))
  | 0x19 => .ok (.vpxor (fld w 26 5) (fld w 14 6) (fld w 8 6) (fld w 2 6) (fld w 0 1))
  | 0x1A => .ok (.vany (fld w 26 5) (fld w 14 4) (fld w 8 6) (fld w 0 1))
  | 0x1B => .ok (.vall (fld w 26 5) (fld w 14 4) (fld w 8 6) (fld w 0 1))
  | 0x1C => .ok (.vcvt (fld w 26 5) (fld w 14 6) (fld w 8 6) (fld w 2 5) (fld w 1 1))
  | 0x1D => .ok (.vcvts (fld w 26 5) (fld w 14 6) (fld w 8 6) (fld w 2 6) (fld w 1 1))
  | 0x1E => .ok (.vquant (fld w 26 5) (fld w 14 6) (fld w 8 6) (fld w 2 6) (fld w 1 1))
  | 0x1F =>
    match (fld w 2 6).toNat with
    | 0 => .ok (.vrsum (fld w 26 5) (fld w 14 6) (fld w 8 6) (fld w 1 1))
    | 1 => .ok (.vcsum (fld w 26 5) (fld w 14 6) (fld w 8 6) (fld w 1 1))
    | 2 => .ok (.vrmax (fld w 26 5) (fld w 14 6) (fld w 8 6) (fld w 1 1))
    | 3 => .ok (.vcmax (fld w 26 5) (fld w 14 6) (fld w 8 6) (fld w 1 1))
    | 4 => .ok (.vrmin (fld w 26 5) (fld w 14 6) (fld w 8 6) (fld w 1 1))
    | 5 => .ok (.vcmin (fld w 26 5) (fld w 14 6) (fld w 8 6) (fld w 1 1))
    | _ => .error (.vFunction (guardOf w) true (fld w 14 6) (fld w 8 6))
  | 0x20 => .ok (.vperm (fld w 26 5) (fld w 14 6) (fld w 8 6) (fld w 2 6) (fld w 1 1))
  | 0x21 => .ok (.vbcr (fld w 26 5) (fld w 14 6) (fld w 8 6) (fld w 2 6) (fld w 1 1))
  | 0x22 => .ok (.vbcc (fld w 26 5) (fld w 14 6) (fld w 8 6) (fld w 2 6) (fld w 1 1))
  | 0x23 => .ok (.vtrn (fld w 26 5) (fld w 14 6) (fld w 8 6) (fld w 1 1))
  | 0x24 => .ok (.vmov (fld w 26 5) (fld w 14 6) (fld w 8 6) (fld w 1 1))
  | 0x25 => .ok (.vbcs (fld w 26 5) (fld w 14 6) (fld w 8 6))
  | 0x26 => .ok (.vld (fld w 26 5) (fld w 14 6) (fld w 8 6))
  | 0x27 => .ok (.vst (fld w 26 5) (fld w 8 6) (fld w 2 6) (fld w 1 1))
  | 0x28 => .ok (.vldm (fld w 26 5) (fld w 14 6) (fld w 8 6))
  | 0x29 => .ok (.vstm (fld w 26 5) (fld w 8 6) (fld w 2 6) (fld w 1 1))
  | 0x2A => .ok (.vgath (fld w 26 5) (fld w 14 6) (fld w 8 6) (fld w 2 6) (fld w 1 1))
  | 0x2B => .ok (.vscat (fld w 26 5) (fld w 14 6) (fld w 8 6) (fld w 2 6) (fld w 1 1))
  | 0x2C => .ok (.vrand (fld w 26 5) (fld w 14 6) (fld w 8 6) (fld w 2 6))
  | 0x2D => .ok (.vbucket (fld w 26 5) (fld w 14 6) (fld w 8 6) (fld w 2 6) (fld w 1 1))
  | 0x2E => .ok (.ecnt (fld w 26 5) (fld w 14 6) (fld w 8 6))
  | 0x2F => .ok (.vshape (fld w 26 5) (fld w 8 6))
  | 0x30 => .ok (.dnorm (fld w 26 5) (fld w 14 6) (fld w 8 6) (fld w 1 1))
  | 0x31 => .ok (.dexp (fld w 26 5) (fld w 14 6) (fld w 8 6) (fld w 0 1))
  | 0x32 => .ok (.ddot (fld w 26 5) (fld w 14 6) (fld w 8 6) (fld w 2 6) (fld w 0 1))
  | 0x33 => .ok (.ddotm (fld w 26 5) (fld w 14 6) (fld w 8 6) (fld w 2 6))
  | 0x34 => .ok (.dscale (fld w 26 5) (fld w 14 6) (fld w 8 6) (fld w 2 6))
  | 0x35 => .ok (.dadd (fld w 26 5) (fld w 14 6) (fld w 8 6) (fld w 2 6))
  | 0x36 => .ok (.dsub (fld w 26 5) (fld w 14 6) (fld w 8 6) (fld w 2 6))
  | 0x37 => .ok (.dneg (fld w 26 5) (fld w 14 6) (fld w 8 6))
  | 0x38 => .ok (.dmovn (fld w 26 5) (fld w 14 6) (fld w 8 6))
  | 0x39 => .ok (.dsetn (fld w 26 5) (fld w 14 6) (fld w 8 6))
  | 0x3A => .ok (.dtest (fld w 26 5) (fld w 14 6) (fld w 8 6))
  | 0x3B => .ok (.vpmov (fld w 26 5) (fld w 14 6) (fld w 8 6) (fld w 0 1))
  | _ => .error (.unassignedPrivate (guardOf w))

/-- Table 4-10; `p` is the payload word after a long form. -/
def decodeM (w p : W32) : Except DecodeReject Instr :=
  match w.toNat / 2 ^ 20 % 64 with
  | 0x05 => if p.toNat / 2 ^ 28 = 0xD then .ok (.mma (fld w 26 5) (fld w 8 6) (fld w 2 6) (fld w 1 1) (fld w 0 1) (fld p 24 4) (fld p 19 5) (fld p 14 5) (fld p 0 14)) else .error (.payloadKind (guardOf w))
  | 0x01 => .ok (.mlda (fld w 26 5) (fld w 8 6) (fld w 1 1))
  | 0x02 => .ok (.mldb (fld w 26 5) (fld w 8 6) (fld w 1 1))
  | 0x03 => .ok (.mldas (fld w 26 5) (fld w 8 6))
  | 0x04 => .ok (.mldbs (fld w 26 5) (fld w 8 6))
  | 0x06 => .ok (.mzero (fld w 26 5))
  | 0x07 => .ok (.mshift (fld w 26 5) (fld w 14 6) (fld w 8 6))
  | 0x08 => .ok (.mwaitf (fld w 26 5))
  | 0x09 => .ok (.mspill (fld w 26 5) (fld w 14 6))
  | 0x0A => .ok (.mfill (fld w 26 5) (fld w 8 6))
  | 0x0B => .ok (.mcfg (fld w 26 5) (fld w 8 6))
  | 0x0C => .ok (.mstat (fld w 26 5) (fld w 14 6))
  | _ => .error (.unassignedPrivate (guardOf w))

/-- Table 4-11; `p` is the payload word after a long form (Table 4-3). -/
def decodeX (w p : W32) : Except DecodeReject Instr :=
  match w.toNat / 2 ^ 20 % 64 with
  | 0x01 => if p.toNat / 2 ^ 28 = 0xE then .ok (.xcopy (fld w 26 5) (fld w 14 6) (fld w 8 6) (fld w 2 6) (fld p 22 6) (fld p 20 2) (fld p 18 2) (fld p 17 1) (fld p 0 16)) else .error (.payloadKind (guardOf w))
  | 0x02 => if p.toNat / 2 ^ 28 = 0xE then .ok (.xfill (fld w 26 5) (fld w 14 6) (fld w 8 6) (fld w 2 6) (fld p 22 6) (fld p 20 2) (fld p 18 2) (fld p 17 1) (fld p 0 16)) else .error (.payloadKind (guardOf w))
  | 0x03 => if p.toNat / 2 ^ 28 = 0xE then .ok (.xdrain (fld w 26 5) (fld w 14 6) (fld w 8 6) (fld w 2 6) (fld p 22 6) (fld p 20 2) (fld p 18 2) (fld p 17 1) (fld p 0 16)) else .error (.payloadKind (guardOf w))
  | 0x06 =>
    if p.toNat / 2 ^ 28 = 0xC then
      match p.toNat / 2 ^ 20 % 4 with
      | 0 => .ok (.xallred (fld w 26 5) (fld w 14 6) (fld w 8 6) (fld w 2 6) (fld p 22 6) (fld p 15 5) (fld p 12 3) (fld p 0 12))
      | 1 => .ok (.xallgath (fld w 26 5) (fld w 14 6) (fld w 8 6) (fld w 2 6) (fld p 22 6) (fld p 15 5) (fld p 12 3) (fld p 0 12))
      | 2 => .ok (.xredscat (fld w 26 5) (fld w 14 6) (fld w 8 6) (fld w 2 6) (fld p 22 6) (fld p 15 5) (fld p 12 3) (fld p 0 12))
      | _ => .ok (.xall2all (fld w 26 5) (fld w 14 6) (fld w 8 6) (fld w 2 6) (fld p 22 6) (fld p 15 5) (fld p 12 3) (fld p 0 12))
    else .error (.payloadKind (guardOf w))
  | 0x07 =>
    if p.toNat / 2 ^ 28 = 0xB then
      (if bit w 0 then .ok (.xfetchTry (fld w 26 5) (fld w 14 6) (fld w 8 6) (fld w 2 6) (fld p 22 6) (fld p 0 20)) else .ok (.xfetch (fld w 26 5) (fld w 14 6) (fld w 8 6) (fld w 2 6) (fld p 22 6) (fld p 0 20)))
    else .error (.payloadKind (guardOf w))
  | 0x04 => .ok (.xgath (fld w 26 5) (fld w 14 6) (fld w 8 6) (fld w 2 6))
  | 0x05 => .ok (.xscat (fld w 26 5) (fld w 14 6) (fld w 8 6) (fld w 2 6))
  | 0x08 => .ok (.xpref (fld w 26 5) (fld w 8 6) (fld w 2 6))
  | 0x09 => .ok (.xtclr (fld w 26 5) (fld w 8 6))
  | 0x0A => .ok (.xtst (fld w 26 5) (fld w 14 6) (fld w 8 6))
  | _ => .error (.unassignedPrivate (guardOf w))

/-- R95: bit 31 divides the space; `p` is the word that follows. -/
def decodeWord (e : Engine) (w p : W32) : Except DecodeReject Instr :=
  if w.toNat < 2 ^ 31 then decodeShared w
  else match e with
    | .S => decodeS w
    | .V => decodeV w
    | .M => decodeM w p
    | .X => decodeX w p

/-- Whether a first word is that of a long form in an engine (R106). -/
def isLongWord (e : Engine) (w : W32) : Bool :=
  decide (2 ^ 31 ≤ w.toNat) &&
    match e with
    | .M => w.toNat / 2 ^ 20 % 64 == 0x05
    | .X =>
      let op := w.toNat / 2 ^ 20 % 64
      op == 1 || op == 2 || op == 3 || op == 6 || op == 7
    | _ => false

/-- A little-endian word of bytes (R3); missing bytes read as zero. -/
def wordOfBytes (bs : List Byte) : W32 :=
  BitVec.ofNat 32 (((bs.getD 3 0).toNat * 256 + (bs.getD 2 0).toNat) * 256 * 256 + (bs.getD 1 0).toNat * 256 + (bs.getD 0 0).toNat)

/-- Decoding of the bytes at a stream's program counter, with the length in bytes. -/
def decodeBytes (e : Engine) (bs : List Byte) : Except DecodeReject (Instr × Nat) :=
  if bs.length < 4 then .error .truncated
  else
    match decodeWord e (wordOfBytes bs) (wordOfBytes (bs.drop 4)) with
    | .ok i => .ok (i, if isLongWord e (wordOfBytes bs) then 8 else 4)
    | .error r => .error r

/-- The sum of a base and of fields at their lowest bits. -/
def placeSum : Nat → List (Nat × Nat) → Nat
  | base, [] => base
  | base, (x, lo) :: rest => placeSum (base + x * 2 ^ lo) rest

/-- A word from its fixed bits and its fields. -/
def place (base : Nat) (fields : List (Nat × Nat)) : W32 := BitVec.ofNat 32 (placeSum base fields)

/-- The words of an instruction; none for an event, which has no encoding. -/
def encode : Instr → Option (List W32)
  | .add d a b => some [place 0x01000000 [(d.toNat, 18), (a.toNat, 12), (b.toNat, 6)]]
  | .sub d a b => some [place 0x02000000 [(d.toNat, 18), (a.toNat, 12), (b.toNat, 6)]]
  | .mul d a b => some [place 0x03000000 [(d.toNat, 18), (a.toNat, 12), (b.toNat, 6)]]
  | .mulh d a b => some [place 0x04000000 [(d.toNat, 18), (a.toNat, 12), (b.toNat, 6)]]
  | .mulhu d a b => some [place 0x04000001 [(d.toNat, 18), (a.toNat, 12), (b.toNat, 6)]]
  | .div d a b => some [place 0x05000000 [(d.toNat, 18), (a.toNat, 12), (b.toNat, 6)]]
  | .divu d a b => some [place 0x05000001 [(d.toNat, 18), (a.toNat, 12), (b.toNat, 6)]]
  | .rem d a b => some [place 0x06000000 [(d.toNat, 18), (a.toNat, 12), (b.toNat, 6)]]
  | .remu d a b => some [place 0x06000001 [(d.toNat, 18), (a.toNat, 12), (b.toNat, 6)]]
  | .and d a b => some [place 0x07000000 [(d.toNat, 18), (a.toNat, 12), (b.toNat, 6)]]
  | .or d a b => some [place 0x08000000 [(d.toNat, 18), (a.toNat, 12), (b.toNat, 6)]]
  | .xor d a b => some [place 0x09000000 [(d.toNat, 18), (a.toNat, 12), (b.toNat, 6)]]
  | .shl d a b => some [place 0x0A000000 [(d.toNat, 18), (a.toNat, 12), (b.toNat, 6)]]
  | .shr d a b => some [place 0x0B000000 [(d.toNat, 18), (a.toNat, 12), (b.toNat, 6)]]
  | .sra d a b => some [place 0x0C000000 [(d.toNat, 18), (a.toNat, 12), (b.toNat, 6)]]
  | .min d a b => some [place 0x0D000000 [(d.toNat, 18), (a.toNat, 12), (b.toNat, 6)]]
  | .minu d a b => some [place 0x0D000001 [(d.toNat, 18), (a.toNat, 12), (b.toNat, 6)]]
  | .max d a b => some [place 0x0E000000 [(d.toNat, 18), (a.toNat, 12), (b.toNat, 6)]]
  | .maxu d a b => some [place 0x0E000001 [(d.toNat, 18), (a.toNat, 12), (b.toNat, 6)]]
  | .sel d a b p => some [place 0x0F000000 [(d.toNat, 18), (a.toNat, 12), (b.toNat, 6), (p.toNat, 0)]]
  | .addi d a imm => some [place 0x10000000 [(d.toNat, 18), (a.toNat, 12), (imm.toNat, 0)]]
  | .andi d a imm => some [place 0x11000000 [(d.toNat, 18), (a.toNat, 12), (imm.toNat, 0)]]
  | .ori d a imm => some [place 0x12000000 [(d.toNat, 18), (a.toNat, 12), (imm.toNat, 0)]]
  | .xori d a imm => some [place 0x13000000 [(d.toNat, 18), (a.toNat, 12), (imm.toNat, 0)]]
  | .shli d a imm => some [place 0x14000000 [(d.toNat, 18), (a.toNat, 12), (imm.toNat, 0)]]
  | .shri d a imm => some [place 0x15000000 [(d.toNat, 18), (a.toNat, 12), (imm.toNat, 0)]]
  | .srai d a imm => some [place 0x16000000 [(d.toNat, 18), (a.toNat, 12), (imm.toNat, 0)]]
  | .muli d a imm => some [place 0x17000000 [(d.toNat, 18), (a.toNat, 12), (imm.toNat, 0)]]
  | .li d imm => some [place 0x18000000 [(d.toNat, 18), (imm.toNat, 0)]]
  | .lih d imm => some [place 0x19000000 [(d.toNat, 18), (imm.toNat, 0)]]
  | .adda d a b => some [place 0x1A000000 [(d.toNat, 18), (a.toNat, 12), (b.toNat, 6)]]
  | .addai d a imm => some [place 0x1B000000 [(d.toNat, 18), (a.toNat, 12), (imm.toNat, 0)]]
  | .mova d a => some [place 0x1C000000 [(d.toNat, 18), (a.toNat, 12)]]
  | .movs d a => some [place 0x1D000000 [(d.toNat, 18), (a.toNat, 12)]]
  | .cmp c p a b => some [place 0x20000000 [(c.toNat, 22), (p.toNat, 18), (a.toNat, 12), (b.toNat, 6)]]
  | .cmpi c p a imm => some [place 0x21000000 [(c.toNat, 22), (p.toNat, 18), (a.toNat, 12), (imm.toNat, 0)]]
  | .pand d a b => some [place 0x22000000 [(d.toNat, 18), (a.toNat, 12), (b.toNat, 6)]]
  | .por d a b => some [place 0x23000000 [(d.toNat, 18), (a.toNat, 12), (b.toNat, 6)]]
  | .pxor d a b => some [place 0x24000000 [(d.toNat, 18), (a.toNat, 12), (b.toNat, 6)]]
  | .pandn d a b => some [place 0x25000000 [(d.toNat, 18), (a.toNat, 12), (b.toNat, 6)]]
  | .ptgt t imm => some [place 0x28000000 [(t.toNat, 21), (imm.toNat, 0)]]
  | .ptgtr t a => some [place 0x29000000 [(t.toNat, 18), (a.toNat, 12)]]
  | .j t => some [place 0x2A000000 [(t.toNat, 21)]]
  | .jt t p => some [place 0x2B000000 [(t.toNat, 21), (p.toNat, 17)]]
  | .jf t p => some [place 0x2C000000 [(t.toNat, 21), (p.toNat, 17)]]
  | .call t => some [place 0x2D000000 [(t.toNat, 21)]]
  | .ret => some [place 0x2E000000 []]
  | .loop d l => some [place 0x2F000000 [(d.toNat, 18), (l.toNat, 12)]]
  | .loopi l n => some [place 0x30000000 [(l.toNat, 18), (n.toNat, 0)]]
  | .endl => some [place 0x31000000 []]
  | .endlRot => some [place 0x31000001 []]
  | .ld sr a z o => some [place 0x38000000 [(sr.toNat, 18), (a.toNat, 14), (z.toNat, 12), (o.toNat, 0)]]
  | .ldu sr a z o => some [place 0x39000000 [(sr.toNat, 18), (a.toNat, 14), (z.toNat, 12), (o.toNat, 0)]]
  | .st sr a z o => some [place 0x3A000000 [(sr.toNat, 18), (a.toNat, 14), (z.toNat, 12), (o.toNat, 0)]]
  | .ldsp sr a z o => some [place 0x3B000000 [(sr.toNat, 18), (a.toNat, 14), (z.toNat, 12), (o.toNat, 0)]]
  | .ldspu sr a z o => some [place 0x3C000000 [(sr.toNat, 18), (a.toNat, 14), (z.toNat, 12), (o.toNat, 0)]]
  | .stsp sr a z o => some [place 0x3D000000 [(sr.toNat, 18), (a.toNat, 14), (z.toNat, 12), (o.toNat, 0)]]
  | .gres g p => some [place 0x40000000 [(g.toNat, 18), (p.toNat, 12)]]
  | .gset g v => some [place 0x41000000 [(g.toNat, 18), (v.toNat, 0)]]
  | .gmaskT m => some [place 0x42040000 [(m.toNat, 0)]]
  | .gmaskF m => some [place 0x42000000 [(m.toNat, 0)]]
  | .gclr m => some [place 0x43000000 [(m.toNat, 0)]]
  | .chcfg c a b => some [place 0x44000000 [(c.toNat, 18), (a.toNat, 12), (b.toNat, 6)]]
  | .chwaitFull c n => some [place 0x45000000 [(c.toNat, 18), (n.toNat, 0)]]
  | .chwaitFree c n => some [place 0x45400000 [(c.toNat, 18), (n.toNat, 0)]]
  | .chadvCons c n => some [place 0x46000000 [(c.toNat, 18), (n.toNat, 0)]]
  | .chadvProd c n => some [place 0x46400000 [(c.toNat, 18), (n.toNat, 0)]]
  | .chrst c => some [place 0x47000000 [(c.toNat, 18)]]
  | .semsig sr n => some [place 0x48000000 [(sr.toNat, 18), (n.toNat, 0)]]
  | .semwait sr n => some [place 0x49000000 [(sr.toNat, 18), (n.toNat, 0)]]
  | .twait t => some [place 0x4A000000 [(t.toNat, 0)]]
  | .ttest p t => some [place 0x4B000000 [(p.toNat, 18), (t.toNat, 0)]]
  | .tffr d a => some [place 0x4C000000 [(d.toNat, 18), (a.toNat, 12)]]
  | .vcwait a imm => some [place 0x4D000000 [(a.toNat, 12), (imm.toNat, 0)]]
  | .cbwait a => some [place 0x4E000000 [(a.toNat, 12)]]
  | .cbtest p a => some [place 0x4F000000 [(p.toNat, 18), (a.toNat, 12)]]
  | .phaseG => some [place 0x50000001 []]
  | .phaseK => some [place 0x50000002 []]
  | .phaseX => some [place 0x50000003 []]
  | .fence l e => some [place 0x51000000 [(l.toNat, 4), (e.toNat, 0)]]
  | .rdv => some [place 0x52000000 []]
  | .iflush => some [place 0x53000000 []]
  | .trap imm => some [place 0x54000000 [(imm.toNat, 0)]]
  | .eret => some [place 0x55000000 []]
  | .eretAt a => some [place 0x55000001 [(a.toNat, 12)]]
  | .rdst d sr => some [place 0x56000000 [(d.toNat, 18), (sr.toNat, 0)]]
  | .wrst a sr => some [place 0x57000000 [(a.toNat, 12), (sr.toNat, 0)]]
  | .nop => some [place 0x70000000 []]
  | .hint k imm => some [place 0x70000000 [(k.toNat, 24), (imm.toNat, 0)]]
  | .atadd g d a b w => some [place 0x80100000 [(g.toNat, 26), (d.toNat, 14), (a.toNat, 8), (b.toNat, 2), (w.toNat, 0)]]
  | .atand g d a b w => some [place 0x80200000 [(g.toNat, 26), (d.toNat, 14), (a.toNat, 8), (b.toNat, 2), (w.toNat, 0)]]
  | .ator g d a b w => some [place 0x80300000 [(g.toNat, 26), (d.toNat, 14), (a.toNat, 8), (b.toNat, 2), (w.toNat, 0)]]
  | .atxor g d a b w => some [place 0x80400000 [(g.toNat, 26), (d.toNat, 14), (a.toNat, 8), (b.toNat, 2), (w.toNat, 0)]]
  | .atmin g d a b w => some [place 0x80500000 [(g.toNat, 26), (d.toNat, 14), (a.toNat, 8), (b.toNat, 2), (w.toNat, 0)]]
  | .atmax g d a b w => some [place 0x80600000 [(g.toNat, 26), (d.toNat, 14), (a.toNat, 8), (b.toNat, 2), (w.toNat, 0)]]
  | .atminu g d a b w => some [place 0x80700000 [(g.toNat, 26), (d.toNat, 14), (a.toNat, 8), (b.toNat, 2), (w.toNat, 0)]]
  | .atmaxu g d a b w => some [place 0x80800000 [(g.toNat, 26), (d.toNat, 14), (a.toNat, 8), (b.toNat, 2), (w.toNat, 0)]]
  | .atswp g d a b w => some [place 0x80900000 [(g.toNat, 26), (d.toNat, 14), (a.toNat, 8), (b.toNat, 2), (w.toNat, 0)]]
  | .atcas g d a b w => some [place 0x80A00000 [(g.toNat, 26), (d.toNat, 14), (a.toNat, 8), (b.toNat, 2), (w.toNat, 0)]]
  | .atcas16 g d a b => some [place 0x80B00000 [(g.toNat, 26), (d.toNat, 14), (a.toNat, 8), (b.toNat, 2)]]
  | .atfadd g d a b => some [place 0x80C00000 [(g.toNat, 26), (d.toNat, 14), (a.toNat, 8), (b.toNat, 2)]]
  | .aredOrd g a b => some [place 0x80D00001 [(g.toNat, 26), (a.toNat, 8), (b.toNat, 2)]]
  | .ldS g d a z x => some [place 0x81000000 [(g.toNat, 26), (d.toNat, 14), (a.toNat, 8), (z.toNat, 2), (x.toNat, 0)]]
  | .stS g d a z => some [place 0x81100000 [(g.toNat, 26), (d.toNat, 14), (a.toNat, 8), (z.toNat, 2)]]
  | .bar g => some [place 0x81400000 [(g.toNat, 26)]]
  | .kbar g => some [place 0x81500000 [(g.toNat, 26)]]
  | .launch g d a b => some [place 0x81800000 [(g.toNat, 26), (d.toNat, 14), (a.toNat, 8), (b.toNat, 2)]]
  | .kwait g d a => some [place 0x81900000 [(g.toNat, 26), (d.toNat, 14), (a.toNat, 8)]]
  | .kstat g d a => some [place 0x81A00000 [(g.toNat, 26), (d.toNat, 14), (a.toNat, 8)]]
  | .qrd g d a => some [place 0x81C00000 [(g.toNat, 26), (d.toNat, 14), (a.toNat, 8)]]
  | .qwr g a b => some [place 0x81D00000 [(g.toNat, 26), (a.toNat, 8), (b.toNat, 2)]]
  | .cxrd g d a => some [place 0x81E00000 [(g.toNat, 26), (d.toNat, 14), (a.toNat, 8)]]
  | .cxwr g a b => some [place 0x81F00000 [(g.toNat, 26), (a.toNat, 8), (b.toNat, 2)]]
  | .trrd g d a => some [place 0x82000000 [(g.toNat, 26), (d.toNat, 14), (a.toNat, 8)]]
  | .trwr g a b => some [place 0x82100000 [(g.toNat, 26), (a.toNat, 8), (b.toNat, 2)]]
  | .pcrd g d a => some [place 0x82400000 [(g.toNat, 26), (d.toNat, 14), (a.toNat, 8)]]
  | .eclr g a b => some [place 0x82500000 [(g.toNat, 26), (a.toNat, 8), (b.toNat, 2)]]
  | .npbeg g a => some [place 0x82800000 [(g.toNat, 26), (a.toNat, 8)]]
  | .npend g => some [place 0x82900000 [(g.toNat, 26)]]
  | .qsig g a => some [place 0x82C00000 [(g.toNat, 26), (a.toNat, 8)]]
  | .vadd g d a b p => some [place 0x80100000 [(g.toNat, 26), (d.toNat, 14), (a.toNat, 8), (b.toNat, 2), (p.toNat, 1)]]
  | .vsub g d a b p => some [place 0x80200000 [(g.toNat, 26), (d.toNat, 14), (a.toNat, 8), (b.toNat, 2), (p.toNat, 1)]]
  | .vmul g d a b p => some [place 0x80300000 [(g.toNat, 26), (d.toNat, 14), (a.toNat, 8), (b.toNat, 2), (p.toNat, 1)]]
  | .vfma g d a b p => some [place 0x80400000 [(g.toNat, 26), (d.toNat, 14), (a.toNat, 8), (b.toNat, 2), (p.toNat, 1)]]
  | .vfms g d a b p => some [place 0x80500000 [(g.toNat, 26), (d.toNat, 14), (a.toNat, 8), (b.toNat, 2), (p.toNat, 1)]]
  | .vmin g d a b p => some [place 0x80600000 [(g.toNat, 26), (d.toNat, 14), (a.toNat, 8), (b.toNat, 2), (p.toNat, 1)]]
  | .vmax g d a b p => some [place 0x80700000 [(g.toNat, 26), (d.toNat, 14), (a.toNat, 8), (b.toNat, 2), (p.toNat, 1)]]
  | .vabs g d a p => some [place 0x80800000 [(g.toNat, 26), (d.toNat, 14), (a.toNat, 8), (p.toNat, 1)]]
  | .vneg g d a p => some [place 0x80900000 [(g.toNat, 26), (d.toNat, 14), (a.toNat, 8), (p.toNat, 1)]]
  | .vand g d a b p => some [place 0x80A00000 [(g.toNat, 26), (d.toNat, 14), (a.toNat, 8), (b.toNat, 2), (p.toNat, 1)]]
  | .vor g d a b p => some [place 0x80B00000 [(g.toNat, 26), (d.toNat, 14), (a.toNat, 8), (b.toNat, 2), (p.toNat, 1)]]
  | .vxor g d a b p => some [place 0x80C00000 [(g.toNat, 26), (d.toNat, 14), (a.toNat, 8), (b.toNat, 2), (p.toNat, 1)]]
  | .vshl g d a b p => some [place 0x80D00000 [(g.toNat, 26), (d.toNat, 14), (a.toNat, 8), (b.toNat, 2), (p.toNat, 1)]]
  | .vshr g d a b p => some [place 0x80E00000 [(g.toNat, 26), (d.toNat, 14), (a.toNat, 8), (b.toNat, 2), (p.toNat, 1)]]
  | .vsra g d a b p => some [place 0x80F00000 [(g.toNat, 26), (d.toNat, 14), (a.toNat, 8), (b.toNat, 2), (p.toNat, 1)]]
  | .vmulh g d a b p => some [place 0x81000000 [(g.toNat, 26), (d.toNat, 14), (a.toNat, 8), (b.toNat, 2), (p.toNat, 1)]]
  | .vadds g d a b p => some [place 0x81100000 [(g.toNat, 26), (d.toNat, 14), (a.toNat, 8), (b.toNat, 2), (p.toNat, 1)]]
  | .vsubs g d a b p => some [place 0x81200000 [(g.toNat, 26), (d.toNat, 14), (a.toNat, 8), (b.toNat, 2), (p.toNat, 1)]]
  | .vexp2 g d a p => some [place 0x81400000 [(g.toNat, 26), (d.toNat, 14), (a.toNat, 8), (p.toNat, 1)]]
  | .vlog2 g d a p => some [place 0x81400004 [(g.toNat, 26), (d.toNat, 14), (a.toNat, 8), (p.toNat, 1)]]
  | .vrcp g d a p => some [place 0x81400008 [(g.toNat, 26), (d.toNat, 14), (a.toNat, 8), (p.toNat, 1)]]
  | .vrsq g d a p => some [place 0x8140000C [(g.toNat, 26), (d.toNat, 14), (a.toNat, 8), (p.toNat, 1)]]
  | .vsinpi g d a p => some [place 0x81400010 [(g.toNat, 26), (d.toNat, 14), (a.toNat, 8), (p.toNat, 1)]]
  | .vcospi g d a p => some [place 0x81400014 [(g.toNat, 26), (d.toNat, 14), (a.toNat, 8), (p.toNat, 1)]]
  | .vtanh g d a p => some [place 0x81400018 [(g.toNat, 26), (d.toNat, 14), (a.toNat, 8), (p.toNat, 1)]]
  | .vcmp g c v a b p h => some [place 0x81500000 [(g.toNat, 26), (c.toNat, 18), (v.toNat, 14), (a.toNat, 8), (b.toNat, 2), (p.toNat, 1), (h.toNat, 0)]]
  | .vsel g d a b p => some [place 0x81600000 [(g.toNat, 26), (d.toNat, 14), (a.toNat, 8), (b.toNat, 2), (p.toNat, 1)]]
  | .vpand g d a b n => some [place 0x81700000 [(g.toNat, 26), (d.toNat, 14), (a.toNat, 8), (b.toNat, 2), (n.toNat, 0)]]
  | .vpor g d a b n => some [place 0x81800000 [(g.toNat, 26), (d.toNat, 14), (a.toNat, 8), (b.toNat, 2), (n.toNat, 0)]]
  | .vpxor g d a b n => some [place 0x81900000 [(g.toNat, 26), (d.toNat, 14), (a.toNat, 8), (b.toNat, 2), (n.toNat, 0)]]
  | .vany g d a m => some [place 0x81A00000 [(g.toNat, 26), (d.toNat, 14), (a.toNat, 8), (m.toNat, 0)]]
  | .vall g d a m => some [place 0x81B00000 [(g.toNat, 26), (d.toNat, 14), (a.toNat, 8), (m.toNat, 0)]]
  | .vcvt g d a t p => some [place 0x81C00000 [(g.toNat, 26), (d.toNat, 14), (a.toNat, 8), (t.toNat, 2), (p.toNat, 1)]]
  | .vcvts g d a b p => some [place 0x81D00000 [(g.toNat, 26), (d.toNat, 14), (a.toNat, 8), (b.toNat, 2), (p.toNat, 1)]]
  | .vquant g d a b p => some [place 0x81E00000 [(g.toNat, 26), (d.toNat, 14), (a.toNat, 8), (b.toNat, 2), (p.toNat, 1)]]
  | .vrsum g d a p => some [place 0x81F00000 [(g.toNat, 26), (d.toNat, 14), (a.toNat, 8), (p.toNat, 1)]]
  | .vcsum g d a p => some [place 0x81F00004 [(g.toNat, 26), (d.toNat, 14), (a.toNat, 8), (p.toNat, 1)]]
  | .vrmax g d a p => some [place 0x81F00008 [(g.toNat, 26), (d.toNat, 14), (a.toNat, 8), (p.toNat, 1)]]
  | .vcmax g d a p => some [place 0x81F0000C [(g.toNat, 26), (d.toNat, 14), (a.toNat, 8), (p.toNat, 1)]]
  | .vrmin g d a p => some [place 0x81F00010 [(g.toNat, 26), (d.toNat, 14), (a.toNat, 8), (p.toNat, 1)]]
  | .vcmin g d a p => some [place 0x81F00014 [(g.toNat, 26), (d.toNat, 14), (a.toNat, 8), (p.toNat, 1)]]
  | .vperm g d a b p => some [place 0x82000000 [(g.toNat, 26), (d.toNat, 14), (a.toNat, 8), (b.toNat, 2), (p.toNat, 1)]]
  | .vbcr g d a b p => some [place 0x82100000 [(g.toNat, 26), (d.toNat, 14), (a.toNat, 8), (b.toNat, 2), (p.toNat, 1)]]
  | .vbcc g d a b p => some [place 0x82200000 [(g.toNat, 26), (d.toNat, 14), (a.toNat, 8), (b.toNat, 2), (p.toNat, 1)]]
  | .vtrn g d a p => some [place 0x82300000 [(g.toNat, 26), (d.toNat, 14), (a.toNat, 8), (p.toNat, 1)]]
  | .vmov g d a p => some [place 0x82400000 [(g.toNat, 26), (d.toNat, 14), (a.toNat, 8), (p.toNat, 1)]]
  | .vbcs g d a => some [place 0x82500000 [(g.toNat, 26), (d.toNat, 14), (a.toNat, 8)]]
  | .vld g d a => some [place 0x82600000 [(g.toNat, 26), (d.toNat, 14), (a.toNat, 8)]]
  | .vst g a b p => some [place 0x82700000 [(g.toNat, 26), (a.toNat, 8), (b.toNat, 2), (p.toNat, 1)]]
  | .vldm g d a => some [place 0x82800000 [(g.toNat, 26), (d.toNat, 14), (a.toNat, 8)]]
  | .vstm g a b p => some [place 0x82900000 [(g.toNat, 26), (a.toNat, 8), (b.toNat, 2), (p.toNat, 1)]]
  | .vgath g d a b p => some [place 0x82A00000 [(g.toNat, 26), (d.toNat, 14), (a.toNat, 8), (b.toNat, 2), (p.toNat, 1)]]
  | .vscat g d a b p => some [place 0x82B00000 [(g.toNat, 26), (d.toNat, 14), (a.toNat, 8), (b.toNat, 2), (p.toNat, 1)]]
  | .vrand g d a b => some [place 0x82C00000 [(g.toNat, 26), (d.toNat, 14), (a.toNat, 8), (b.toNat, 2)]]
  | .vbucket g d a b p => some [place 0x82D00000 [(g.toNat, 26), (d.toNat, 14), (a.toNat, 8), (b.toNat, 2), (p.toNat, 1)]]
  | .ecnt g d a => some [place 0x82E00000 [(g.toNat, 26), (d.toNat, 14), (a.toNat, 8)]]
  | .vshape g a => some [place 0x82F00000 [(g.toNat, 26), (a.toNat, 8)]]
  | .dnorm g d a p => some [place 0x83000000 [(g.toNat, 26), (d.toNat, 14), (a.toNat, 8), (p.toNat, 1)]]
  | .dexp g d a m => some [place 0x83100000 [(g.toNat, 26), (d.toNat, 14), (a.toNat, 8), (m.toNat, 0)]]
  | .ddot g d a b m => some [place 0x83200000 [(g.toNat, 26), (d.toNat, 14), (a.toNat, 8), (b.toNat, 2), (m.toNat, 0)]]
  | .ddotm g d a b => some [place 0x83300000 [(g.toNat, 26), (d.toNat, 14), (a.toNat, 8), (b.toNat, 2)]]
  | .dscale g d a b => some [place 0x83400000 [(g.toNat, 26), (d.toNat, 14), (a.toNat, 8), (b.toNat, 2)]]
  | .dadd g d a b => some [place 0x83500000 [(g.toNat, 26), (d.toNat, 14), (a.toNat, 8), (b.toNat, 2)]]
  | .dsub g d a b => some [place 0x83600000 [(g.toNat, 26), (d.toNat, 14), (a.toNat, 8), (b.toNat, 2)]]
  | .dneg g d a => some [place 0x83700000 [(g.toNat, 26), (d.toNat, 14), (a.toNat, 8)]]
  | .dmovn g d a => some [place 0x83800000 [(g.toNat, 26), (d.toNat, 14), (a.toNat, 8)]]
  | .dsetn g d a => some [place 0x83900000 [(g.toNat, 26), (d.toNat, 14), (a.toNat, 8)]]
  | .dtest g d a => some [place 0x83A00000 [(g.toNat, 26), (d.toNat, 14), (a.toNat, 8)]]
  | .vpmov g d a m => some [place 0x83B00000 [(g.toNat, 26), (d.toNat, 14), (a.toNat, 8), (m.toNat, 0)]]
  | .mlda g a p => some [place 0x80100000 [(g.toNat, 26), (a.toNat, 8), (p.toNat, 1)]]
  | .mldb g a p => some [place 0x80200000 [(g.toNat, 26), (a.toNat, 8), (p.toNat, 1)]]
  | .mldas g a => some [place 0x80300000 [(g.toNat, 26), (a.toNat, 8)]]
  | .mldbs g a => some [place 0x80400000 [(g.toNat, 26), (a.toNat, 8)]]
  | .mma g a b p z prof fa fb km1 => some [place 0x80500000 [(g.toNat, 26), (a.toNat, 8), (b.toNat, 2), (p.toNat, 1), (z.toNat, 0)], place 0xD0000000 [(prof.toNat, 24), (fa.toNat, 19), (fb.toNat, 14), (km1.toNat, 0)]]
  | .mzero g => some [place 0x80600000 [(g.toNat, 26)]]
  | .mshift g d a => some [place 0x80700000 [(g.toNat, 26), (d.toNat, 14), (a.toNat, 8)]]
  | .mwaitf g => some [place 0x80800000 [(g.toNat, 26)]]
  | .mspill g d => some [place 0x80900000 [(g.toNat, 26), (d.toNat, 14)]]
  | .mfill g a => some [place 0x80A00000 [(g.toNat, 26), (a.toNat, 8)]]
  | .mcfg g a => some [place 0x80B00000 [(g.toNat, 26), (a.toNat, 8)]]
  | .mstat g d => some [place 0x80C00000 [(g.toNat, 26), (d.toNat, 14)]]
  | .xcopy g d a b tag ndm1 es f due => some [place 0x80100000 [(g.toNat, 26), (d.toNat, 14), (a.toNat, 8), (b.toNat, 2)], place 0xE0000000 [(tag.toNat, 22), (ndm1.toNat, 20), (es.toNat, 18), (f.toNat, 17), (due.toNat, 0)]]
  | .xfill g d a b tag ndm1 es f due => some [place 0x80200000 [(g.toNat, 26), (d.toNat, 14), (a.toNat, 8), (b.toNat, 2)], place 0xE0000000 [(tag.toNat, 22), (ndm1.toNat, 20), (es.toNat, 18), (f.toNat, 17), (due.toNat, 0)]]
  | .xdrain g d a b tag ndm1 es f due => some [place 0x80300000 [(g.toNat, 26), (d.toNat, 14), (a.toNat, 8), (b.toNat, 2)], place 0xE0000000 [(tag.toNat, 22), (ndm1.toNat, 20), (es.toNat, 18), (f.toNat, 17), (due.toNat, 0)]]
  | .xgath g d a b => some [place 0x80400000 [(g.toNat, 26), (d.toNat, 14), (a.toNat, 8), (b.toNat, 2)]]
  | .xscat g d a b => some [place 0x80500000 [(g.toNat, 26), (d.toNat, 14), (a.toNat, 8), (b.toNat, 2)]]
  | .xallred g d a b tag ty rop duex => some [place 0x80600000 [(g.toNat, 26), (d.toNat, 14), (a.toNat, 8), (b.toNat, 2)], place 0xC0000000 [(tag.toNat, 22), (ty.toNat, 15), (rop.toNat, 12), (duex.toNat, 0)]]
  | .xallgath g d a b tag ty rop duex => some [place 0x80600000 [(g.toNat, 26), (d.toNat, 14), (a.toNat, 8), (b.toNat, 2)], place 0xC0100000 [(tag.toNat, 22), (ty.toNat, 15), (rop.toNat, 12), (duex.toNat, 0)]]
  | .xredscat g d a b tag ty rop duex => some [place 0x80600000 [(g.toNat, 26), (d.toNat, 14), (a.toNat, 8), (b.toNat, 2)], place 0xC0200000 [(tag.toNat, 22), (ty.toNat, 15), (rop.toNat, 12), (duex.toNat, 0)]]
  | .xall2all g d a b tag ty rop duex => some [place 0x80600000 [(g.toNat, 26), (d.toNat, 14), (a.toNat, 8), (b.toNat, 2)], place 0xC0300000 [(tag.toNat, 22), (ty.toNat, 15), (rop.toNat, 12), (duex.toNat, 0)]]
  | .xfetch g d a b tag due => some [place 0x80700000 [(g.toNat, 26), (d.toNat, 14), (a.toNat, 8), (b.toNat, 2)], place 0xB0000000 [(tag.toNat, 22), (due.toNat, 0)]]
  | .xfetchTry g d a b tag due => some [place 0x80700001 [(g.toNat, 26), (d.toNat, 14), (a.toNat, 8), (b.toNat, 2)], place 0xB0000000 [(tag.toNat, 22), (due.toNat, 0)]]
  | .xpref g a b => some [place 0x80800000 [(g.toNat, 26), (a.toNat, 8), (b.toNat, 2)]]
  | .xtclr g a => some [place 0x80900000 [(g.toNat, 26), (a.toNat, 8)]]
  | .xtst g d a => some [place 0x80A00000 [(g.toNat, 26), (d.toNat, 14), (a.toNat, 8)]]
  | _ => none

/-- The engine whose table gives an instruction its words; S for the shared subset. -/
def engineOf : Instr → Engine
  | .vadd _ _ _ _ _ => .V
  | .vsub _ _ _ _ _ => .V
  | .vmul _ _ _ _ _ => .V
  | .vfma _ _ _ _ _ => .V
  | .vfms _ _ _ _ _ => .V
  | .vmin _ _ _ _ _ => .V
  | .vmax _ _ _ _ _ => .V
  | .vabs _ _ _ _ => .V
  | .vneg _ _ _ _ => .V
  | .vand _ _ _ _ _ => .V
  | .vor _ _ _ _ _ => .V
  | .vxor _ _ _ _ _ => .V
  | .vshl _ _ _ _ _ => .V
  | .vshr _ _ _ _ _ => .V
  | .vsra _ _ _ _ _ => .V
  | .vmulh _ _ _ _ _ => .V
  | .vadds _ _ _ _ _ => .V
  | .vsubs _ _ _ _ _ => .V
  | .vexp2 _ _ _ _ => .V
  | .vlog2 _ _ _ _ => .V
  | .vrcp _ _ _ _ => .V
  | .vrsq _ _ _ _ => .V
  | .vsinpi _ _ _ _ => .V
  | .vcospi _ _ _ _ => .V
  | .vtanh _ _ _ _ => .V
  | .vcmp _ _ _ _ _ _ _ => .V
  | .vsel _ _ _ _ _ => .V
  | .vpand _ _ _ _ _ => .V
  | .vpor _ _ _ _ _ => .V
  | .vpxor _ _ _ _ _ => .V
  | .vany _ _ _ _ => .V
  | .vall _ _ _ _ => .V
  | .vcvt _ _ _ _ _ => .V
  | .vcvts _ _ _ _ _ => .V
  | .vquant _ _ _ _ _ => .V
  | .vrsum _ _ _ _ => .V
  | .vcsum _ _ _ _ => .V
  | .vrmax _ _ _ _ => .V
  | .vcmax _ _ _ _ => .V
  | .vrmin _ _ _ _ => .V
  | .vcmin _ _ _ _ => .V
  | .vperm _ _ _ _ _ => .V
  | .vbcr _ _ _ _ _ => .V
  | .vbcc _ _ _ _ _ => .V
  | .vtrn _ _ _ _ => .V
  | .vmov _ _ _ _ => .V
  | .vbcs _ _ _ => .V
  | .vld _ _ _ => .V
  | .vst _ _ _ _ => .V
  | .vldm _ _ _ => .V
  | .vstm _ _ _ _ => .V
  | .vgath _ _ _ _ _ => .V
  | .vscat _ _ _ _ _ => .V
  | .vrand _ _ _ _ => .V
  | .vbucket _ _ _ _ _ => .V
  | .ecnt _ _ _ => .V
  | .vshape _ _ => .V
  | .dnorm _ _ _ _ => .V
  | .dexp _ _ _ _ => .V
  | .ddot _ _ _ _ _ => .V
  | .ddotm _ _ _ _ => .V
  | .dscale _ _ _ _ => .V
  | .dadd _ _ _ _ => .V
  | .dsub _ _ _ _ => .V
  | .dneg _ _ _ => .V
  | .dmovn _ _ _ => .V
  | .dsetn _ _ _ => .V
  | .dtest _ _ _ => .V
  | .vpmov _ _ _ _ => .V
  | .mlda _ _ _ => .M
  | .mldb _ _ _ => .M
  | .mldas _ _ => .M
  | .mldbs _ _ => .M
  | .mma _ _ _ _ _ _ _ _ _ => .M
  | .mzero _ => .M
  | .mshift _ _ _ => .M
  | .mwaitf _ => .M
  | .mspill _ _ => .M
  | .mfill _ _ => .M
  | .mcfg _ _ => .M
  | .mstat _ _ => .M
  | .xcopy _ _ _ _ _ _ _ _ _ => .X
  | .xfill _ _ _ _ _ _ _ _ _ => .X
  | .xdrain _ _ _ _ _ _ _ _ _ => .X
  | .xgath _ _ _ _ => .X
  | .xscat _ _ _ _ => .X
  | .xallred _ _ _ _ _ _ _ _ => .X
  | .xallgath _ _ _ _ _ _ _ _ => .X
  | .xredscat _ _ _ _ _ _ _ _ => .X
  | .xall2all _ _ _ _ _ _ _ _ => .X
  | .xfetch _ _ _ _ _ _ => .X
  | .xfetchTry _ _ _ _ _ _ => .X
  | .xpref _ _ _ => .X
  | .xtclr _ _ => .X
  | .xtst _ _ _ => .X
  | _ => .S

/-- The bytes of words as the device stores them (R94). -/
def bytesOfWords : List W32 → List Byte
  | [] => []
  | w :: ws => BitVec.ofNat 8 w.toNat :: BitVec.ofNat 8 (w.toNat / 2 ^ 8) :: BitVec.ofNat 8 (w.toNat / 2 ^ 16) :: BitVec.ofNat 8 (w.toNat / 2 ^ 24) :: bytesOfWords ws

/-- The engine that reads a table word: the first in the order S, V, M, X whose table assigns it. -/
def tableEngine (w p : W32) : Engine :=
  if (decodeWord .S w p).isOk then .S
  else if (decodeWord .V w p).isOk then .V
  else if (decodeWord .M w p).isOk then .M
  else .X

/-- The instruction a row's bits are, numbered as the opcode table numbers them. -/
def decodeTableWord (nbits w : Nat) : Option Instr :=
  let v := w % 2 ^ nbits
  let bs := bytesOfWords [BitVec.ofNat 32 v, BitVec.ofNat 32 (v / 2 ^ 32)]
  match decodeBytes (tableEngine (wordOfBytes bs) (wordOfBytes (bs.drop 4))) bs with
  | .ok (i, _) => some i
  | .error _ => none

end Sys2Proof
end

