-- ==== Sys2Proof/Machine/ErrorBanks.lean ====
section
/-! DEFINITION. Error records and their banks (R450, R451), and what poison that is read records and parks (R449). -/
namespace Sys2Proof.Machine

/-! Records and banks (R450, R451). -/

/-- Fields, each at its lowest bit. -/
def packed (l : List (Nat × Nat)) : Nat := l.foldl (fun a x => a + x.1 * 2 ^ x.2) 0
/-- An error record (Table 18-1). -/
structure ErrRec where
  src : Nat
  sev : Nat
  unit : Nat
  cause : Nat := 0
  cx : Nat := 0
  dpa : Nat := 0
  handle : Nat := 0
  gidx : Nat := 0
  ord : Nat := 0
  strm : Nat := 0
deriving DecidableEq, Repr
def ErrRec.toNat (r : ErrRec) (pcyc : Nat) : Nat :=
  packed [(pcyc % 2 ^ 64, 0), (r.src, 64), (r.sev, 72), (r.unit, 80), (r.cause, 96), (r.cx, 104), (r.dpa, 128), (r.handle, 192), (r.gidx, 224),
    (r.ord, 240), (r.strm, 248)]
/-- SEV of a record. -/
def recSev (r : BitVec 256) : Nat := bits r.toNat 79 72
/-- A record joins a bank (R450). -/
def Bank.add (b : Bank) (r : BitVec 256) (corrected : Bool) : Bank :=
  let b1 := if corrected then { b with cecnt := BitVec.ofNat 32 (min (b.cecnt.toNat + 1) (2 ^ 32 - 1)) } else b
  if b1.records.length < 64 then { b1 with records := b1.records ++ [r] }
  else if corrected then b1
  else
    match b1.records.find? fun x => recSev x == 0 with
    | some x => { b1 with records := b1.records.erase x ++ [r] }
    | none => { b1 with ovf := true }
/-- A record goes to its bank; one of SEV 1 to 3, or of a rail switch, is also an event (R451). -/
def State.report (s : State) (bank : Nat) (r : ErrRec) : State :=
  let w := BitVec.ofNat 256 (r.toNat s.pcyc)
  let s1 := s.modGuide fun g => { g with banks := g.banks.setIfInBounds bank ((vget g.banks bank .reset).add w (r.sev == 0 && r.src != 4)) }
  if 0 < r.sev ∨ r.src = 4 then s1.event 2 r.cx 0 w.toNat else s1
/-- A record about a core's job. -/
def State.jobRec (s : State) (n : Nat) (e : Engine) (src sev cause : Nat) : ErrRec :=
  match (s.core n).member with
  | some (cxn, h, g, o) => { src := src, sev := sev, unit := n, cause := cause, cx := cxn + 1, handle := h, gidx := g, ord := o, strm := engNum e }
  | none => { src := src, sev := sev, unit := n, strm := engNum e }

/-! Poison that is read (R449). -/

/-- SRC and UNIT of the record of a part that reads poisoned: HBM and its stack, or the last-level cache and its home slice. -/
def State.poisonUnit (s : State) (dpa : Nat) : Nat × Nat := if s.hbmP.has (dpa / 16) then (3, stackOf dpa) else (2, homeSlice dpa)
/-- The part that is poisoned where a byte lives, a raw part for a decoded one; 0 for none. -/
def State.poisonedPart (s : State) (p : Phys) : Nat :=
  let parts := match p with
    | .hbm d _ => [d / 16]
    | .view d => s.viewParts d
    | _ => []
  16 * ((parts.find? fun k => s.hbmP.has k || s.llcP.has k).getD 0)
/-- The record of a cause 32 or 33 met at an address: contained, with what names its job, and the part, where the address is mapped to it. -/
def State.poisonMet (s : State) (cxn gen cause va : Nat) (who : ErrRec) : State :=
  let dpa := match s.translate cxn gen va { acc := 0 } with
    | .ok p _ _ _ => s.poisonedPart p
    | _ => 0
  let u := s.poisonUnit dpa
  if cause = 32 ∨ cause = 33 then s.report (dieOf dpa) { who with src := u.1, sev := 1, unit := u.2, cause := cause, cx := cxn + 1, dpa := dpa } else s
/-- That of an agent. -/
def State.poisonRecord (s : State) (ag : Agent) (cause va : Nat) : State :=
  s.poisonMet (s.cxnOf ag) (s.genOf ag) cause va (match ag with
    | .job n e => s.jobRec n e 0 1 cause
    | .thread _ _ => { src := 0, sev := 1, unit := 0 })
/-- R449, R391: a poisoned descriptor or record parks every queue of the context; its record tells the Guide. -/
def State.parkContext (s : State) (cxn dpa : Nat) : State :=
  let u := s.poisonUnit dpa
  ((List.range 16).foldl (fun t q =>
    match (t.queue cxn q).state with
    | .running => t.parkQueue cxn q
    | .waiting => t.parkQueue cxn q
    | _ => t) s).report (dieOf dpa) { src := u.1, sev := 3, unit := u.2, cx := cxn + 1, dpa := dpa / 16 * 16 }

end Sys2Proof.Machine
end

