-- ==== Sys2Proof/Machine/Trails.lean ====
section
/-! DEFINITION. Chapter 15 of the spec: records written and matched, the ring's waits and events, and divergence (R379 to R391). -/
namespace Sys2Proof.Machine

/-- Records the ring holds (R377). -/
def Trail.cap (t : Trail) : Nat := 2 ^ t.sz.toNat / 16
/-- DPA of record k, and the leaf of its page (R379). -/
def Trail.slot (t : Trail) (k : Nat) : Nat :=
  let off := k % t.cap * 16
  (t.pages.getD (off / 65536) (0, 0)).1 + off % 65536
def Trail.slotLeaf (t : Trail) (k : Nat) : Nat := (t.pages.getD (k % t.cap * 16 / 65536) (0, 0)).2

def recType (q0 : Nat) : Nat := bits q0 31 24
/-- The bold Q1 fields of a type (Table 15-4). -/
def boldMask (type : Nat) : Nat :=
  match type with
  | 0x01 => 0xFFFFFFFFFFFFE00F
  | 0x02 => 0xFFF
  | 0x04 => 0xFFFFFFFFFF
  | 0x06 => 0xFFFFFFFFFFFFE000
  | 0x07 => 0xFFFFFFFF
  | 0x09 => 0xFFFFFFFFFFFFE000
  | 0x0B => 0x3F
  | 0x0C => 0xFFFFFFFFFFFFFEFF
  | _ => 0

/-- An operation waits for space or supply, or beyond the lookahead (TRSTS.STALL). -/
def Trail.stalled (t : Trail) : Bool := t.waits.any fun w => !w.turn || w.far
/-- A wait is that of an operation, whatever its answer is by now. -/
def TrailWait.on (w : TrailWait) (q0 q1 : Nat) : Bool := w.q0 == q0 && w.q1 &&& boldMask (recType q0) == q1 &&& boldMask (recType q0)
/-- The operation of a record waits, in one of the two ways. -/
def Trail.waitsOn (t : Trail) (q0 q1 : Nat) (turn : Bool) : Bool := t.waits.any fun w => w.on q0 q1 && w.turn == turn
/-- It waits no longer. -/
def Trail.dropWait (t : Trail) (q0 q1 : Nat) : Trail := { t with waits := t.waits.filter fun w => !w.on q0 q1 }
def Trail.addWait (t : Trail) (q0 q1 : Nat) (turn far : Bool) : Trail := { t.dropWait q0 q1 with waits := (t.dropWait q0 q1).waits ++ [⟨q0, q1, turn, far, true⟩] }

/-- R384: the ring has no space for another record. -/
def Trail.full (t : Trail) : Bool := decide (t.cap ≤ t.widx.toNat - t.ridx.toNat)

/-- R385: an event of the trail, with its MSI-X message when VEN is set. -/
def State.trailEvent (s : State) (cxn : Nat) : State :=
  let c := s.ctx cxn
  if c.trail.ven then s.msix c.vf c.trail.vec.toNat else s

/-- R379: a record written at the ring, untainted, with the watermark event of R385. -/
def State.writeRecord (s : State) (cxn q0 q1 : Nat) : State :=
  let t := (s.ctx cxn).trail
  let s1 := s.physWrite cxn (.hbm (t.slot t.widx.toNat) (t.slotLeaf t.widx.toNat)) ((leBytes 8 q0 ++ leBytes 8 q1).map fun b => (b, false))
  let s2 := (s1.modTrail cxn fun t => { t with widx := t.widx + 1 }).perf cxn 9 1
  if t.wmf ≠ 0 ∧ t.widx.toNat + 1 - t.ridx.toNat = t.wmf.toNat * t.cap / 16 then
    (s2.modTrail cxn fun t => { t with wev := true }).trailEvent cxn
  else s2

/-- R384, R385: the operation of a record waits for space or supply; the event comes as it begins to, of one that waits behind held records where
the ring is full. -/
def State.trailStall (s : State) (cxn q0 q1 : Nat) : State :=
  let t := (s.ctx cxn).trail
  let s1 := s.modTrail cxn (·.addWait q0 q1 false false)
  if t.waitsOn q0 q1 false ∨ (t.mode = 1 ∧ !t.full) then s1
  else (s1.modTrail cxn fun t => { t with fev := true }).trailEvent cxn
/-- R389, R390: it waits for its turn, or for RIDX to advance. -/
def State.trailTurn (s : State) (cxn q0 q1 : Nat) (far : Bool) : State := s.modTrail cxn (·.addWait q0 q1 true far)

/-- The two words of record k. -/
def State.record (s : State) (cxn k : Nat) : Nat × Nat :=
  let a := (s.ctx cxn).trail.slot k
  (leNat (s.hbm.read a 8), leNat (s.hbm.read (a + 8) 8))
/-- Record k reads poisoned (R449). -/
def State.recordPoison (s : State) (cxn k : Nat) : Bool :=
  s.physPoison1 (.hbm ((s.ctx cxn).trail.slot k) 0) != 0

def recIss (q0 : Nat) : Nat := bits q0 23 0
def recClk (q0 : Nat) : Nat := bits q0 63 32
/-- Q0 of Table 15-2. -/
def mkQ0 (clk type iss : Nat) : Nat := clk % 2 ^ 32 * 2 ^ 32 + type * 2 ^ 24 + iss
/-- The issuer of a record: a job's stream without the type-specific bits, or the unit (Table 15-3). -/
def issuerOf (iss : Nat) : Nat := if nbit iss 23 then iss else iss / 2048 * 2048

/-- ISS of a job stream (Table 15-3). -/
def State.issJob (s : State) (n : Nat) (e : Engine) (extra : Nat) : Nat :=
  match (s.core n).member with
  | some (_, _, g, o) => engNum e * 2 ^ 21 + g * 2 ^ 18 + o * 2 ^ 11 + extra
  | none => extra
/-- ISS of a unit: class and number (Table 15-3). -/
def issUnit (cls k : Nat) : Nat := 2 ^ 23 + cls * 2 ^ 20 + k
/-- ISS and clock of an agent (R380). -/
def State.issuer (s : State) (ag : Agent) (extra : Nat) : Nat × Nat :=
  match ag with
  | .job n e => (s.issJob n e extra, s.now n)
  | .thread cxn q => (issUnit 0 q, (s.queue cxn q).icount)

/-- R388: types that replay skips; class B and F pre-emption points are skipped (Table 15-4). -/
def recSkipped (r : Nat × Nat) : Bool :=
  let t := recType r.1
  t == 0x03 || t == 0x0A || (t == 0x08 && r.2 % 4 != 3)
def recReserved (r : Nat × Nat) : Bool := recType r.1 == 0 || decide (0x0C < recType r.1)

/-- Whether two records belong to one issuer for matching (R386). -/
def sameIssuer (a b : Nat × Nat) : Bool :=
  if recType a.1 = 0x09 then recType b.1 == 0x09 && a.2 / 2 ^ 13 == b.2 / 2 ^ 13
  else issuerOf (recIss a.1) == issuerOf (recIss b.1) && recType b.1 != 0x09
/-- R386: TYPE, ISS, CLK and every bold field agree; a home slice's number is not compared. -/
def recMatches (a b : Nat × Nat) : Bool :=
  let t := recType a.1
  recType b.1 == t && recClk a.1 == recClk b.1 && (t == 0x09 || recIss a.1 == recIss b.1) && a.2 &&& boldMask t == b.2 &&& boldMask t
/-- A record of an operation on a part of local HBM: an atomic or strong access, or a host write. -/
def onPart (r : Nat × Nat) : Bool := (recType r.1 == 0x01 && !nbit r.2 4) || recType r.1 == 0x09
/-- Where a record's operation took place: the part of HBM that the address of an access, or the IPA of a host write, maps to, and else
its type and PART. -/
def State.recordPart (s : State) (cxn : Nat) (r : Nat × Nat) : Nat × Nat :=
  let c := s.ctx cxn
  let a := r.2 / 2 ^ 13 * 16
  let gen := if nbit (recIss r.1) 23 then c.cg else ((c.insts.find? fun i => i.state == .walking || i.state == .draining).map (·.gen)).getD c.cg
  let l := if recType r.1 = 0x09 then
      (match s.s2 cxn c.cg a with
       | .leaf l => if l.tgt = 0 then some l.out else none
       | _ => none)
    else
      match s.translate cxn gen a { acc := 0 } with
      | .ok (.hbm d _) _ _ _ => some d
      | _ => none
  match l with
  | some d => (0, d / 16)
  | none => (recType r.1, r.2 / 2 ^ 13)
/-- R387: records that must be performed before this one: of its part, semaphore, walker or the admission unit. -/
def State.sameOrder (s : State) (cxn : Nat) (a b : Nat × Nat) : Bool :=
  let t := recType a.1
  if onPart a then onPart b && s.recordPart cxn a == s.recordPart cxn b
  else recType b.1 == t &&
    (if t = 0x02 then issuerOf (recIss a.1) / 2 ^ 11 % 2 ^ 10 == issuerOf (recIss b.1) / 2 ^ 11 % 2 ^ 10 && recIss a.1 % 32 == recIss b.1 % 32
     else if t = 0x04 then bits (recIss a.1) 20 18 == bits (recIss b.1) 20 18
     else if t = 0x07 then true
     else false)

/-- Indices of the records supplied and within the lookahead (R389), from RIDX. -/
def State.window (s : State) (cxn : Nat) : List Nat :=
  let t := (s.ctx cxn).trail
  (List.range (min (t.widx.toNat - t.ridx.toNat) 65536)).map (t.ridx.toNat + ·)
/-- A record that an operation may be compared with: unmatched, and of no skipped or reserved type (R388). -/
def State.openRecord (s : State) (cxn k : Nat) : Bool :=
  !(s.ctx cxn).trail.matched.has k && !recSkipped (s.record cxn k) && !recReserved (s.record cxn k)
/-- The first such record of the window that satisfies a test. -/
def State.findRecord (s : State) (cxn : Nat) (p : Nat × Nat → Bool) : Option Nat :=
  (s.window cxn).find? fun k => s.openRecord cxn k && p (s.record cxn k)
/-- A record that satisfies a test has been supplied, but lies beyond the lookahead (R389). -/
def State.beyond (s : State) (cxn : Nat) (p : Nat × Nat → Bool) : Bool :=
  let t := (s.ctx cxn).trail
  (List.range (t.widx.toNat - t.ridx.toNat - 65536)).any fun k =>
    let r := s.record cxn (t.ridx.toNat + 65536 + k)
    !recSkipped r && !recReserved r && p r
/-- Records of the window that belong to the instance being run: those before the next admission. -/
def State.windowNow (s : State) (cxn : Nat) : List Nat :=
  (s.window cxn).takeWhile fun k => (s.ctx cxn).trail.matched.has k || recType (s.record cxn k).1 != 0x07
/-- The first of them that satisfies a test. -/
def State.findNow (s : State) (cxn : Nat) (p : Nat × Nat → Bool) : Option Nat :=
  (s.windowNow cxn).find? fun k => s.openRecord cxn k && p (s.record cxn k)

/-- R388, R389: RIDX past records matched or skipped; `fuel` bounds one advance. -/
def State.advanceRidx (s : State) (cxn : Nat) : Nat → State
  | 0 => s
  | fuel + 1 =>
    let t := (s.ctx cxn).trail
    let k := t.ridx.toNat
    if t.widx.toNat ≤ k then s
    else if t.matched.has k || recSkipped (s.record cxn k) then
      (s.modTrail cxn fun t => { t with ridx := t.ridx + 1, matched := t.matched.del k }).advanceRidx cxn fuel
    else s

/-- R385: the replay watermark after RIDX moved. -/
def State.replayMark (s : State) (cxn before : Nat) : State :=
  let t := (s.ctx cxn).trail
  let level := (16 - t.wmf.toNat) * t.cap / 16
  if t.wmf ≠ 0 ∧ level < before ∧ t.widx.toNat - t.ridx.toNat ≤ level then
    (s.modTrail cxn fun t => { t with wev := true }).trailEvent cxn
  else s

/-- R391: cause 36. The record at `idx` was expected, `act` came; every queue of the context parks. -/
def State.diverge (s : State) (cxn idx : Nat) (expd act : Nat × Nat) (owner : Option Agent) : State :=
  if (s.ctx cxn).trail.div then s
  else
    let (id, s) := s.newId
    let s1 := s.modTrail cxn fun t =>
      { t with div := true, dseq := BitVec.ofNat 64 idx, dexp0 := BitVec.ofNat 64 expd.1, dexp1 := BitVec.ofNat 64 expd.2,
               dact0 := BitVec.ofNat 64 act.1, dact1 := BitVec.ofNat 64 act.2, divOwner := owner, divId := id }
    let s2 := (List.range 16).foldl (fun t q =>
      let k := t.queue cxn q
      if k.state = .running ∨ k.state = .waiting then (t.parkQueue cxn q).modQueue cxn q fun k => { k with divParked := true }
      else if k.state = .parked then t.modQueue cxn q fun k => { k with divParked := true }
      else t) s1
    s2.event 5 (cxn + 1) id (idx + expd.1 * 2 ^ 64 + expd.2 * 2 ^ 128 + act.1 * 2 ^ 192 + act.2 * 2 ^ 256) true

/-- R388, R389: RIDX past what is matched or skipped, with the watermark and a reserved record met there. -/
def State.settleRidx (s : State) (cxn before : Nat) : State :=
  let s2 := (s.advanceRidx cxn ((s.ctx cxn).trail.widx.toNat - (s.ctx cxn).trail.ridx.toNat)).replayMark cxn before
  let t := (s2.ctx cxn).trail
  if t.ridx.toNat < t.widx.toNat ∧ recReserved (s2.record cxn t.ridx.toNat) then
    s2.diverge cxn t.ridx.toNat (s2.record cxn t.ridx.toNat) (0, 0) none
  else s2
/-- A record becomes matched (R386, R389). -/
def State.matchRecord (s : State) (cxn k : Nat) : State :=
  let before := (s.ctx cxn).trail.widx.toNat - (s.ctx cxn).trail.ridx.toNat
  let iss := recIss (s.record cxn k).1
  let s1 := if nbit iss 23 ∧ bits iss 22 20 = 0 then s.modQueue cxn (bits iss 3 0) fun q => { q with matchedAt := recClk (s.record cxn k).1 } else s
  (s1.modTrail cxn fun t => { t with matched := t.matched.add k, idle := 0 }).settleRidx cxn before

/-- What the trail lets an operation do. -/
inductive Gate where
  /-- It goes on; in replay with the recorded Q1. -/
  | go (s : State) (answer : Option Nat)
  /-- It waits for space, for its record or for its turn (R384, R390). -/
  | wait (s : State)
  /-- It diverged (R391) and is not performed. -/
  | diverged (s : State)

/-- The next access of an agent to be performed, and whether it is a contribution. -/
def State.nextStrong (s : State) (ag : Agent) : Option Strong :=
  match ag with
  | .job n e => (s.core n).strong.find? fun x => !x.done && x.e == e
  | .thread cxn q => (s.queue cxn q).strong.head?
/-- A test, a SEMWAIT, a phase cancel or a fetch of a stream comes after the accesses that the stream has issued before it (R383). -/
def State.behindStrong (s : State) (owner : Option Agent) (q0 : Nat) : Bool :=
  (recType q0 == 0x02 || recType q0 == 0x05 || recType q0 == 0x06 || recType q0 == 0x0B) &&
    owner.any fun ag => (s.nextStrong ag).any fun x => decide (x.clk % 2 ^ 32 ≤ recClk q0)
/-- R391, R449: a record that reads poisoned parks what still runs of the context. -/
def State.parkRecord (s : State) (cxn k : Nat) : State :=
  if (s.ctx cxn).queues.toList.any fun k => k.state == .running || k.state == .waiting then s.parkContext cxn ((s.ctx cxn).trail.slot k) else s
/-- R382 to R391: an operation with its record, in whatever mode the trail is. While a divergence is pending, what matches is performed
and a further mismatch waits (R391). -/
def State.gate (s : State) (cxn : Nat) (owner : Option Agent) (q0 q1 : Nat) : Gate :=
  let t := (s.ctx cxn).trail
  if t.mode = 1 then
    (if s.behindStrong owner q0 then .wait s
     else if t.full || !t.held.isEmpty then .wait (s.trailStall cxn q0 q1)
     else .go ((s.writeRecord cxn q0 q1).modTrail cxn (·.dropWait q0 q1)) none)
  else if t.mode = 2 then
    (if s.behindStrong owner q0 then .wait s
     else match s.findRecord cxn (sameIssuer (q0, q1)) with
      | none => if s.beyond cxn (sameIssuer (q0, q1)) then .wait (s.trailTurn cxn q0 q1 true) else .wait (s.trailStall cxn q0 q1)
      | some k =>
        let r := s.record cxn k
        if s.recordPoison cxn k then .wait (s.parkRecord cxn k)
        else if !recMatches (q0, q1) r then (if t.div then .wait s else .diverged (s.diverge cxn k r (q0, q1) owner))
        else
          let go := Gate.go ((s.matchRecord cxn k).modTrail cxn (·.dropWait q0 q1)) (some r.2)
          match s.findRecord cxn (s.sameOrder cxn (q0, q1)) with
          | some k2 => if k2 < k then .wait (s.trailTurn cxn q0 q1 false) else go
          | none => go)
  else .go s none

/-- An operation with its record would not be made to wait, or has yet to be noted as waiting (R384, R385). -/
def State.gateOpen (s : State) (cxn : Nat) (q0 q1 : Nat) : Bool :=
  let t := (s.ctx cxn).trail
  match s.gate cxn none q0 q1 with
  | .wait _ => !t.div && !t.waitsOn q0 q1 true && !t.waitsOn q0 q1 false
  | _ => true

/-- PART of an address in records (Table 15-4). -/
def partField (a : Nat) : Nat := a / 16 * 2 ^ 13

/-- Q1 of an atomic-performed record. -/
def atomicQ1 (va : Nat) (p : Phys) (opc : Nat) : Nat :=
  match p with
  | .hbm d _ => partField va + homeSlice d * 2 ^ 5 + opc
  | .view d => partField va + homeSlice (d % hbmTop) * 2 ^ 5 + opc
  | _ => partField va + 2 ^ 4 + opc

end Sys2Proof.Machine
end

