-- ==== Sys2Proof/Machine/Operands.lean ====
section
/-! DEFINITION. What every instruction shares: checks of its fields and level (R102, R118), guards (R101), scalar operands,
channel slots (R153 to R156), scratchpad under windows (R61, R84, R167), plain accesses through the phase store buffer and
the read snapshot (R65 to R69), and the issue of strong accesses (R76, R367). -/
namespace Sys2Proof.Machine

/-- What an instruction answers. -/
abbrev Out := Host.Outcome State Fault Refusal

/-- A cause at the current instruction of the issuing agent (R11, R168). -/
def State.cause (s : State) (c : Nat) (faddr : Nat := 0) : State := s.take s.cur c faddr
/-- The issuing agent goes on past an instruction of `len` bytes. -/
def State.fin (s : State) (len interval : Nat) : State := s.finish s.cur len interval

/-- R11: the lowest cause of the conditions that fail; 0 when all hold. -/
def lowest : List (Bool × Nat) → Nat
  | [] => 0
  | (ok, c) :: l => if ok then lowest l else if lowest l = 0 ∨ c < lowest l then c else lowest l
/-- Goes on when every condition holds, else raises the lowest cause. -/
def State.check (s : State) (l : List (Bool × Nat)) (k : State → State) : State :=
  if lowest l = 0 then k s else s.cause (lowest l)

/-- R118: a form permitted only in a job stream. -/
def State.jobOnly (s : State) (k : Nat → Engine → State) : State :=
  match s.cur with
  | .job n e => k n e
  | .thread _ _ => s.cause 3
/-- R118: a form permitted only on a queue thread. -/
def State.queueOnly (s : State) (k : Nat → Nat → State) : State :=
  match s.cur with
  | .job _ _ => s.cause 3
  | .thread cxn q => k cxn q
/-- A word of the V, M or X tables, which no queue thread decodes (R95, R105). -/
def State.engineOnly (s : State) (k : Nat → Engine → State) : State :=
  match s.cur with
  | .job n e => k n e
  | .thread _ _ => s.cause 2
/-- R138: an instruction that may not stand in a delay slot. -/
def State.notInSlot (s : State) (k : State → State) : State := if (s.stream s.cur).inSlot then s.cause 10 else k s

/-- R101: a guarded word executes, is discarded, or is held at the head; on a queue thread a guard is an invalid field. -/
def State.guarded (s : State) (g : Guard) (len : Nat) (k : State → State) : State :=
  if g = 0 ∨ g = 16 then k s
  else
    match s.cur with
    | .thread _ _ => s.cause 10
    | .job n _ =>
      let c := s.core n
      if !c.gres.getLsbD (g.toNat % 16) then s
      else if c.gval.getLsbD (g.toNat % 16) = decide (16 ≤ g.toNat) then k s
      else s.fin len 1

/-! Scalar operands of the issuing stream. -/

def State.rs (s : State) (r : F6) : W64 := (s.stream s.cur).rs? r.toNat
def State.rsT (s : State) (r : F6) : Bool := (s.stream s.cur).rsT r.toNat
def State.ra (s : State) (r : BitVec 4) : W64 := (s.stream s.cur).ra r.toNat
def State.raT (s : State) (r : BitVec 4) : Bool := (s.stream s.cur).raT r.toNat
def State.rp (s : State) (r : BitVec 4) : Bool := (s.stream s.cur).rp r.toNat
def State.rpT (s : State) (r : BitVec 4) : Bool := (s.stream s.cur).rpT r.toNat

/-- An unsigned field of a scalar. -/
def W64.f (x : W64) (hi lo : Nat) : Nat := bits x.toNat hi lo

/-- A scalar result of an instruction of one word that issues each cycle (Table 5-1). -/
def State.scalar (s : State) (d : F6) (v : W64) (t : Bool) (lat : Nat) : State := (s.putS s.cur d.toNat v t lat).fin 4 1

/-! Channels (R153, R154). -/

def Chan.avail (c : Chan) : Nat := c.filled - c.taken
def Chan.free (c : Chan) : Nat := c.count - c.filled - c.rsv.length
/-- Address of slot i. -/
def Chan.slot (c : Chan) (i : Nat) : Nat := c.base + c.size * (if c.count = 0 then 0 else i % c.count)
/-- R154: the producer index moves over a reserved slot. -/
def Chan.reserve (c : Chan) (seq : Nat) : Chan := { c with pidx := (c.pidx + 1) % c.count, rsv := c.rsv ++ [(seq, false)] }
/-- Slots that have landed at the front of the reservation order become filled. -/
def Chan.settle (c : Chan) : List (Nat × Bool) → Chan
  | (_, true) :: l => Chan.settle { c with filled := c.filled + 1 } l
  | l => { c with rsv := l }
/-- R154: a reserved slot's data lands; slots become filled in reservation order. -/
def Chan.land (c : Chan) (seq epoch : Nat) : Chan :=
  if c.epoch = epoch then c.settle (c.rsv.map fun x => if x.1 = seq then (x.1, true) else x) else c
/-- R154: a consumer takes n slots. -/
def Chan.take (c : Chan) (n : Nat) : Chan := { c with cidx := (c.cidx + n) % c.count, taken := c.taken + n }
/-- R154, R156: n taken slots are released, unless the channel was configured or reset since. -/
def Chan.release (c : Chan) (n epoch : Nat) : Chan :=
  if c.epoch = epoch then { c with filled := c.filled - n, taken := c.taken - n } else c
/-- R155: CHRST. -/
def Chan.clear (c : Chan) : Chan :=
  { c with pidx := 0, cidx := 0, filled := 0, taken := 0, rsv := [], epoch := c.epoch + 1 }
/-- R166: a channel deconfigured, its slots dropped. -/
def Chan.drop (c : Chan) : Chan := { Chan.reset with epoch := c.epoch + 1 }

def Core.chan (c : Core) (k : Nat) : Chan := vget c.chans (k % 16) .reset
def Core.setChan (c : Core) (k : Nat) (x : Chan) : Core := { c with chans := c.chans.setIfInBounds (k % 16) x }

/-! The pool (R18) and the scratchpad (R61, R84). -/

def Core.vg (c : Core) : Nat := bits c.partw.toNat 2 0
def Core.ag (c : Core) : Nat := bits c.partw.toNat 8 3
def Core.sg (c : Core) : Nat := bits c.partw.toNat 14 9
/-- Pool offset of scratchpad byte 0. -/
def Core.spBase (c : Core) : Nat := 65536 * (c.vg + c.ag)
def Core.spSize (c : Core) : Nat := 65536 * c.sg

/-- Taint of a 16-byte part of the pool: any of its four words. -/
def Core.poolPartT (c : Core) (part : Nat) : Bool := (List.range 4).any fun k => c.poolT.has (4 * part + k)
/-- A byte of scratchpad with its part's taint; beyond the scratchpad, zero (R61). -/
def Core.spByte (c : Core) (a : Nat) : Byte × Bool :=
  if a < c.spSize then (c.pool.get (c.spBase + a), c.poolPartT ((c.spBase + a) / 16)) else (0, false)
def Core.spRead (c : Core) (a n : Nat) : List (Byte × Bool) := (List.range n).map fun k => c.spByte (a + k)
/-- The taint of every word of a pool part. -/
def Core.setPartT (c : Core) (part : Nat) (t : Bool) : Core :=
  { c with poolT := (List.range 4).foldl (fun z k => z.mk (4 * part + k) t) c.poolT }
/-- A scratchpad write with taint by R59; bytes beyond the scratchpad are discarded (R61). -/
def Core.spWrite (c : Core) (a : Nat) (bs : List (Byte × Bool)) : Core :=
  let l := bs.take (c.spSize - a)
  let c1 := { c with pool := c.pool.write (c.spBase + a) (l.map Prod.fst) }
  (partOffsets (c.spBase + a) l.length).foldl (fun z k =>
    let sh := partShare (c.spBase + a) l ((c.spBase + a + k) / 16)
    z.setPartT ((c.spBase + a + k) / 16) (partTaint (z.poolPartT ((c.spBase + a + k) / 16)) sh.1 sh.2)) c1

/-- One window of R167: none when the access leaves its half. -/
def mapWin (w : W64) (a n : Nat) : Option (Option Nat) :=
  if !w.getLsbD 63 then some none
  else
    let B := W64.f w 15 0 * 64
    let Z := W64.f w 31 16 * 64
    let cur := if w.getLsbD 62 then 1 else 0
    if B ≤ a ∧ a < B + Z then (if a + n ≤ B + Z then some (some (B + Z * cur + (a - B))) else none)
    else if B + Z ≤ a ∧ a < B + 2 * Z then (if a + n ≤ B + 2 * Z then some (some (B + Z * (1 - cur) + (a - B - Z))) else none)
    else some none
/-- R167: the address a scratchpad access is mapped to; none for cause 24. -/
def Core.window (c : Core) (a n : Nat) : Option Nat :=
  match mapWin c.dbw0 a n with
  | none => none
  | some (some x) => some x
  | some none =>
    match mapWin c.dbw1 a n with
    | none => none
    | some (some x) => some x
    | some none => some a

/-! Results of loads. -/

/-- n bytes extended to 64 bits. -/
def extend (sgn : Bool) (n x : Nat) : W64 :=
  if sgn && decide (n < 8) then sextTo 64 (8 * n) x else BitVec.ofNat 64 x
def taintOf (bs : List (Byte × Bool)) : Bool := bs.any Prod.snd
def bytesOf (bs : List (Byte × Bool)) : List Byte := bs.map Prod.fst
/-- n bytes of a value, all with one taint. -/
def tainted (t : Bool) (bs : List Byte) : List (Byte × Bool) := bs.map fun b => (b, t)

/-- R405: a peer turns an access away, or a host read completes without success (log 5). -/
def State.refused (s : State) (cxn : Nat) (p : Phys) (write read : Bool) : Bool :=
  match p with
  | .peer dev a => !Config.peerGrants dev (s.ctx cxn).dcn.toNat a write
  | .host a => read && !Config.hostReadOk (s.ctx cxn).vf a
  | _ => false
/-- A plain store is refused only as it commits (R406), a copy only as it moves its bytes (R480). -/
def lateRefusal (k : Access) : Bool := k.acc == 1 || k.acc == 4 || k.acc == 5

/-- R435: an access whose link is down waits where it stands, its group paused. -/
def State.awaitLink (s : State) (ag : Agent) (va n : Nat) : State :=
  match ag with
  | .job n _ => (s.standCore n).pauseCore n 0
  | .thread cxn q => s.modQueue cxn q fun x => { x with waitLink := some (va, n, x.icount) }

/-! Translation for an instruction (R348): a fault is raised precisely; a poisoned descriptor parks the context. -/

def State.access (s : State) (ag : Agent) (va n : Nat) (k : Access)
    (go : State → List (Nat × Nat × Phys × Bool) → State) : State :=
  match s.transRange (s.cxnOf ag) (s.genOf ag) va n k with
  | .ok ps =>
    if k.acc = 0 ∧ ps.any fun x => !s.linked x.2.2.1 then s.awaitLink ag va n
    else match if lateRefusal k then none else ps.find? fun x => s.refused (s.cxnOf ag) x.2.2.1 k.w k.r with
    | some x => s.take ag 19 x.1
    | none => go s ps
  | .fault c a r => s.take ag c a r
  | .poison d => s.parkContext (s.cxnOf ag) d

/-- How a plain access of context memory ends when it cannot be made; its causes are all below 24 (R11). -/
def State.accessStop (s : State) (ag : Agent) (va n : Nat) (k : Access) : Option State :=
  match s.transRange (s.cxnOf ag) (s.genOf ag) va n k with
  | .ok ps => (if lateRefusal k then none else ps.find? fun x => s.refused (s.cxnOf ag) x.2.2.1 k.w k.r).map fun x => s.take ag 19 x.1
  | .fault c a r => some (s.take ag c a r)
  | .poison d => some (s.parkContext (s.cxnOf ag) d)

/-- R337: a store of tainted data to a page marked deterministic, with the check enabled. -/
def State.taintStop (s : State) (ag : Agent) (det t : Bool) : Bool := t && det && (s.ctx (s.cxnOf ag)).tchk
/-- R337: a tainted write to such a page was performed. -/
def State.markTnt (s : State) (ag : Agent) (det t : Bool) : State :=
  if t && det then
    match ag with
    | .job n _ =>
      match (s.core n).member with
      | some (cxn, h, _, _) => s.modInst cxn h fun i => { i with tnt := true }
      | none => s
    | .thread _ _ => s
  else s

/-! The phase store buffer (R65, R66). -/

/-- Byte k of a 64-byte line replaced. -/
def lineByte (x : BitVec 512) (k : Nat) (b : Byte) : BitVec 512 :=
  (x &&& ~~~ (0xFF#512 <<< (8 * k))) ||| (b.setWidth 512 <<< (8 * k))
def PsbLine.byte (l : PsbLine) (k : Nat) : Byte := (l.data >>> (8 * k)).setWidth 8
/-- Bytes of one part join a line, in the order of the core's sequence numbers. -/
def PsbLine.put (l : PsbLine) (e : Engine) (seq o : Nat) (bs : List (Byte × Bool)) (det : Bool) : PsbLine :=
  let ks := (List.range bs.length).zip bs
  let part := o / 16
  let t := partTaint (l.taint.getLsbD part) (decide (bs.length = 16)) (taintOf bs)
  { l with
    mask := ks.foldl (fun m x => setBit m (o + x.1) true) l.mask
    data := ks.foldl (fun d x => lineByte d (o + x.1) x.2.1) l.data
    taint := setBit l.taint part t
    writer := ks.foldl (fun w x => aset w (o + x.1) (e, seq)) l.writer
    fenced := ks.foldl (fun m x => [0, 64, 128].foldl (fun m j => setBit m (j + o + x.1) false) m) l.fenced
    det := l.det || det }
/-- R83: a FENCE from LS to the paths of `l` passes the bytes of a line. -/
def PsbLine.fence (z : PsbLine) (l : BitVec 4) : PsbLine :=
  { z with fenced := [1, 2, 3].foldl (fun m p => if l.getLsbD p then m ||| (z.mask.setWidth 192 <<< (64 * (p - 1))) else m) z.fenced }

def Core.psbLine (c : Core) (va : Nat) : Option PsbLine := c.psb.find? (·.va == va / 64 * 64)
/-- A byte the job has stored in this phase, with its part's taint. -/
def Core.psbByte (c : Core) (va : Nat) : Option (Byte × Bool) :=
  match c.psbLine va with
  | some l => if l.mask.getLsbD (va % 64) then some (l.byte (va % 64), l.taint.getLsbD (va % 64 / 16)) else none
  | none => none
/-- R83: what a copy path (1 CP, 2 GA, 3 CO) sees of such a byte: the buffered byte once a FENCE from LS to the path has passed it, and
else either that or the byte at the point of coherence. -/
def Core.copySees (c : Core) (path va : Nat) (free : Bool) : Option (Byte × Bool) :=
  (c.psbByte va).filter fun _ => free || (c.psbLine va).any fun l => l.fenced.getLsbD (64 * (path - 1) + va % 64)

/-- The address k bytes earlier in the same mapping. -/
def Phys.sub (p : Phys) (k : Nat) : Phys :=
  match p with
  | .hbm d l => .hbm (d - k) l
  | .view d => .view (d - k)
  | .peer dev a => .peer dev (a - k)
  | .host a => .host (a - k)

/-- What an issuing instruction gives of a strong access. -/
def mkStrong (e : Engine) (op : StrongOp) (size va : Nat) (p : Phys) (det : Bool) (dst : Option Nat) (x : BitVec 128) (xT : Bool)
    (cmp : BitVec 128) (opc : Nat) : Strong :=
  { id := 0, e := e, op := op, size := size, va := va, loc := p, dst := dst, x := x, xT := xT, cmp := cmp, clk := 0, due := 0,
    det := det, opc := opc, done := false, seat := none, past := .reset }
/-- R380: the clock that a record of the agent's operation carries. -/
def State.clock (s : State) (ag : Agent) : Nat := (s.issuer ag 0).2
/-- A strong access issues (R76, R367): its result, or its acknowledgement, pends until ATOMIC_PERFORMED performs it in the order of its stream.
`pair` for 16-byte results. -/
def State.issueStrong (s : State) (ag : Agent) (x : Strong) (pair : Bool) : State :=
  match ag with
  | .job n e =>
    let c := s.core n
    let due := s.now n + s.latency (n / 128) x.loc
    let y := { x with id := c.seq, e := e, clk := s.now n, due := due, seat := some (c.str e).seat
                      past := vget c.order.known (engNum e) .reset }
    let c1 := ({ c with strong := (c.strong.filter fun (z : Strong) => !(z.done && decide (z.due ≤ s.now n))) ++ [y] }).addPend due true (.await y.id)
    let c2 := if pair then c1.addPend due true (.await y.id) else c1
    let s1 := (s.setCore n c2).request ag y.va y.loc y.size (y.op == .store || y.op == .spill) (.strong y.id)
    { s1 with agenda := .ev (.atomicPerformed ag) :: s.agenda }
  | .thread cxn q =>
    let y := { x with clk := s.clock ag }
    let s1 := (s.modQueue cxn q fun k => { k with strong := k.strong ++ [y], undo := if k.strong.isEmpty then some (k.thread, k.icount) else k.undo }).request ag y.va y.loc y.size (y.op == .store || y.op == .spill) (.thread q)
    { s1 with agenda := .ev (.atomicPerformed ag) :: s.agenda }

/-- R66: the pieces of a store that fall into lines the buffer does not hold and can no longer allocate, lines being taken in ascending
address. -/
def Core.overflow (c : Core) (ps : List (Nat × Nat × Phys × Bool)) : List (Nat × Nat × Phys × Bool) :=
  let fresh := ((ps.map fun x => x.1 / 64).eraseDups).filter fun l => (c.psbLine (64 * l)).isNone
  let late := fresh.drop (if c.psbFull then 0 else 2048 - c.psb.length)
  ps.filter fun x => late.contains (x.1 / 64)
/-- R65, R66: the bytes of a plain store that fall into one part: those without a line are a strong write, of which no record is made (R382). -/
def State.storePiece (s : State) (n : Nat) (e : Engine) (va : Nat) (p : Phys) (det : Bool) (bs : List (Byte × Bool)) : State :=
  let c := s.core n
  let o := va % 64
  if (c.psbLine va).isSome then
    s.setCore n { c with seq := c.seq + 1, psb := c.psb.map fun l => if l.va = va / 64 * 64 then l.put e c.seq o bs det else l }
  else if c.psb.length < 2048 ∧ !c.psbFull then
    (s.setCore n { c with
      seq := c.seq + 1, allocs := c.allocs + 1
      psb := c.psb ++
        [({ va := va / 64 * 64, loc := p.sub o, mask := 0, taint := 0, data := 0, writer := [], det := det, fenced := 0, born := c.allocs } : PsbLine).put
          e c.seq o bs det] }).requests (.job n e) (s.genOf (.job n e)) [va] (.value (s.now n)) [] []
  else
    (s.setCore n { c with psbFull := true, phst := c.phst ||| 0x40000000 }).issueStrong (.job n e)
      (mkStrong e .store bs.length va p det none (BitVec.ofNat 128 (leNat (bytesOf bs))) (taintOf bs) 0 0) false

/-- A plain store of a job, piece by piece in ascending address. -/
def State.storePieces (s : State) (n : Nat) (e : Engine) (bs : List (Byte × Bool)) : List (Nat × Nat × Phys × Bool) → State
  | [] => s
  | (va, len, p, det) :: rest => (s.storePiece n e va p det (bs.take len)).storePieces n e (bs.drop len) rest

/-! The read snapshot (R67, R68). -/

/-- The part of an address, in the snapshot. -/
def Core.snapPart (c : Core) (va : Nat) : Option SnapPart := c.snap.find? (·.va == va / 16 * 16)
/-- R67, R68: the first read of a part takes its value; when the snapshot is full the earliest part is released. -/
def State.snapTake (s : State) (n va : Nat) (p : Phys) : State :=
  let c := s.core n
  if (c.snapPart va).isSome then s
  else
    let b := p.sub (va % 16)
    let x : SnapPart := { va := va / 16 * 16, data := BitVec.ofNat 128 (leNat (s.physRead b 16)), taint := s.physTaint b 16, poison := s.physPoison b 16 }
    if c.snap.length < 8192 then s.setCore n { c with snap := c.snap ++ [x] }
    else s.setCore n { c with snap := c.snap.drop 1 ++ [x], phst := c.phst ||| 0x80000000 }

/-- A byte a plain load returns, its taint, and the cause of a poisoned part when the byte is the snapshot's. A byte that another stream has
stored without an order before the load may be either (R69): the model returns the stored byte (log 38). -/
def Core.loadByte (c : Core) (va : Nat) : Byte × Bool × Nat :=
  match c.psbByte va, c.snapPart va with
  | some (b, t), _ => (b, t, 0)
  | none, some x => ((x.data >>> (8 * (va % 16))).setWidth 8, x.taint, x.poison)
  | none, none => (0, false, 0)

/-- What a plain load of a job returns. -/
structure Loaded where
  bytes : List (Byte × Bool)
  /-- Cause of poison with its address, 0 for none. -/
  poison : Nat
  addr : Nat
  lat : Nat
deriving DecidableEq, Repr

/-- The parts of a load, each read as it enters the snapshot: R78 states no order for the parts of a wide access, and the model performs them
all in one step, in ascending address (log 38). -/
def State.readParts (s : State) (n : Nat) : List (Nat × Nat × Phys × Bool) → State × List (Byte × Bool × Nat)
  | [] => (s, [])
  | (va, len, p, _) :: rest =>
    let s1 := s.snapTake n va p
    let r := s1.readParts n rest
    (r.1, (List.range len).map (fun k => (s1.core n).loadByte (va + k)) ++ r.2)
/-- The latency of an access over its pieces (R347). -/
def State.latencyOf (s : State) (n : Nat) (ps : List (Nat × Nat × Phys × Bool)) : Nat :=
  ps.foldl (fun l x => max l (s.latency (n / 128) x.2.2.1)) 0
/-- What a plain load of a range gives, with the request for the lines that it reads (R430). -/
def State.loadRange (s : State) (n va : Nat) (ps : List (Nat × Nat × Phys × Bool)) : State × Loaded :=
  let fresh := ps.filter fun x => ((s.core n).snapPart x.1).isNone
  let r := s.readParts n ps
  let bad := ((List.range r.2.length).zip r.2).find? fun x => x.2.2.2 != 0
  (match fresh with
   | [] => r.1
   | x :: _ => r.1.requests (.job n .S) (s.genOf (.job n .S)) (fresh.map (·.1)) (.value (s.now n + s.latencyOf n ps)) [((fresh.map fun y => y.1 / 64).eraseDups.length, x.2.2.1.dest)]
     (fresh.map fun y => (y.2.2.1, y.2.1, false)),
   { bytes := r.2.map fun x => (x.1, x.2.1), poison := (bad.map (·.2.2.2)).getD 0, addr := va + (bad.map (·.1)).getD 0, lat := s.latencyOf n ps })

end Sys2Proof.Machine
end

