-- ==== Sys2Proof/Machine/Fetch.lean ====
section
/-! DEFINITION. Instruction fetch (R90, R94, R139): the words at an address of an agent's program. -/
namespace Sys2Proof.Machine

/-- What a fetch of one word gives. -/
inductive Fetched where
  | word (w : W32)
  | fault (cause addr : Nat) (rec : Option FaultRec)
  /-- A poisoned descriptor, at its address (R449). -/
  | park (dpa : Nat)
deriving DecidableEq, Repr

/-- R145: a word that the stream has captured of the body of an active loop. -/
def Stream.inBody (x : Stream) (a : Nat) : Bool := x.loops.any fun l => decide (l.start.toNat ≤ a) && decide (a ≤ l.stop.toNat)
def Stream.captured? (x : Stream) (a : Nat) : Option W32 := if x.inBody a then aget? x.lbuf a else none

/-- One word of context memory, at its point of coherence. -/
def State.fetchMem (s : State) (ag : Agent) (a : Nat) : Fetched :=
  match s.translate (s.cxnOf ag) (s.genOf ag) a accFetch with
  | .ok p _ _ _ =>
    if s.refused (s.cxnOf ag) p false true then .fault 19 a none
    else if s.physPoison p 4 ≠ 0 then .fault (s.physPoison p 4) a none
    else .word (BitVec.ofNat 32 (leNat (s.physRead p 4)))
  | .fault c r => .fault c a r
  | .poison d => .park d
/-- One word as a stream fetches it: of its loop buffer, where that holds it (R145), else of memory. -/
def State.fetchWord (s : State) (ag : Agent) (a : Nat) : Fetched :=
  match (s.stream ag).captured? a with
  | some w => .word w
  | none => s.fetchMem ag a

/-- The engine whose tables an agent's words are read by (R95). -/
def agentEngine : Agent → Engine
  | .job _ e => e
  | .thread _ _ => .S

/-- Bytes of the instruction at an address; 4 where its words cannot be read. -/
def State.instrLen (s : State) (ag : Agent) (a : Nat) : Nat :=
  match s.fetchWord ag a with
  | .word w => if isLongWord (agentEngine ag) w then 8 else 4
  | _ => 4

/-- The D field, bits 19 to 14, of the private word at an agent's program counter; 0 where it cannot be read. -/
def State.wordD (s : State) (ag : Agent) : BitVec 6 :=
  match s.fetchWord ag (s.stream ag).pc.toNat with
  | .word w => fld w 14 6
  | _ => 0

/-- What stands at an address: an instruction, a rejected word, or a fetch that fails. -/
inductive Head where
  | instr (i : Instr) (len : Nat)
  | reject (r : DecodeReject)
  | fault (cause addr : Nat) (rec : Option FaultRec)
  | park (dpa : Nat)
  /-- A long form under a guard whose payload word gives no word (R101, R106). -/
  | payload (g : Guard) (why : Fetched)

/-- R145: the words of the instruction at an agent's program counter are captured when they stand in the body of an active loop. -/
def State.capture (s : State) (ag : Agent) (len : Nat) : State :=
  let x := s.stream ag
  let a := x.pc.toNat
  if x.inBody a then
    s.modStream ag fun z =>
      { z with lbuf := ([a, a + 4].take (len / 4)).foldl (fun l b => match s.fetchWord ag b with
        | .word w => if z.inBody b then aset l b w else l
        | _ => l) z.lbuf }
  else s

/-- The instruction at an address; a long form's payload word is fetched with it (R106). -/
def State.headAt (s : State) (ag : Agent) (a : Nat) : Head :=
  match s.fetchWord ag a with
  | .fault c d r => .fault c d r
  | .park d => .park d
  | .word w =>
    let e := agentEngine ag
    if isLongWord e w then
      match s.fetchWord ag (a + 4) with
      | .word p =>
        match decodeWord e w p with
        | .ok i => .instr i 8
        | .error r => .reject r
      | why => .payload (guardOf w) why
    else
      match decodeWord e w 0 with
      | .ok i => .instr i 4
      | .error r => .reject r

end Sys2Proof.Machine
end

