-- ==== Sys2Proof/Machine/Flags.lean ====
section
/-! DEFINITION. NCSR's rounding mode and sticky flags (R37 to R40). The arithmetic that sets them stands in Numbers.lean,
VecNum.lean and Qc4.lean, each result with its flags. -/
namespace Sys2Proof.Machine

/-- R38, R39: the mode an instruction of a job reads as it issues. -/
def Core.rm (c : Core) : Rm := Rm.ofBits c.ncsr.toNat

/-- R40: the OR of the flags of the elements of a result. -/
def flagsOf (l : List Rounded) : Nat := l.foldl (fun f x => f ||| x.flags) 0

/-- R40, R206: flags set at the due cycle of the result. -/
def State.putFlags (s : State) (n : Nat) (fl lat : Nat) : State :=
  if fl = 0 then s else s.addPend n lat false (.flags fl)

/-- Bits a write clears by writing 1 (Table 2-3). -/
def ncsrW1c : BitVec 32 := 0x1F8
/-- A write of NCSR, field by field (R5, Table 2-3). -/
def ncsrWrite (old : BitVec 32) (v : W64) : BitVec 32 :=
  let x := v.setWidth 32
  (old &&& ncsrW1c &&& ~~~ x) ||| (x &&& 3)
/-- A write of PHST (Table 3-2): SREL and OVF are W1C, RSM is RW. -/
def phstWrite (old : BitVec 32) (v : W64) : BitVec 32 :=
  let x := v.setWidth 32
  (old &&& 0xC0000000 &&& ~~~ x) ||| (x &&& 0x003F0000) ||| (old &&& 0xFFFF)

end Sys2Proof.Machine
end

