-- ==== Sys2Proof/Machine/MatOps.lean ====
section
/-! DEFINITION. The array (R222 to R234, R241 to R244): formats, operands, causes, acceptance, steps, and the save image. -/
namespace Sys2Proof.Machine

/-- Width of an MMA operand format by its type code; 0 for a code no profile takes. -/
def mmaWidth (f : Nat) : Nat :=
  match f with
  | 1 => 16 | 2 => 16 | 3 => 8 | 4 => 8 | 5 => 4 | 8 => 4 | 9 => 8 | _ => 0
/-- Table 2-7: whether a profile takes a format pair. -/
def mmaPair (prof fa fb : Nat) : Bool :=
  let fp8 := (fa == 3 || fa == 4) && (fb == 3 || fb == 4)
  let half := (fa == 2 && fb == 2) || (fa == 1 && fb == 1)
  match prof with
  | 0 => fp8 || half
  | 1 => fp8 || half
  | 2 => fp8 || half
  | 3 => (fa == 8 || fa == 9) && (fb == 8 || fb == 9)
  | 4 => half
  | 5 => (fa == 3 || fa == 5) && fb == 5
  | _ => false

def Mma.prof (m : Mma) : Nat := W64.f (m.word1.setWidth 64) 27 24
def Mma.fa (m : Mma) : Nat := W64.f (m.word1.setWidth 64) 23 19
def Mma.fb (m : Mma) : Nat := W64.f (m.word1.setWidth 64) 18 14
def Mma.k (m : Mma) : Nat := W64.f (m.word1.setWidth 64) 13 0 + 1
def Mma.z (m : Mma) : Bool := m.word0.getLsbD 0

/-- Table 8-3: values of k fed together, and cycles of a step. -/
def kuOf (fa fb : Nat) : Nat := if (fa = 8 ∧ fb = 8) ∨ (fa = 5 ∧ fb = 5) then 2 else 1
def tauOf (fa : Nat) : Nat := if fa = 1 ∨ fa = 2 then 2 else 1
def Mma.ku (m : Mma) : Nat := kuOf m.fa m.fb
def Mma.tau (m : Mma) : Nat := tauOf m.fa
/-- Units of an MMA (R229). -/
def Mma.units (m : Mma) : Nat := cdiv m.k m.ku
/-- Steps of an MMA (R230). -/
def Mma.steps (m : Mma) : Nat := m.units + m.th + m.tw
/-- The cycle of step 0 (R231); 0 where a restored MMA would have begun before the first cycle. -/
def Mma.start (m : Mma) : Nat := m.fin - m.tau * m.steps
/-- An MMA whose step 0 is at a cycle. -/
def Mma.startingAt (m : Mma) (start : Nat) : Mma := { m with fin := start + m.tau * m.steps }
/-- Group size of a profile in values of k (R243). -/
def groupOf (prof ku : Nat) : Nat :=
  match prof with
  | 1 => 4
  | 2 => 16
  | 3 => ku
  | 4 => 2
  | 5 => 64
  | _ => 1

/-- R224, R225: bytes of an operand. -/
def extentOf (f k str : Nat) : Nat :=
  if f = 5 then 4096 * cdiv k 64
  else (k - 1) * (if str = 0 then 16 * mmaWidth f else 16 * str) + 16 * mmaWidth f
/-- R227: bytes of a QC4 operand's scale region. -/
def scaleExtent (k : Nat) : Nat := 260 * cdiv (cdiv k 64) 2

/-- n little-endian bytes of scratchpad, with taint. -/
def Core.spNat (c : Core) (a n : Nat) : Nat × Bool :=
  let l := c.spRead a n
  (leNat (bytesOf l), taintOf l)
/-- R224, R225: the code of element (x, k) of an operand with its taint; x is the row of A or the column of B. -/
def Core.operand (c : Core) (f base str x k : Nat) : Nat × Bool :=
  if f = 5 then
    let idx := 64 * (128 * (k / 64) + x) + k % 64
    let v := c.spNat (base + idx / 2) 1
    (v.1 / (if idx % 2 = 0 then 1 else 16) % 16, v.2)
  else
    let w := mmaWidth f
    let v := c.spNat (base + k * (if str = 0 then 16 * w else 16 * str) + w * x / 8) (if w = 16 then 2 else 1)
    (if w = 4 then v.1 / (if x % 2 = 0 then 1 else 16) % 16 else v.1, v.2)
/-- R44: the block scale of row or column x in 64-k group g, with its taint. -/
def Core.mmaScale (c : Core) (sc x g : Nat) : Fp × Bool :=
  let b := 128 * g + x
  let sup := c.spNat (sc + 260 * (b / 256)) 4
  let s := c.spNat (sc + 260 * (b / 256) + 4 + b % 256) 1
  (blockScale s.1 sup.1, sup.2 || s.2)

/-- An operand code as an exact value or an integer. -/
def mmaFp (f x : Nat) : Fp :=
  match f with
  | 1 => Fp.decode .f16 x
  | 2 => Fp.decode .bf16 x
  | 3 => Fp.decode .e4m3 x
  | _ => Fp.decode .e5m2 x
def mmaInt (f x : Nat) : Int := if f = 8 then toS4 x else toS8 x
where
  toS4 (x : Nat) : Int := (BitVec.ofNat 4 x).toInt
  toS8 (x : Nat) : Int := (BitVec.ofNat 8 x).toInt

/-- R230, R51 to R54: group g of an MMA folded into a cell's accumulator, with the taint of what it read. -/
def Core.foldGroup (c : Core) (m : Mma) (i j g acc : Nat) : Nat × Bool :=
  let W := groupOf m.prof m.ku
  let ks := (List.range W).map (W * g + ·) |>.filter (decide <| · < m.k)
  let as := ks.map fun k => c.operand m.fa m.abase m.astr i k
  let bs := ks.map fun k => c.operand m.fb m.bbase m.bstr j k
  let t := as.any Prod.snd || bs.any Prod.snd
  let ps := (as.zip bs).map fun x => Fp.mul (mmaFp m.fa x.1.1) (mmaFp m.fb x.2.1)
  match m.prof with
  | 0 => (foldFused acc (ps.headD (.fin false 0 0)), t)
  | 1 => (foldWindow 44 acc ps, t)
  | 2 => (foldWindow 58 acc ps, t)
  | 3 => (foldInt acc ((as.zip bs).map fun x => (mmaInt m.fa x.1.1, mmaInt m.fb x.2.1)), t)
  | 4 => (foldPair acc (ps.headD (.fin false 0 0)) ((ps.drop 1).headD (.fin false 0 0)), t)
  | _ =>
    let sb := c.mmaScale m.scb j g
    if m.fa = 5 then
      let sa := c.mmaScale m.sca i g
      let I := (as.zip bs).foldl (fun (s : Int) x => s + qcQ x.1.1 * qcQ x.2.1) 0
      (foldBlock acc (blockValue false I 30 (Fp.mul sa.1 sb.1)), t || sa.2 || sb.2)
    else
      let I := (as.zip bs).foldl (fun (s : Int) x => s + e4m3Int x.1.1 * qcQ x.2.1) 0
      (foldBlock acc (blockValue (as.any fun x => (Fp.decode .e4m3 x.1).isNan) I 24 sb.1), t || sb.2)
where
  e4m3Int (x : Nat) : Int :=
    match Fp.decode .e4m3 x with
    | .fin n mm e => signed n (toUnits mm e (-9)).1
    | _ => 0

def MEng.cell (m : MEng) (i j : Nat) : Nat := leNat (m.cells.read (512 * i + 4 * j) 4)
def MEng.cellTaint (m : MEng) (i j : Nat) : Bool := m.cellT.has (128 * i + j)
def MEng.setCell (m : MEng) (i j v : Nat) (t : Bool) : MEng :=
  { m with cells := m.cells.write (512 * i + 4 * j) (leBytes 4 v), cellT := m.cellT.mk (128 * i + j) t }

/-- R230, R234: cell (i, j) at one step. A group is folded when its last unit reaches the cell (R55); `.z` clears the cell
with its first group. -/
def Core.stepCell (c : Core) (m : Mma) (step i j : Nat) : Core :=
  if step < i + j ∨ m.units ≤ step - i - j then c
  else
    let u := step - i - j
    let W := groupOf m.prof m.ku
    if (m.ku * (u + 1)) % W = 0 ∨ u + 1 = m.units then
      let g := m.ku * u / W
      let fresh := m.z && g == 0
      let r := c.foldGroup m i j g (if fresh then 0 else c.m.cell i j)
      { c with m := c.m.setCell i j r.1 (r.2 || (!fresh && c.m.cellTaint i j)) }
    else c
/-- One step over the active cells. -/
def Core.stepArray (c : Core) (m : Mma) (step : Nat) : Core :=
  (List.range (m.th + 1)).foldl (fun c i => (List.range (m.tw + 1)).foldl (fun c j => c.stepCell m step i j) c) c

/-- Whether an MMA advances at a cycle (R231, R244). -/
def Mma.running (m : Mma) (now : Nat) : Bool := m.started && decide (m.resume ≤ now) && decide (m.fstep < m.steps)
/-- One cycle of an MMA's own progress. -/
def Mma.advance (m : Mma) : Mma := if m.fph + 1 = m.tau then { m with fstep := m.fstep + 1, fph := 0 } else { m with fph := m.fph + 1 }
/-- A core whose streams' writes of scratchpad on their way have landed. What is ordered before an MMA is among them, and of what is not, a
product may use the new value (R84, R233). -/
def Core.spAhead (c : Core) : Core :=
  c.pend.foldl (fun d p => match p.target with
    | .sp _ a bs => d.spWrite a bs
    | .chan _ _ _ a bs => d.spWrite a bs
    | _ => d) c
/-- One virtual cycle of every running MMA (R231). -/
def Core.arrayCycle (c : Core) (now : Nat) : Core :=
  let c1 := c.m.mmas.foldl (fun c m => if m.running now && m.fph + 1 == m.tau then c.stepArray m m.fstep else c) c.spAhead
  { c with m := { c1.m with mmas := c.m.mmas.map fun m => if m.running now then m.advance else m } }
/-- Steps the array takes at a cycle, for performance counter 2. -/
def Core.stepsAt (c : Core) (now : Nat) : Nat := (c.m.mmas.filter fun m => m.running now && m.fph + 1 == m.tau).length

/-! Issue (R227, R228, R231). -/

/-- An MMA as it is written; its D field is ignored, and kept in its descriptor (R242). -/
structure MmaWord where
  d : F6
  a : F6
  b : F6
  p : BitVec 1
  z : BitVec 1
  prof : BitVec 4
  fa : BitVec 5
  fb : BitVec 5
  km1 : BitVec 14
deriving DecidableEq, Repr

/-- The channel slot an operand field names: the k-th from the consumer index. -/
def Core.headSlot (c : Core) (f : F6) (k : Nat) : Nat :=
  let ch := c.chan (f.toNat - 48)
  ch.slot (ch.cidx + k)
def isChan (f : F6) : Bool := decide (48 ≤ f.toNat)
/-- Whether a channel field names a configured channel; true for a register. -/
def Core.chanOk (c : Core) (f : F6) : Bool := !isChan f || (c.chan (f.toNat - 48)).cfg
/-- Slots B's operand lies past A's on the same channel (R104). -/
def bSkip (a b : F6) : Nat := if isChan a ∧ a = b then 1 else 0

/-- Operand base before mapping. -/
def Core.mmaBase (c : Core) (f : F6) (skip : Nat) : Nat :=
  if isChan f then c.headSlot f skip else W64.f (c.strM.rs? f.toNat) 31 0

def mctlTH (m : W64) : Nat := W64.f m 6 0
def mctlTW (m : W64) : Nat := W64.f m 13 7
def mctlA (m : W64) : Nat := W64.f m 31 16
def mctlB (m : W64) : Nat := W64.f m 47 32

/-- One operand's conditions of R227; those that its format decides are left out for a code that no profile takes. -/
def Core.mmaChecks (c : Core) (f : F6) (fmt base k str sc : Nat) : List (Bool × Nat) :=
  if mmaWidth fmt = 0 then [(c.chanOk f, 11)]
  else
  let ext := extentOf fmt k str
  [(!isChan f || !c.chanOk f || decide (ext ≤ (c.chan (f.toNat - 48)).size), 8),
   (decide (fmt = 5) || decide (str = 0) || decide (mmaWidth fmt ≤ str), 10),
   (c.chanOk f, 11),
   (decide (base % (if fmt = 5 then 32 else 16) = 0), 24),
   ((c.window base ext).isSome, 24),
   (decide (fmt ≠ 5) || (c.window sc (scaleExtent k)).isSome, 24)]

/-- R227: every condition of an MMA. -/
def Core.mmaCauses (c : Core) (x : MmaWord) : List (Bool × Nat) :=
  let fa := x.fa.toNat
  let fb := x.fb.toNat
  let k := x.km1.toNat + 1
  [(decide (x.prof.toNat ≤ 5), 5),
   (decide (x.prof.toNat ≠ 5) || decide (k % 64 = 0), 8),
   (mmaPair x.prof.toNat fa fb, 10)]
  ++ c.mmaChecks x.a fa (c.mmaBase x.a 0) k (mctlA c.m.mctl) c.m.sca.toNat
  ++ c.mmaChecks x.b fb (c.mmaBase x.b (bSkip x.a x.b)) k (mctlB c.m.mctl) c.m.scb.toNat

/-- R228: whether the operand channels have the slots an MMA needs. -/
def Core.mmaReady (c : Core) (x : MmaWord) : Bool :=
  decide (c.m.mmas.length < 2) &&
    (!isChan x.a || decide (1 ≤ (c.chan (x.a.toNat - 48)).avail)) &&
    (!isChan x.b || decide (1 + bSkip x.a x.b ≤ (c.chan (x.b.toNat - 48)).avail))

/-- The channel an operand holds until fin: without peek, its number and epoch. -/
def Core.heldChan (c : Core) (f : F6) (p : BitVec 1) : Option (Nat × Nat) :=
  if isChan f ∧ p = 0 then some (f.toNat - 48, (c.chan (f.toNat - 48)).epoch) else none
def Core.takeChan (c : Core) (h : Option (Nat × Nat)) (n : Nat) : Core :=
  match h with
  | some (k, _) => c.setChan k ((c.chan k).take n)
  | none => c

/-- The words of an MMA as issued, with its guard cleared (Table 8-7). -/
def MmaWord.word0 (x : MmaWord) : W32 :=
  BitVec.ofNat 32 (0x80500000 + x.d.toNat * 2 ^ 14 + x.a.toNat * 2 ^ 8 + x.b.toNat * 2 ^ 2 + x.p.toNat * 2 + x.z.toNat)
def MmaWord.word1 (x : MmaWord) : W32 :=
  BitVec.ofNat 32 (0xD0000000 + x.prof.toNat * 2 ^ 24 + x.fa.toNat * 2 ^ 19 + x.fb.toNat * 2 ^ 14 + x.km1.toNat)

/-- R227 to R231: an MMA is accepted at a cycle. -/
def Core.mmaAccept (c : Core) (x : MmaWord) (now : Nat) : Core :=
  let k := x.km1.toNat + 1
  let fa := x.fa.toNat
  let fb := x.fb.toNat
  let ab := (c.window (c.mmaBase x.a 0) (extentOf fa k (mctlA c.m.mctl))).getD 0
  let bb := (c.window (c.mmaBase x.b (bSkip x.a x.b)) (extentOf fb k (mctlB c.m.mctl))).getD 0
  let sa := if fa = 5 then (c.window c.m.sca.toNat (scaleExtent k)).getD 0 else c.m.sca.toNat
  let sb := if fb = 5 then (c.window c.m.scb.toNat (scaleExtent k)).getD 0 else c.m.scb.toNat
  let F := if c.m.pta = (BitVec.ofNat 32 ab, true) ∧ c.m.ptb = (BitVec.ofNat 32 bb, true) then 1 else 5
  let m0 : Mma :=
    { word0 := x.word0, word1 := x.word1, abase := ab, bbase := bb, sca := sa, scb := sb, astr := mctlA c.m.mctl,
      bstr := mctlB c.m.mctl, th := mctlTH c.m.mctl, tw := mctlTW c.m.mctl, ach := c.heldChan x.a x.p, bch := c.heldChan x.b x.p,
      fin := 0, fstep := 0, fph := 0, started := false, resume := 0 }
  let m1 : Mma :=
    match c.m.mmas with
    | [] => m0.startingAt (now + F)
    | f :: _ =>
      if f.tau = m0.tau ∧ f.ku = m0.ku ∧ f.th = m0.th ∧ f.tw = m0.tw then
        m0.startingAt (max (now + F) (f.fin - f.tau * (f.th + f.tw)))
      else m0.startingAt (max (now + F) f.fin)
  let c1 := (c.takeChan m1.ach 1).takeChan m1.bch 1
  { c1 with m := { c1.m with mmas := c1.m.mmas ++ [m1], pta := (c1.m.pta.1, false), ptb := (c1.m.ptb.1, false) } }

/-- A held slot is released (R228). -/
def Core.releaseChan (c : Core) (h : Option (Nat × Nat)) : Core :=
  match h with
  | some (k, ep) => c.setChan k ((c.chan k).release 1 ep)
  | none => c
/-- R231: the oldest MMA finishes when its cycle has come. -/
def Core.mmaFin (c : Core) (now : Nat) : Core :=
  match c.m.mmas with
  | m :: ms =>
    if m.steps ≤ m.fstep ∧ m.fin ≤ now then
      let c1 := (c.releaseChan m.ach).releaseChan m.bch
      { c1 with m := { c1.m with mmas := ms, mcnt := c1.m.mcnt + 1 } }
    else c
  | [] => c

/-! The save image (R241 to R244). -/

/-- A held channel in a descriptor (Table 8-7). -/
def heldByte (h : Option (Nat × Nat)) : Nat := (h.map (·.1 + 1)).getD 0
/-- The 48 bytes of a descriptor as the array stands before a cycle. -/
def Mma.descr (m : Mma) (now : Nat) (chans : Bool) : List Byte :=
  leBytes 4 m.word0.toNat ++ leBytes 4 m.word1.toNat ++ leBytes 4 m.abase ++ leBytes 4 m.bbase ++ leBytes 4 m.sca ++ leBytes 4 m.scb
    ++ leBytes 2 m.astr ++ leBytes 2 m.bstr ++ leBytes 1 m.th ++ leBytes 1 m.tw
    ++ leBytes 1 (if chans then heldByte m.ach else 0) ++ leBytes 1 (if chans then heldByte m.bch else 0)
    ++ leBytes 4 m.fstep ++ leBytes 1 m.fph ++ zeros 3 ++ leBytes 4 (if m.started then 0 else m.start - now) ++ zeros 4
/-- Bits as bytes, bit k in bit k mod 8 of byte k div 8. -/
def bitBytes (n : Nat) (f : Nat → Bool) : List Byte :=
  (List.range n).map fun k => BitVec.ofNat 8 ((List.range 8).foldl (fun a b => a + bitAt (f (8 * k + b)) b) 0)
/-- R241: the array save image; `now` is the cycle the array stands before. -/
def MEng.image (m : MEng) (now : Nat) (frozen : Bool) : List Byte :=
  let ds := if frozen then m.mmas.map (·.descr now true) else []
  leBytes 2 1 ++ leBytes 1 (1 + bitAt frozen 1 + 4 * ds.length) ++ zeros 13 ++ (ds.getD 0 (zeros 48)) ++ (ds.getD 1 (zeros 48))
    ++ zeros 16 ++ m.cells.read 0 65536 ++ bitBytes 2048 m.cellT.has

/-- An accepted MMA read from a descriptor, to step from a cycle on. -/
def Mma.ofDescr (bs : List Byte) (at_ : Nat) (epochs : Nat → Nat) : Mma :=
  let g := fun o n => leNat ((bs.drop o).take n)
  let m : Mma :=
    { word0 := BitVec.ofNat 32 (g 0 4), word1 := BitVec.ofNat 32 (g 4 4), abase := g 8 4, bbase := g 12 4, sca := g 16 4,
      scb := g 20 4, astr := g 24 2, bstr := g 26 2, th := g 28 1 % 128, tw := g 29 1 % 128,
      ach := if g 30 1 = 0 then none else some (g 30 1 - 1, epochs (g 30 1 - 1)),
      bch := if g 31 1 = 0 then none else some (g 31 1 - 1, epochs (g 31 1 - 1)),
      fin := 0, fstep := g 32 4, fph := g 36 1, started := g 40 4 == 0, resume := at_ }
  if g 40 4 = 0 then { m with fin := at_ + m.tau * (m.steps - m.fstep) - m.fph } else m.startingAt (at_ + g 40 4)

/-- R244: whether a descriptor's words would raise a cause at issue, or its progress is out of range. -/
def Mma.wordsOk (m : Mma) : Bool :=
  (m.word0.toNat / 2 ^ 20 % 64 == 5) && m.word0.getLsbD 31 && (m.word1.toNat / 2 ^ 28 == 0xD) && mmaPair m.prof m.fa m.fb
    && (m.prof != 5 || m.k % 64 == 0)
    && (m.fa == 5 || m.astr == 0 || decide (mmaWidth m.fa ≤ m.astr)) && (m.fb == 5 || m.bstr == 0 || decide (mmaWidth m.fb ≤ m.bstr))
    && decide (m.abase % (if m.fa = 5 then 32 else 16) = 0) && decide (m.bbase % (if m.fb = 5 then 32 else 16) = 0)
    && decide (m.fstep ≤ m.steps) && decide (m.fph < m.tau)
/-- R244 and R227: a descriptor's channels and windows too. The saved bases and scale addresses are checked against the windows and the channels of
the job that fills, as they stand (DESIGN CHOICE, log 37). -/
def Core.mmaValid (c : Core) (m : Mma) : Bool :=
  m.wordsOk
    && decide (lowest (c.mmaChecks (BitVec.ofNat 6 (m.word0.toNat / 2 ^ 8)) m.fa m.abase m.k m.astr m.sca
      ++ c.mmaChecks (BitVec.ofNat 6 (m.word0.toNat / 2 ^ 2)) m.fb m.bbase m.k m.bstr m.scb) = 0)
/-- Accepted MMAs of an image. -/
def imageMmas (bs : List Byte) (at_ : Nat) (epochs : Nat → Nat) : List Mma :=
  let n := leNat ((bs.drop 2).take 1) / 4 % 4
  (if 1 ≤ n then [Mma.ofDescr ((bs.drop 16).take 48) at_ epochs] else [])
    ++ (if 2 ≤ n then [Mma.ofDescr ((bs.drop 64).take 48) at_ epochs] else [])
/-- R244: whether MFILL accepts an image. -/
def Core.imageOk (c : Core) (bs : List Byte) : Bool :=
  leNat (bs.take 2) == 1 && nbit (leNat ((bs.drop 2).take 1)) 0 && leNat ((bs.drop 2).take 1) / 4 % 4 != 3
    && (imageMmas bs 0 fun _ => 0).all c.mmaValid
/-- Cells and their taint from an image. -/
def MEng.load (m : MEng) (bs : List Byte) : MEng :=
  { m with
    cells := Mem.write [] 0 ((bs.drop 128).take 65536)
    cellT := (List.range 16384).filter fun k => (((bs.drop 65664).take 2048).getD (k / 8) 0).getLsbD (k % 8) }

/-- R247: every accepted MMA is abandoned; the active cells hold undefined values, held slots count as consumed. -/
def Core.abandonMmas (c : Core) (free : Nat) : Core × Nat :=
  c.m.mmas.foldl (fun (x : Core × Nat) m =>
    let c1 := (x.1.releaseChan m.ach).releaseChan m.bch
    let cells := (List.range (m.th + 1)).flatMap fun i => (List.range (m.tw + 1)).map fun j => (i, j)
    let e := (List.range cells.length).zip cells |>.foldl (fun e y => e.setCell y.2.1 y.2.2 (Config.freeWord (x.2 + y.1)).toNat (e.cellTaint y.2.1 y.2.2)) c1.m
    ({ c1 with m := { e with mmas := [] } }, x.2 + cells.length)) (c, free)

end Sys2Proof.Machine
end

