-- ==== Sys2Proof/Machine/VecNum.lean ====
section
/-! DEFINITION. Chapter 6 of the spec, the arithmetic alone: element types, packing, element-wise operations, conversions,
reductions, the special functions, VRAND and VBUCKET's grouping, as functions of values. -/
namespace Sys2Proof.Machine

/-- Table 4-4: the types a five-bit type code names. -/
inductive ElTy where
  | fp (f : FpF)
  | qc4
  | int (sgn : Bool) (w : Nat)
  | raw (w : Nat)
deriving DecidableEq, Repr

/-- Table 4-4's codes; any other code raises cause 10 (R109). -/
def ElTy.ofCode (n : Nat) : Option ElTy :=
  match n with
  | 0x00 => some (.fp .f32)
  | 0x01 => some (.fp .f16)
  | 0x02 => some (.fp .bf16)
  | 0x03 => some (.fp .e4m3)
  | 0x04 => some (.fp .e5m2)
  | 0x05 => some .qc4
  | 0x08 => some (.int true 4)
  | 0x09 => some (.int true 8)
  | 0x0A => some (.int true 16)
  | 0x0B => some (.int true 32)
  | 0x0C => some (.int true 64)
  | 0x0D => some (.int false 8)
  | 0x0E => some (.int false 16)
  | 0x0F => some (.int false 32)
  | 0x10 => some (.int false 64)
  | 0x14 => some (.raw 8)
  | 0x15 => some (.raw 16)
  | 0x16 => some (.raw 32)
  | 0x17 => some (.raw 64)
  | _ => none

/-- The width of a type in bits. -/
def ElTy.width : ElTy → Nat
  | .fp f => f.width
  | .qc4 => 4
  | .int _ w => w
  | .raw w => w

def ElTy.isFp : ElTy → Bool
  | .fp _ => true
  | _ => false

def ElTy.isRaw : ElTy → Bool
  | .raw _ => true
  | _ => false

/-- The types SHAPE.TY may hold (R172). -/
def ElTy.shapeOk (t : ElTy) : Bool :=
  match t with
  | .fp _ => true
  | .int _ w => w == 8 || w == 16 || w == 32
  | .raw w => w == 8 || w == 16 || w == 32
  | .qc4 => false

/-- A vector register's value with a taint bit for each 32-bit container (R56). -/
structure VVal where
  data : VWord
  taint : BitVec 256
deriving DecidableEq, Repr

def VVal.zero : VVal := ⟨0, 0⟩

/-- One element with the taint of the container that holds it. -/
abbrev Elem := Nat × Bool

/-- Elements 0 to n-1 of w bits (R173). -/
def unpackElems (w n : Nat) (v : VVal) : List Elem :=
  (List.range n).map fun i => (v.data.toNat >>> (w * i) % 2 ^ w, v.taint.getLsbD (w * i / 32))

/-- Elements laid in order from bit 0. -/
def packBits (w : Nat) : List Nat → Nat
  | [] => 0
  | x :: xs => x % 2 ^ w + 2 ^ w * packBits w xs

/-- The container taints of elements laid in order from bit 0 (R178). -/
def packTaint (w : Nat) : Nat → List Elem → Nat
  | _, [] => 0
  | i, x :: xs => (if x.2 then 1 <<< (w * i / 32) else 0) ||| packTaint w (i + 1) xs

/-- R173: the elements from bit 0 and zero, untainted, beyond them. -/
def packElems (w : Nat) (es : List Elem) : VVal :=
  ⟨BitVec.ofNat 8192 (packBits w (es.map Prod.fst)), BitVec.ofNat 256 (packTaint w 0 es)⟩

/-- A value as a signed number of w bits. -/
def toS (w x : Nat) : Int := (BitVec.ofNat w x).toInt
/-- An integer narrowed to w bits. -/
def ofI (w : Nat) (x : Int) : Nat := (x % (2 ^ w : Int)).toNat
/-- An encoding read as the integer of its type. -/
def intVal (sgn : Bool) (w x : Nat) : Int := if sgn then toS w x else (x % 2 ^ w : Nat)

/-- The element-wise instructions of Table 6-3. -/
inductive VOp where
  | add | sub | mul | fma | fms | min | max | abs | neg | and | or | xor | shl | shr | sra | mulh | adds | subs
deriving DecidableEq, Repr

/-- Whether an operation is defined for a type: the entries of Table 6-3 that are not "10". -/
def VOp.okFor (op : VOp) (t : ElTy) : Bool :=
  match op with
  | .and | .or | .xor => true
  | .shl | .shr | .sra => !t.isFp
  | .mulh | .adds | .subs => !t.isFp && !t.isRaw
  | _ => !t.isRaw

/-- R181: fmin and fmax. -/
def fpMinMax (f : FpF) (isMax : Bool) (a b : Nat) : Nat :=
  let x := Fp.decode f a
  let y := Fp.decode f b
  if x.isNan && y.isNan then f.cnan
  else if x.isNan then b
  else if y.isNan then a
  else
    let less := x.lt y || (Fp.eq x y && x.isNeg && !y.isNeg)
    if isMax then (if less then b else a) else (if less then a else b)

/-- Table 6-3, one element of a floating-point type. -/
def fpElem (f : FpF) (rm : Rm) (op : VOp) (a b d : Nat) : Rounded :=
  let x := Fp.decode f a
  let y := Fp.decode f b
  let z := Fp.decode f d
  match op with
  | .add => finish f rm (Fp.add rm x y) [x, y]
  | .sub => finish f rm (Fp.add rm x y.neg) [x, y]
  | .mul => finish f rm (Fp.mul x y) [x, y]
  | .fma => finish f rm (Fp.add rm (Fp.mul x y) z) [x, y, z]
  | .fms => finish f rm (Fp.add rm z (Fp.mul x y).neg) [x, y, z]
  | .min => ⟨fpMinMax f false a b, 0⟩
  | .max => ⟨fpMinMax f true a b, 0⟩
  | .abs => ⟨if x.isNan then f.cnan else a % 2 ^ (f.width - 1), 0⟩
  | .neg => ⟨if x.isNan then f.cnan else a ^^^ 2 ^ (f.width - 1), 0⟩
  | .and => ⟨a &&& b, 0⟩
  | .or => ⟨a ||| b, 0⟩
  | .xor => ⟨a ^^^ b, 0⟩
  | _ => ⟨0, 0⟩

/-- Table 6-3, one element of an integer or raw type of w bits. -/
def intElem (sgn : Bool) (w : Nat) (op : VOp) (a b d : Nat) : Nat :=
  let x := intVal sgn w a
  let y := intVal sgn w b
  let sh := b % w
  match op with
  | .add => (a + b) % 2 ^ w
  | .sub => ofI w ((a : Int) - b)
  | .mul => a * b % 2 ^ w
  | .fma => (a * b + d) % 2 ^ w
  | .fms => ofI w ((d : Int) - a * b)
  | .min => if x ≤ y then a else b
  | .max => if x ≤ y then b else a
  | .abs => if sgn then ofI w x.natAbs else a
  | .neg => ofI w (-(a : Int))
  | .and => a &&& b
  | .or => a ||| b
  | .xor => a ^^^ b
  | .shl => a <<< sh % 2 ^ w
  | .shr => a >>> sh
  | .sra => ofI w (toS w a >>> sh)
  | .mulh => ofI w ((x * y) / (2 ^ w : Int))
  | .adds => ofI w (satInt sgn w (x + y) 0).1
  | .subs => ofI w (satInt sgn w (x - y) 0).1

/-- One element of any type. -/
def vElem (t : ElTy) (rm : Rm) (op : VOp) (a b d : Nat) : Rounded :=
  match t with
  | .fp f => fpElem f rm op a b d
  | .int sgn w => ⟨intElem sgn w op a b d, 0⟩
  | .raw w => ⟨intElem false w op a b d, 0⟩
  | .qc4 => ⟨0, 0⟩

/-- R182: VCMP's condition. -/
def cmpElem (t : ElTy) (cc : Nat) (a b : Nat) : Bool :=
  let r : Bool × Bool × Bool :=  -- unordered, less, equal
    match t with
    | .fp f =>
      let x := Fp.decode f a
      let y := Fp.decode f b
      (x.isNan || y.isNan, x.lt y, Fp.eq x y)
    | .int sgn w => (false, decide (intVal sgn w a < intVal sgn w b), a == b)
    | _ => (false, decide (a < b), a == b)
  match cc with
  | 0 => r.2.2
  | 1 => !r.2.2
  | 2 => r.2.1
  | 3 => r.2.1 || r.2.2
  | 4 => !r.1 && !r.2.1 && !r.2.2
  | 5 => !r.1 && !r.2.1
  | 6 => r.1
  | _ => !r.1

/-- R182: the conditions a type allows. -/
def cmpOk (t : ElTy) (cc : Nat) : Bool := !t.isRaw || cc == 0 || cc == 1

/-- The exact value of an element that is not raw and not QC4. -/
def elemVal (t : ElTy) (x : Nat) : Fp :=
  match t with
  | .fp f => Fp.decode f x
  | .int sgn w => Fp.ofInt (intVal sgn w x)
  | _ => Fp.ofInt x

/-- R35: a NaN that an operation gives is the canonical NaN of its format. -/
def canonNan (t : ElTy) (x : Nat) : Nat :=
  match t with
  | .fp f => if (Fp.decode f x).isNan then f.cnan else x
  | _ => x

/-- R186: one element converted; the types are not raw and the source is not QC4. -/
def cvtElem (src dst : ElTy) (rm : Rm) (x : Nat) : Rounded :=
  if src = dst then
    ⟨canonNan src x, 0⟩
  else match dst with
    | .fp f => roundFp f rm (elemVal src x)
    | .int sgn w => let r := roundInt sgn w rm (elemVal src x); ⟨ofI w r.1, r.2⟩
    | _ => ⟨x, 0⟩

/-- R187: one element converted stochastically from FP32. -/
def cvtsElem (dst : ElTy) (b x : Nat) : Rounded :=
  match dst with
  | .fp f => roundStoch f b (Fp.decode .f32 x)
  | .int sgn w => let r := roundIntStoch sgn w b (Fp.decode .f32 x); ⟨ofI w r.1, r.2⟩
  | _ => ⟨x, 0⟩

/-- R190: the kinds of reduction. -/
inductive RedOp where
  | sum | max | min
deriving DecidableEq, Repr

/-- R190: the exact sum of finite values, rounded once. -/
def sumFp (f : FpF) (rm : Rm) (xs : List Fp) : Rounded :=
  if xs.any (fun x => x.isInf && x.isNeg) && xs.any (fun x => x.isInf && !x.isNeg) then ⟨f.cnan, flagNV⟩
  else if xs.any Fp.isNan then ⟨f.cnan, 0⟩
  else
    let s := xs.foldl (Fp.add .rne) (.fin false 0 0)
    if s.isZero then
      ⟨f.signBit (if xs.all (fun x => x.isZero && x.isNeg) then true
        else if xs.all (fun x => x.isZero && !x.isNeg) then false else decide (rm = .rd)), 0⟩
    else roundFp f rm s

/-- R190: one reduction of a non-empty list of elements. -/
def reduceElems (t : ElTy) (rm : Rm) (op : RedOp) (xs : List Nat) : Rounded :=
  match op, t with
  | .sum, .fp f => sumFp f rm (xs.map (Fp.decode f))
  | .sum, t => ⟨xs.foldl (· + ·) 0 % 2 ^ t.width, 0⟩
  | .max, t => ⟨canonNan t (xs.foldl (fun a b => (vElem t rm .max a b 0).bits) (xs.headD 0)), 0⟩
  | .min, t => ⟨canonNan t (xs.foldl (fun a b => (vElem t rm .min a b 0).bits) (xs.headD 0)), 0⟩

/-- The special functions of Table 4-9. -/
inductive SfFn where
  | exp2 | log2 | rcp | rsq | sinpi | cospi | tanh
deriving DecidableEq, Repr

/-- Table 4-9's code of a special function, which places its coefficients (R199). -/
def SfFn.code : SfFn → Nat
  | .exp2 => 0 | .log2 => 1 | .rcp => 2 | .rsq => 3 | .sinpi => 4 | .cospi => 5 | .tanh => 6

/-- rne(p * t + k, FP32) as R200 fuses it. -/
def fma32 (p t k : Fp) : Fp := rneF32 (Fp.add .rne (Fp.mul p t) k)

/-- R200's polynomial at interval j and offset t, from the coefficient memory `k fn j q` (R199). -/
def sfPoly (k : Nat → Nat → Nat → Nat) (fn : SfFn) (j : Nat) (t : Fp) : Fp :=
  let c := fun q => Fp.decode .f32 (k fn.code j q)
  fma32 (fma32 (fma32 (c 3) t (c 2)) t (c 1)) t (c 0)

/-- floor(x * 2^s) of a finite value. -/
def floorScaled (neg : Bool) (m : Nat) (e : Int) (s : Nat) : Int :=
  let u := toUnits m (e + s) 0
  if neg then -(if u.2.1 = 0 then (u.1 : Int) else u.1 + 1) else u.1

/-- The exact value i * 2^e of an integer. -/
def dyadic (i : Int) (e : Int) : Fp := .fin (decide (i < 0)) i.natAbs e

/-- The exact difference of two finite values; an exact zero is +0. -/
def fpSub (a b : Fp) : Fp := Fp.add .rne a b.neg

/-- Sign given to a value that is not NaN. -/
def withSign (neg : Bool) (v : Fp) : Fp := if neg then v.neg else v

/-- m * 2^e of a non-zero magnitude as a mantissa in [1, 2) over its exponent. -/
def mantOf (m : Nat) : Fp := .fin false m (-(Nat.log2 m : Int))

/-- R200 and Table 6-5: one special function of a finite FP32 value that meets no case of NaN or infinity. -/
def sfFinite (k : Nat → Nat → Nat → Nat) (fn : SfFn) (neg : Bool) (m : Nat) (e : Int) : Fp :=
  let x : Fp := .fin neg m e
  let ex := log2Of m e
  match fn with
  | .exp2 =>
    if !x.lt (Fp.ofInt 128) then .inf false
    else if x.lt (Fp.ofInt (-150)) then .fin false 0 0
    else
      let X := floorScaled neg m e 5
      let t := fpSub x (dyadic X (-5))
      rneF32 ((sfPoly k fn (X % 32).toNat t).scale (X / 32))
  | .log2 =>
    if m = 0 then .inf true
    else if neg then .nan
    else if Fp.eq x (Fp.ofInt 1) then .fin false 0 0
    else
      let mm := fpSub (mantOf m) (Fp.ofInt 1)
      let j := floorScaled false m (-(Nat.log2 m : Int)) 5 - 32
      let t := fpSub mm (dyadic j (-5))
      rneF32 (Fp.add .rne (Fp.ofInt ex) (sfPoly k fn j.toNat t))
  | .rcp =>
    if m = 0 then .inf neg
    else
      let mm := fpSub (mantOf m) (Fp.ofInt 1)
      let j := floorScaled false m (-(Nat.log2 m : Int)) 5 - 32
      let t := fpSub mm (dyadic j (-5))
      withSign neg (rneF32 ((sfPoly k fn j.toNat t).scale (-ex)))
  | .rsq =>
    if m = 0 then .inf neg
    else if neg then .nan
    else if ex % 2 = 0 then
      let j := floorScaled false m (-(Nat.log2 m : Int)) 4 - 16
      let t := fpSub (fpSub (mantOf m) (Fp.ofInt 1)) (dyadic j (-4))
      rneF32 ((sfPoly k fn j.toNat t).scale (-(ex / 2)))
    else
      let u := (mantOf m).scale 1
      let i := floorScaled false m (1 - (Nat.log2 m : Int)) 3 - 16
      let t := fpSub (fpSub u (Fp.ofInt 2)) (dyadic i (-3))
      rneF32 ((sfPoly k fn (16 + i.toNat) t).scale (-((ex - 1) / 2)))
  | .sinpi =>
    let r := toUnits m e 0
    if r.2.1 = 0 then .fin neg 0 0
    else
      let n := if roundUp .rne neg r.1 r.2.1 r.2.2 then r.1 + 1 else r.1
      let f := fpSub x (Fp.ofInt (signed neg n))
      let a := f.abs
      let j := match a with
        | .fin _ am ae => min (floorScaled false am ae 6) 31
        | _ => 31
      withSign ((n % 2 == 1) != f.isNeg) (sfPoly k fn j.toNat (fpSub a (dyadic j (-6))))
  | .cospi =>
    let r := toUnits m e 0
    let n := if roundUp .rne neg r.1 r.2.1 r.2.2 then r.1 + 1 else r.1
    let a := (fpSub x (Fp.ofInt (signed neg n))).abs
    if Fp.eq a (dyadic 1 (-1)) then .fin false 0 0
    else if a.isZero then withSign (n % 2 == 1) (Fp.ofInt 1)
    else
      let j := match a with
        | .fin _ am ae => min (floorScaled false am ae 6) 31
        | _ => 31
      withSign (n % 2 == 1) (sfPoly k fn j.toNat (fpSub a (dyadic j (-6))))
  | .tanh =>
    if !x.abs.lt (Fp.ofInt 16) then withSign neg (Fp.ofInt 1)
    else if x.abs.lt (dyadic 1 (-12)) then x
    else
      let m1 : Int := floorScaled false m (-(Nat.log2 m : Int)) 1 - 2
      let j := 2 * (ex + 12) + m1
      let t := fpSub x.abs ((dyadic (2 + m1) (-1)).scale ex)
      withSign neg (sfPoly k fn j.toNat t)

/-- R200: one special function of one FP32 code, giving an FP32 code. -/
def specialFn (k : Nat → Nat → Nat → Nat) (fn : SfFn) (x : Nat) : Nat :=
  (roundFp .f32 .rne (match Fp.decode .f32 x with
    | .nan => .nan
    | .inf neg =>
      match fn with
      | .exp2 => if neg then .fin false 0 0 else .inf false
      | .log2 => if neg then .nan else .inf false
      | .rcp => .fin neg 0 0
      | .rsq => if neg then .nan else .fin false 0 0
      | .sinpi | .cospi => .nan
      | .tanh => withSign neg (Fp.ofInt 1)
    | .fin neg m e => sfFinite k fn neg m e)).bits

/-- R202: the round constants. -/
def randK (r : Nat) : Nat := (r + 1) * 0x9E3779B9 % 2 ^ 32
/-- 32-bit left rotation. -/
def rotl32 (x n : Nat) : Nat := ((x <<< n) ||| (x >>> (32 - n))) % 2 ^ 32

/-- R202: rounds r, r+1, ..., for the given number of rounds. -/
def randRounds : Nat → Nat → Nat → Nat → Nat → Nat → Nat × Nat × Nat × Nat
  | 0, _, x0, x1, x2, x3 => (x0, x1, x2, x3)
  | n + 1, r, x0, x1, x2, x3 =>
    let x0 := (x0 + x1 + randK r) % 2 ^ 32
    let x3 := rotl32 (x3 ^^^ x0) 16
    let x2 := (x2 + x3) % 2 ^ 32
    let x1 := rotl32 (x1 ^^^ x2) 12
    let x0 := (x0 + x1) % 2 ^ 32
    let x3 := rotl32 (x3 ^^^ x0) 8
    let x2 := (x2 + x3) % 2 ^ 32
    let x1 := rotl32 (x1 ^^^ x2) 7
    randRounds n (r + 1) x0 x1 x2 x3

/-- R202: draw j, the four words of one counter value. -/
def randDraw (key ctr : Nat) : List Nat :=
  let y0 := ctr % 2 ^ 32
  let y1 := ctr / 2 ^ 32 % 2 ^ 32
  let y2 := key % 2 ^ 32
  let y3 := key / 2 ^ 32 % 2 ^ 32
  let x := randRounds 10 0 y0 y1 y2 y3
  [(x.1 + y0) % 2 ^ 32, (x.2.1 + y1) % 2 ^ 32, (x.2.2.1 + y2) % 2 ^ 32, (x.2.2.2 + y3) % 2 ^ 32]

/-- R202: the 256 words of VRAND. -/
def randWords (key base : Nat) : List Nat :=
  (List.range 64).flatMap fun j => randDraw key ((base + j) % 2 ^ 64)

/-- R203: counts of experts E0 to E0 + NE - 1 among the ids. -/
def bucketCounts (e0 ne : Nat) (ids : List Nat) : List Nat :=
  (List.range ne).map fun e => (ids.filter (· == e0 + e)).length

/-- R203: running offsets of counts. -/
def bucketOffsets : Nat → List Nat → List Nat
  | _, [] => []
  | acc, c :: cs => acc :: bucketOffsets (acc + c) cs

/-- R203: the index list, expert by expert in ascending order of element. -/
def bucketIndices (e0 ne : Nat) (pairs : List (Nat × Nat)) : List Nat :=
  (List.range ne).flatMap fun e => (pairs.filter (fun p => p.1 == e0 + e)).map Prod.snd

end Sys2Proof.Machine
end

