-- ==== Sys2Proof/Machine/CopyOps.lean ====
section
/-! DEFINITION. Chapter 9 of the spec: ends and descriptors, the elements of each form, footprints, the moving of bytes, channel
slots, collectives, completion and late causes (R249 to R274, R480). -/
namespace Sys2Proof.Machine

/-! Ends (R249). -/

/-- A copy end as a scalar gives it. -/
inductive End where
  | sp (off : Nat)
  | cm (va : Nat)
  /-- Bits 62:55 of a context address are not all zero: cause 16. -/
  | bad
deriving DecidableEq, Repr

def copyEnd (x : W64) : End :=
  if x.getLsbD 63 then .sp (W64.f x 31 0) else if W64.f x 62 55 = 0 then .cm (W64.f x 54 0) else .bad
def End.addr : End → Nat
  | .sp a => a
  | .cm a => a
  | .bad => 0
def End.isSp : End → Bool
  | .sp _ => true
  | _ => false
def End.ok : End → Bool
  | .bad => false
  | _ => true

/-- Where an element lies before translation: scratchpad, context memory, or a byte of a channel's stream (R257). -/
inductive Place where
  | sp (a : Nat)
  | cm (va : Nat)
  | st (off : Nat)
deriving DecidableEq, Repr

/-- The place i bytes from an end; addresses wrap (R257). -/
def End.at (e : End) (i : Int) : Place :=
  match e with
  | .sp a => .sp (((a : Int) + i) % 2 ^ 32).toNat
  | .cm a => .cm (((a : Int) + i) % 2 ^ 55).toNat
  | .bad => .sp 0

/-- One element before translation. -/
structure Elt where
  dst : Place
  src : Place
  n : Nat
  idxT : Bool
deriving DecidableEq, Repr

/-! Reading descriptors and lists in scratchpad (R61, R84, R167). -/

/-- Scratchpad bytes as the next access of a stream sees them: its own earlier writes, though not landed, come first (R84). -/
def Core.spSeen (c : Core) (e : Engine) (a n : Nat) : List (Byte × Bool) :=
  (List.range n).map fun k =>
    c.pend.foldl (fun acc p =>
      match p.target with
      | .sp e2 b bs => if e2 = e ∧ b ≤ a + k ∧ a + k < b + bs.length then bs.getD (a + k - b) acc else acc
      | _ => acc) (c.spByte (a + k))
/-- A descriptor of n bytes at the address in a scalar: none when misaligned or across a window half. -/
def Core.descriptor (c : Core) (x : W64) (n : Nat) : Option (BitVec 512) :=
  let a := W64.f x 31 0
  if a % 16 = 0 then (c.window a n).map fun b => BitVec.ofNat 512 (leNat (bytesOf (c.spSeen .X b n))) else none
/-- n bytes of a descriptor as a number. -/
def descNat (d : BitVec 512) (o n : Nat) : Nat := d.toNat / 2 ^ (8 * o) % 2 ^ (8 * n)
def descInt (d : BitVec 512) (o : Nat) : Int := (BitVec.ofNat 32 (descNat d o 4)).toInt

/-! Elements of each form. -/

/-- CNTj of a descriptor; an unused dimension counts one (R256). -/
def affCount (d : BitVec 512) (nd j : Nat) : Nat := if j < nd then descNat d (4 * j) 4 else 1
def affSS (d : BitVec 512) (nd j : Nat) : Int := if j < nd then descInt d (16 + 4 * j) else 0
def affDS (d : BitVec 512) (nd j : Nat) : Int := if j < nd then descInt d (32 + 4 * j) else 0
/-- Bytes an affine form moves. -/
def affTotal (d : BitVec 512) (nd es : Nat) : Nat := affCount d nd 0 * affCount d nd 1 * affCount d nd 2 * affCount d nd 3 * es

/-- Index vectors of R257 in ordinal order. -/
def affIndices (d : BitVec 512) (nd : Nat) : List (Nat × Nat × Nat × Nat) :=
  (List.range (affCount d nd 3)).flatMap fun i3 =>
    (List.range (affCount d nd 2)).flatMap fun i2 =>
      (List.range (affCount d nd 1)).flatMap fun i1 => (List.range (affCount d nd 0)).map fun i0 => (i0, i1, i2, i3)
/-- Displacement of an element. -/
def affOff (s0 s1 s2 s3 : Int) (i : Nat × Nat × Nat × Nat) : Int := i.1 * s0 + i.2.1 * s1 + i.2.2.1 * s2 + i.2.2.2 * s3

/-- R257: the elements of an affine form. `dst` or `src` is none for a channel's stream. -/
def affElts (d : BitVec 512) (nd es : Nat) (dst src : Option End) : List Elt :=
  let is := affIndices d nd
  ((List.range is.length).zip is).map fun x =>
    let at_ := fun (e : Option End) (o : Int) => match e with
      | some e => e.at o
      | none => Place.st (x.1 * es)
    { dst := at_ dst (affOff (affDS d nd 0) (affDS d nd 1) (affDS d nd 2) (affDS d nd 3) x.2)
      src := at_ src (affOff (affSS d nd 0) (affSS d nd 1) (affSS d nd 2) (affSS d nd 3) x.2)
      n := es, idxT := false }

/-- R262: the words of a gather (`gath`) or a scatter. -/
def idxElts (gath : Bool) (dst src : End) (rb str : Nat) (skip : Nat) (xs : List (Nat × Bool)) : List Elt :=
  ((List.range xs.length).zip xs).flatMap fun q =>
    if q.2.1 = skip then []
    else
      (List.range (rb / 4)).map fun (k : Nat) =>
        let far : Int := q.2.1 * str + 4 * k
        let near : Int := q.1 * rb + 4 * k
        { dst := dst.at (if gath then near else far), src := src.at (if gath then far else near), n := 4, idxT := q.2.2 }
/-- A run of n bytes in elements of w bytes. -/
def runElts (dst src : End) (n w : Nat) : List Elt :=
  (List.range (n / w)).map fun k => { dst := dst.at (w * k : Nat), src := src.at (w * k : Nat), n := w, idxT := false }

/-! Footprints (R251, R272). -/

/-- What the translation of a footprint found. -/
structure Foot where
  /-- Translated elements, last first. -/
  moves : List Move
  /-- The lowest cause, and for it the lowest address, or for cause 17 the lowest IPA. -/
  bad : Option (Nat × Nat × Option FaultRec)
  /-- A poisoned descriptor that a walk met. -/
  park : Option Nat
  /-- Class latencies of the ends. -/
  src : Nat
  dst : Nat
  /-- An end lies in a decoded view. -/
  view : Bool
  /-- Absent-fetchable source pages: key, leaf address, leaf value, IPA page, level. -/
  tiers : List (Nat × Nat × W64 × Nat × Nat)
deriving DecidableEq, Repr

def Foot.empty : Foot := { moves := [], bad := none, park := none, src := 0, dst := 0, view := false, tiers := [] }
/-- Whether one fault of a footprint comes before another of the same cause: a stage-2 fault by its IPA (R412), another by its address. -/
def faultFirst (va : Nat) (r : Option FaultRec) (v0 : Nat) (r0 : Option FaultRec) : Bool :=
  match r, r0 with
  | some a, some b => decide (a.ipa < b.ipa) || (a.ipa == b.ipa && decide (va < v0))
  | _, _ => decide (va < v0)
/-- A cause joins what has been found. -/
def Foot.note (f : Foot) (c va : Nat) (r : Option FaultRec) : Foot :=
  match f.bad with
  | some (c0, v0, r0) => if c < c0 ∨ (c = c0 ∧ faultFirst va r v0 r0) then { f with bad := some (c, va, r) } else f
  | none => { f with bad := some (c, va, r) }

def Phys.isView : Phys → Bool
  | .view _ => true
  | _ => false

/-- What the page that an element which is not aligned crosses into adds (R11). -/
def State.footPast (s : State) (n : Nat) (k : Access) (len va : Nat) (f : Foot) : Foot :=
  if (va + len - 1) / 65536 ≤ va / 65536 then f
  else
    let b := (va / 65536 + 1) * 65536 % 2 ^ 55
    match s.translate (s.cxnOf (.job n .X)) (s.genOf (.job n .X)) b k with
    | .ok ph _ _ _ => { f with view := f.view || ph.isView }
    | .fault c r => { (f.note c b r) with view := f.view || c == 22 }
    | .poison d => { f with park := some d }
/-- One end of an element, translated; `w` for a destination. -/
def State.footEnd (s : State) (n : Nat) (k : Access) (w : Bool) (len : Nat) (p : Place) (f : Foot) : Loc × Foot :=
  let cls := fun (f : Foot) (c : Nat) => if w then { f with dst := max f.dst c } else { f with src := max f.src c }
  match p with
  | .sp a => (.sp (((s.core n).window a len).getD a), cls f 4)
  | .st o => (.sp o, cls f 4)
  | .cm va =>
    let f := s.footPast n k len va f
    match s.translate (s.cxnOf (.job n .X)) (s.genOf (.job n .X)) va k with
    | .ok ph det ipa l =>
      let f1 := cls { f with view := f.view || ph.isView } (if l.tgt = 3 then 4096 else copyClass ph)
      (.cm va ph det, if l.tgt = 3 then { f1 with tiers := aset f1.tiers l.tierKey (l.addr, BitVec.ofNat 64 l.val, ipa / 65536, l.level) } else f1)
    | .fault c r => (.sp 0, { (f.note c va r) with view := f.view || c == 22 })
    | .poison d => (.sp 0, { f with park := some d })

/-- The footprint of a form's elements. -/
def State.footprint (s : State) (n : Nat) (rd : Access) (es : List Elt) : Foot :=
  es.foldl (fun f e =>
    let a := s.footEnd n accCopyWrite true e.n e.dst f
    let b := s.footEnd n rd false e.n e.src a.2
    { b.2 with moves := { dst := a.1, src := b.1, n := e.n, idxT := e.idxT } :: b.2.moves }) .empty

/-! Issue (R252, R253). -/

def Core.tag (c : Core) (t : Nat) : Tag := vget c.tags (t % 64) .reset
def Core.setTag (c : Core) (t : Nat) (x : Tag) : Core := { c with tags := c.tags.setIfInBounds (t % 64) x }
def Core.copy? (c : Core) (t : Nat) : Option Copy := c.copies.find? (·.tag == t)
def Core.setCopy (c : Core) (x : Copy) : Core := { c with copies := c.copies.map fun y => if y.tag = x.tag then x else y }
def Core.dropCopy (c : Core) (t : Nat) : Core := { c with copies := c.copies.filter (·.tag != t) }

/-- What of the pages of tier fetches a copy keeps: their IPA pages and levels, by key (R410). -/
def tierAsOf (l : List (Nat × Nat × W64 × Nat × Nat)) : List (Nat × Nat × Nat) := l.map fun x => (x.1, x.2.2.2)
/-- Tier fetches begin, each shared by every request for its page (R409). -/
def State.startTiers (s : State) (cxn : Nat) (l : List (Nat × Nat × W64 × Nat × Nat)) : State :=
  s.modCtx cxn fun c => { c with tiers := l.foldl (fun t x => if (aget? t x.1).isSome then t else aset t x.1 x.2) c.tiers }

/-! The lines of a copy at its port (R428, R430, R474). -/

/-- Where a place of context memory lies. -/
def Loc.phys? : Loc → Option Phys
  | .cm _ p _ => some p
  | _ => none

/-- One side of a copy's elements: the lines it touches in element order, and where they go. Elements that follow each other
within one line ask for it once. `last` is one more than the line that the element before ends in, 0 for none. -/
def lineRuns : Nat → List (Loc × Nat) → List (Nat × Dest)
  | _, [] => []
  | last, (.cm va p _, k) :: rest =>
    let n := linesOf va k - bitAt (decide (0 < k) && va / 64 + 1 == last) 0
    match lineRuns (if k = 0 then last else (va + k - 1) / 64 + 1) rest with
    | (m, d) :: l => if n = 0 then (m, d) :: l else if d = p.dest then (n + m, d) :: l else (n, p.dest) :: (m, d) :: l
    | [] => if n = 0 then [] else [(n, p.dest)]
  | last, _ :: rest => lineRuns last rest
/-- The lines that elements read, and then those that they write. -/
def sideRuns (src : Bool) (ms : List Move) : List (Nat × Dest) := lineRuns 0 (ms.map fun m => (if src then m.src else m.dst, m.n))
def runLines (l : List (Nat × Dest)) : Nat := l.foldl (fun a x => a + x.1) 0
/-- The first and the last address of context memory that an end of an element touches. -/
def Loc.vas (l : Loc) (n : Nat) : List Nat :=
  match l with
  | .cm va _ _ => [va, va + n - 1]
  | _ => []
/-- The lines of a copy's elements wait at its port from now, for what needs them: a copy in flight takes up its walks first. -/
def State.askCopy (s : State) (n gen : Nat) (need : Need) (srcs dsts : List Move) : State :=
  let l := sideRuns true srcs ++ sideRuns false dsts
  if l.isEmpty then s
  else s.requests (.job n .X) gen ((srcs.flatMap fun m => m.src.vas m.n) ++ dsts.flatMap fun m => m.dst.vas m.n) need l
    ((srcs.filterMap fun m => m.src.phys?.map fun p => (p, m.n, false)) ++ dsts.filterMap fun m => m.dst.phys?.map fun p => (p, m.n, true))
/-- Lines of a copy that its port has not yet injected, with those of its walks, which go before them. -/
def State.unsent (s : State) (n tag : Nat) : Nat :=
  ((aget? (s.ctx (s.cxnOf (.job n .X))).requests n).getD []).foldl (fun a x => if x.need = .copy tag then a + x.lines else a) 0
/-- How many elements one side's first b lines serve. -/
def fitElts : Nat → Nat → List (Loc × Nat) → Nat
  | _, _, [] => 0
  | b, last, (.cm va _ _, k) :: rest =>
    let n := linesOf va k - bitAt (decide (0 < k) && va / 64 + 1 == last) 0
    if n ≤ b then fitElts (b - n) (if k = 0 then last else (va + k - 1) / 64 + 1) rest + 1 else 0
  | b, last, _ :: rest => fitElts b last rest + 1
/-- How many of a copy's remaining elements its injected lines let be performed; a collective's exchange needs all that it reads. -/
def State.sentElts (s : State) (n : Nat) (x : Copy) : Nat :=
  let w := s.unsent n x.tag
  if w = 0 then x.moves.length
  else
    let all := x.hist ++ x.moves
    let S := runLines (sideRuns true (x.srcs ++ all))
    let I := S + runLines (sideRuns false all) - w
    if !x.srcs.isEmpty ∧ I < S then 0
    else min (fitElts I 0 (all.map fun m => (m.src, m.n))) (fitElts (I - S) 0 (all.map fun m => (m.dst, m.n))) - x.hist.length
/-- The lines of a fill's or a drain's oldest slot have not all been injected. -/
def State.slotUnsent (s : State) (n : Nat) (x : Copy) (w : Nat) : Bool :=
  match x.slots with
  | [] => false
  | sl :: rest =>
    decide (sl.claimed + x.slotLat ≤ w) &&
      decide (rest.foldl (fun a z => a + runLines (sideRuns true z.moves) + runLines (sideRuns false z.moves)) 0 < s.unsent n x.tag)
/-- Requests of a copy that has ended leave without it. -/
def State.disownLines (s : State) (n tag : Nat) : State :=
  s.modCtx (s.cxnOf (.job n .X)) fun c =>
    { c with requests := c.requests.map fun r => if r.1 = n then (r.1, r.2.map fun (x : Req) => if x.need = .copy tag then ({ x with need := .none } : Req) else x) else r }

/-- A copy that has met no cause is in flight. -/
def State.startCopy (s : State) (n : Nat) (x : Copy) : State :=
  let s1 := s.modCore n fun c =>
    { (c.setTag x.tag { infl := true, fb := false, abs := false, readyAt := 0 }) with copies := c.copies ++ [x] }
  if x.slotSize = 0 ∧ x.fell.isNone then (s1.disownLines n x.tag).askCopy n x.gen (.copy x.tag) (x.srcs ++ x.moves) x.moves else s1.disownLines n x.tag

/-! Channel slots of fills and drains (R258, R259). -/

/-- Stream bytes of slot m that an element covers, placed in the slot at `addr`. -/
def Core.slotPlace (c : Core) (addr size off n : Nat) : Nat :=
  let a := addr + off
  match c.window addr size with
  | some b => b + off
  | none => (c.window a n).getD a
/-- The elements of slot m of a fill or a drain, with the slot at `addr` in place of the stream. -/
def Core.slotMoves (c : Core) (x : Copy) (m addr : Nat) : List Move :=
  let fill := x.form = .xfill
  x.moves.filterMap fun e =>
    match if fill then e.dst else e.src with
    | .sp o =>
      if o / x.slotSize = m then
        let l := Loc.sp (c.slotPlace addr x.slotSize (o % x.slotSize) e.n)
        some (if fill then { e with dst := l } else { e with src := l })
      else none
    | _ => none

/-- R258: the next slot of a fill is reserved at this cycle when one is free. -/
def State.fillReserve (s : State) (n tag : Nat) : State :=
  let c := s.core n
  match c.copy? tag with
  | none => s
  | some x =>
    let ch := c.chan x.chan
    let now := s.now n
    if x.form = .xfill ∧ x.claimed < x.nslots ∧ x.nextClaim ≤ now ∧ 0 < ch.free then
      let addr := ch.slot ch.pidx
      let sl : CopySlot := { seq := c.seq, epoch := ch.epoch, addr := addr, claimed := now, released := false, moves := c.slotMoves x x.claimed addr }
      (s.setCore n (({ (c.setChan x.chan (ch.reserve c.seq)) with seq := c.seq + 1 }).setCopy
        { x with claimed := x.claimed + 1, nextClaim := now + cdiv x.slotSize 64, slots := x.slots ++ [sl] })).askCopy n x.gen (.copy tag) sl.moves []
    else s
/-- R259: the next slot of a drain is taken at this cycle when one is available. -/
def State.drainTake (s : State) (n tag : Nat) : State :=
  let c := s.core n
  match c.copy? tag with
  | none => s
  | some x =>
    let ch := c.chan x.chan
    let now := s.now n
    if x.form = .xdrain ∧ x.claimed < x.nslots ∧ x.nextClaim ≤ now ∧ 0 < ch.avail then
      let addr := ch.slot ch.cidx
      let sl : CopySlot := { seq := c.seq, epoch := ch.epoch, addr := addr, claimed := now, released := false, moves := c.slotMoves x x.claimed addr }
      (s.setCore n (({ (c.setChan x.chan (ch.take 1)) with seq := c.seq + 1 }).setCopy
        { x with claimed := x.claimed + 1, nextClaim := now + cdiv x.slotSize 64, slots := x.slots ++ [sl] })).askCopy n x.gen (.copy tag) [] sl.moves
    else s
/-- A copy delivers the lowest of its causes, or issues. `early` are conditions the elements do not enter into; `late` the
others. -/
def State.issueCopy (s : State) (early late : List (Bool × Nat)) (foot : Foot) (go : State → State) : State :=
  if lowest early ≠ 0 ∧ lowest early < 16 then s.cause (lowest early)
  else
    let l := lowest (early ++ late)
    match foot.park, foot.bad with
    | some d, _ => s.parkContext (s.cxnOf s.cur) d
    | none, some (c, va, r) => if l ≠ 0 ∧ l < c then s.cause l else s.take s.cur c va r
    | none, none => if l ≠ 0 then s.cause l else go s

/-- A copy as every form begins it. -/
def mkCopy (tag : Nat) (form : CopyForm) (gen now : Nat) (w0 w1 : W32) (d a b : W64) (desc : BitVec 512) : Copy :=
  { tag := tag, form := form, gen := gen, slotLat := 0, occ := 0, matched := false, ranks := [], srcs := [], word0 := w0, word1 := w1,
    dEnd := d, aEnd := a, bOp := b, desc := desc, issue := now, due := now, moves := [], done := 0, chan := 0, slotSize := 0,
    nslots := 0, claimed := 0, nextClaim := now, slots := [], fo := none, cause := none, fell := none, hist := [], waitTier := [], tierAs := [], cover := [], seat := none }

/-- The words of a copy with its guard cleared. -/
def xWord (op : Nat) (d a b : F6) (x : Nat) : W32 := BitVec.ofNat 32 (0x80000000 + op * 2 ^ 20 + d.toNat * 2 ^ 14 + a.toNat * 2 ^ 8 + b.toNat * 2 ^ 2 + x)

/-- R240: the M commands a copy may carry, by OP. -/
def followOk (w : W32) : Bool := w.getLsbD 31 && [1, 2, 3, 4, 5, 6, 0x0B].contains (w.toNat / 2 ^ 20 % 64)

/-- Conditions of an affine form that need its channel: configured, whole slots, every slot within a window half (R257). -/
def Core.chanConds (c : Core) (k : Nat) (total : Nat) : List (Bool × Nat) :=
  let ch := c.chan k
  [(ch.cfg, 11), (!ch.cfg || decide (total % ch.size = 0), 10),
   ((List.range ch.count).all fun i => (c.window (ch.slot i) ch.size).isSome, 24)]

/-- Aligned strides of the dimensions used, on the sides that have an end. -/
def affAligned (d : BitVec 512) (nd es : Nat) (dst src : Option End) : Bool :=
  (match dst with
   | some e => decide (e.addr % es = 0) && (List.range nd).all fun j => affDS d nd j % es == 0
   | none => true) &&
  (match src with
   | some e => decide (e.addr % es = 0) && (List.range nd).all fun j => affSS d nd j % es == 0
   | none => true)

/-- R255 to R259: an affine form; `kind` 0 copy, 1 fill, 2 drain. Answers the state after issue. -/
def State.affine (s : State) (n : Nat) (kind : Nat) (d a b : F6) (tag : BitVec 6) (ndm1 es f due : Nat) : State :=
  let c := s.core n
  let nd := ndm1 + 1
  let w := [1, 2, 4, 16].getD es 1
  let de := copyEnd (s.rs d)
  let ae := copyEnd (s.rs a)
  let dst := if kind = 1 then none else some de
  let src := if kind = 2 then none else some ae
  let fields := decide (isChan d = decide (kind = 1)) && decide (isChan a = decide (kind = 2)) && sOk b
  let ch := if kind = 1 then d.toNat - 48 else a.toNat - 48
  let ends := (kind == 1 || de.ok) && (kind == 2 || ae.ok)
  match c.descriptor (s.rs b) 64 with
  | none => s.issueCopy ([(fields, 10)] ++ (if kind ≠ 0 ∧ fields then [((c.chan ch).cfg, 11)] else []) ++ [(ends, 16), (false, 24)]) [] .empty id
  | some desc =>
    let total := affTotal desc nd w
    let counts := decide (0 < total) && decide (total ≤ 2 ^ 24)
    let fow0 := BitVec.ofNat 32 (descNat desc 48 4)
    let fow1 := BitVec.ofNat 32 (descNat desc 52 4)
    let early := [(fields, 10), (counts, 10), (decide (f = 0) || followOk fow0, 10)] ++
      (if kind ≠ 0 ∧ fields ∧ counts then c.chanConds ch total else []) ++ [(ends, 16)]
    let foot := if lowest early = 0 ∨ 16 < lowest early then s.footprint n accCopyRead (affElts desc nd w dst src) else .empty
    let late := [(affAligned desc nd w dst src, 24), (!(c.tag tag.toNat).infl, 46)]
    s.issueCopy early late foot fun s =>
      let now := s.now n
      let form := if kind = 0 then CopyForm.xcopy else if kind = 1 then .xfill else .xdrain
      let size := (c.chan ch).size
      let lat := if kind = 0 then max due (max foot.src foot.dst + cdiv total 64)
        else max due ((if kind = 1 then foot.src else foot.dst) + cdiv size 64)
      let x := { mkCopy tag.toNat form (s.genOf s.cur) now
                  (xWord (kind + 1) d a b 0) (BitVec.ofNat 32 (0xE0000000 + tag.toNat * 2 ^ 22 + ndm1 * 2 ^ 20 + es * 2 ^ 18 + f * 2 ^ 17 + due))
                  (s.rs d) (s.rs a) (s.rs b) desc with
                due := now + lat, slotLat := lat, moves := foot.moves.reverse, fo := if f = 0 then none else some (fow0, fow1)
                chan := ch, slotSize := if kind = 0 then 0 else size, nslots := if kind = 0 then 0 else total / size }
      let s1 := s.startCopy n x
      (if kind = 1 then s1.fillReserve n tag.toNat else if kind = 2 then s1.drainTake n tag.toNat else s1).fin 8 2

/-- R261, R262: a gather or a scatter. Its index list is one access, which lies within one half of a window or raises cause 24 (R167; DESIGN CHOICE,
log 39). One whose every index is skipped touches no page: its class latency is taken to be 4, as of scratchpad
(DESIGN CHOICE, log 39). -/
def State.indexed (s : State) (n : Nat) (gath : Bool) (d a b : F6) : State :=
  let c := s.core n
  let de := copyEnd (s.rs d)
  let ae := copyEnd (s.rs a)
  let fields := sOk d && sOk a && sOk b
  match c.descriptor (s.rs b) 32 with
  | none => s.issueCopy [(fields, 10), (de.ok && ae.ok, 16), (false, 24)] [] .empty id
  | some desc =>
    let idxa := descNat desc 0 4
    let nidx := descNat desc 4 4
    let rb := descNat desc 8 4
    let str := descNat desc 12 4
    let iw := descNat desc 16 1
    let tag := descNat desc 17 1 % 64
    let due := descNat desc 20 4
    let ib := if iw = 0 then 2 else 4
    let sane := decide (1 ≤ nidx) && decide (nidx ≤ 65536) && decide (4 ≤ rb) && decide (rb ≤ 65536) && decide (rb % 4 = 0) && decide (iw ≤ 1)
      && decide (nidx * rb ≤ 2 ^ 24)
    let early := [(fields, 10), (sane, 10), (de.ok && ae.ok, 16)]
    let base := c.window idxa (nidx * ib)
    let xs := if sane ∧ base.isSome then
        (List.range nidx).map fun q =>
          let l := c.spSeen .X (base.getD 0 + q * ib) ib
          (leNat (bytesOf l), taintOf l)
      else []
    let foot := if lowest early = 0 then s.footprint n accCopyRead (idxElts gath de ae rb str (2 ^ (8 * ib) - 1) xs) else .empty
    let late := [(decide (idxa % 4 = 0), 24), (!sane || base.isSome, 24), (decide (de.addr % 4 = 0) && decide (ae.addr % 4 = 0) && decide (str % 4 = 0), 24),
      (!(c.tag tag).infl, 46)]
    s.issueCopy early late foot fun s =>
      let now := s.now n
      let cls := max (max foot.src foot.dst) 4
      (s.startCopy n
        { mkCopy tag (if gath then .xgath else .xscat) (s.genOf s.cur) now (xWord (if gath then 4 else 5) d a b 0) 0 (s.rs d) (s.rs a) (s.rs b) desc with
          due := now + max due (cls + cdiv nidx 16 + cdiv (nidx * rb) 64), moves := foot.moves.reverse }).fin 4 1

/-- The ceiling of log2 of a positive number. -/
def clog2 (n : Nat) : Nat := if n ≤ 1 then 0 else Nat.log2 (n - 1) + 1

/-- R264: whether a collective takes a type. -/
def collType (cop : Nat) (t : ElTy) : Bool :=
  if cop % 2 = 1 then decide (8 ≤ t.width)
  else t = .fp .f32 || t = .fp .bf16 || t = .fp .f16 || t = .int true 32 || t = .int false 32 || t = .int true 64 || t = .int false 64

/-- The bytes of one end of a collective as its accesses: whole elements of w bytes where they are aligned, which are single-copy atomic (R78,
R254), and else byte by byte. -/
def collElts (e : End) (w total : Nat) (dst : Bool) : List Elt :=
  let u := if e.addr % w = 0 then w else 1
  (List.range (total / u)).map fun (k : Nat) => { dst := if dst then e.at (u * k : Nat) else .sp 0, src := if dst then .sp 0 else e.at (u * k : Nat), n := u, idxT := false }
/-- R263, R272: the pieces of the rank table translated; their places, and the causes that they meet. -/
def State.rankFoot (s : State) (n va nr : Nat) : List (Nat × Nat × Phys) × Foot :=
  (pieces va (8 * nr)).foldl (fun r p =>
    match s.translate (s.cxnOf (.job n .X)) (s.genOf (.job n .X)) p.1 accCopyRead with
    | .ok ph _ _ _ => (r.1 ++ [(p.1, p.2, ph)], r.2)
    | .fault c f => (r.1, r.2.note c p.1 f)
    | .poison d => (r.1, { r.2 with park := some d })) ([], .empty)
/-- The key of a rank: bits 39:0 of its entry. -/
def rankKey (dev core dcn : Nat) : Nat := dev + core * 2 ^ 14 + dcn * 2 ^ 24

/-! What a copy reads (R254, R480). -/

/-- A cause a copy meets after its issue, with the lowest part concerned; R11 chooses among causes. -/
def Copy.note (x : Copy) (cause va : Nat) : Copy :=
  let p := va / 16 * 16
  match x.cause with
  | some (c0, v0) => if cause < c0 ∨ (cause = c0 ∧ p < v0) then { x with cause := some (cause, p) } else x
  | none => { x with cause := some (cause, p) }

/-- The path bit of a copy form (R82). -/
def CopyForm.path : CopyForm → Nat
  | .xcopy => 1 | .xfill => 1 | .xdrain => 1
  | .xgath => 2 | .xscat => 2
  | .xcoll _ => 3 | .xfetch => 3 | .xfetchTry => 3

/-- What the source of an element gives a path (1 CP, 2 GA, 3 CO): bytes, the cause of poison, and whether the read was refused. Free
values from count `seed` on say which of the two values of R83 it is. -/
def State.readLoc (s : State) (n path seed : Nat) (l : Loc) (len : Nat) : List (Byte × Bool) × Nat × Bool :=
  let c := s.core n
  match l with
  | .sp a => (c.spRead a len, 0, false)
  | .data bs p => (bs, p, false)
  | .cm va p _ =>
    if s.refused (s.cxnOf (.job n .X)) p false true then (tainted false (s.freeBytes len), 0, true)
    else
      ((List.range len).map fun k => (c.copySees path (va + k) (Config.freeBit (seed + k))).getD (s.physByte (p.add k), s.physTaint1 (p.add k)), s.physPoison p len, false)

/-- The address of a location in context memory, for QFADDR. -/
def Loc.va : Loc → Nat
  | .cm va _ _ => va
  | _ => 0

/-- A byte of a collective's data, with its taint, and the cause that its poison raises in scratchpad (R449). -/
abbrev CollByte := (Byte × Bool) × Nat
def moveBytes (ms : List Move) : Nat := ms.foldl (fun a m => a + m.n) 0
/-- The lowest cause among bytes, 0 for none. -/
def collPoison (bs : List CollByte) : Nat := bs.foldl (fun a b => if a = 0 ∨ (b.2 ≠ 0 ∧ b.2 < a) then b.2 else a) 0
/-- Elements take their bytes in order. -/
def fillMoves : List Move → List CollByte → List Move
  | [], _ => []
  | m :: ms, bs => { m with src := .data ((bs.take m.n).map (·.1)) (collPoison (bs.take m.n)) } :: fillMoves ms (bs.drop m.n)
/-- Elements that receive undefined values. -/
def State.openMoves (s : State) (ms : List Move) : List Move := fillMoves ms ((tainted false (s.freeBytes (moveBytes ms))).map fun b => (b, 0))

/-- R263: the table as the copy reads it when it issues, by its path (R83): the entries, and the causes of a refused or poisoned read. The
bytes that R83 leaves open take the free values from count `seed` on. -/
def State.rankRead (s : State) (n seed : Nat) (ps : List (Nat × Nat × Phys)) : List Nat × List (Nat × Nat) :=
  let rs := ps.map fun p => (p.1, s.readLoc n 3 (seed + p.1 % 2 ^ 25) (.cm p.1 p.2.2 false) p.2.1)
  let bs := rs.flatMap fun r => bytesOf r.2.1
  ((List.range (bs.length / 8)).map fun k => leNat ((bs.drop (8 * k)).take 8) % 2 ^ 40,
   rs.filterMap fun r => if r.2.2.2 then some (19, r.1) else if r.2.2.1 ≠ 0 then some (r.2.2.1, r.1) else none)
/-- The entry at an address, where all of it has been translated. -/
def State.rankEntry (s : State) (n seed : Nat) (ps : List (Nat × Nat × Phys)) (a : Nat) : Option Nat :=
  let bs := (List.range 8).filterMap fun k => (ps.find? fun p => decide (p.1 ≤ a + k) && decide (a + k < p.1 + p.2.1)).bind fun p =>
    ((s.readLoc n 3 (seed + p.1 % 2 ^ 25) (.cm p.1 p.2.2 false) p.2.1).1[a + k - p.1]?).map Prod.fst
  if bs.length = 8 then some (leNat bs % 2 ^ 40) else none

/-- R263 to R265: a collective. NR, MYR or CNT out of its range raises cause 10, as a reserved field does (DESIGN CHOICE, log 39). When the
table's own bytes are refused or poisoned there are no ranks to exchange with: the cause is delivered as R480 and R449 say, and the destination
holds undefined bytes. -/
def State.coll (s : State) (n : Nat) (cop : Nat) (d a b : F6) (tag : BitVec 6) (ty rop duex : Nat) : State :=
  let c := s.core n
  let de := copyEnd (s.rs d)
  let ae := copyEnd (s.rs a)
  let fields := sOk d && sOk a && sOk b
  let t := ElTy.ofCode ty
  let typeOk := match t with
    | some t => collType cop t
    | none => false
  let ropOk := cop % 2 == 1 || decide (rop ≤ 2)
  match c.descriptor (s.rs b) 32 with
  | none => s.issueCopy [(fields, 10), (typeOk, 10), (ropOk, 10), (de.ok && ae.ok, 16), (false, 24)] [] .empty id
  | some desc =>
    let rtab := descNat desc 0 8
    let nr := descNat desc 8 4
    let myr := descNat desc 12 4
    let cnt := descNat desc 16 4
    let cid := descNat desc 20 4
    let sane := decide (1 ≤ nr) && decide (nr ≤ 16384) && decide (myr < nr) && decide (1 ≤ cnt) && decide (cnt ≤ 2 ^ 24)
    let early := [(fields, 10), (sane, 10), (typeOk, 10), (ropOk, 10)]
    if lowest early ≠ 0 then s.issueCopy early [] .empty id
    else
      let w := (t.map (·.width)).getD 8 / 8
      let bk := cnt * w
      let inB := if cop = 0 ∨ cop = 1 then bk else nr * bk
      let outB := if cop = 0 ∨ cop = 2 then bk else nr * bk
      let ft := s.rankFoot n rtab nr
      let tab := s.rankRead n s.free ft.1
      let lost := !tab.2.isEmpty
      let fs := s.footprint n accCopyRead (collElts ae w inB false)
      let fd := s.footprint n accCopyRead (collElts de w outB true)
      let foot := [fs, fd].foldl (fun f g =>
        let f1 := match g.bad with
          | some (cz, va, r) => f.note cz va r
          | none => f
        { f1 with park := f.park.or g.park, view := f.view || g.view }) ft.2
      let mine := rankKey s.guide.devnum n (s.ctx (s.cxnOf s.cur)).dcn.toNat
      s.issueCopy (early ++ [(!foot.view, 10), (lost || (s.rankEntry n s.free ft.1 (rtab + 8 * myr)).all (· == mine), 10), (de.ok && ae.ok, 16)])
        [(decide (rtab % 8 = 0), 24), (!(c.tag tag.toNat).infl, 46)] foot fun s =>
        let now := s.now n
        let occ := (aget? c.collN cid).getD 0
        let x := { mkCopy tag.toNat (.xcoll cop) (s.genOf s.cur) now (xWord 6 d a b 0)
                    (BitVec.ofNat 32 (0xC0000000 + tag.toNat * 2 ^ 22 + cop * 2 ^ 20 + ty * 2 ^ 15 + rop * 2 ^ 12 + duex)) (s.rs d) (s.rs a) (s.rs b) desc with
                  due := now + max (16 * duex) (4096 * max 1 (clog2 nr) + cdiv outB 64), occ := occ
                  ranks := if lost then [] else tab.1, matched := lost
                  moves := if lost then s.openMoves fd.moves.reverse else fd.moves.reverse, srcs := if lost then [] else fs.moves.reverse }
        let x := tab.2.foldl (fun (x : Copy) c => x.note c.1 c.2) x
        (((s.startCopy n x).tick (2 ^ 26)).modCore n fun c => { c with collN := aset c.collN cid (occ + 1) }).fin 8 2

/-- R266, R267: XFETCH, or XFETCH.TRY. -/
def State.fetchCopy (s : State) (n : Nat) (try_ : Bool) (d a b : F6) (tag : BitVec 6) (due : Nat) : State :=
  let c := s.core n
  let de := copyEnd (s.rs d)
  let ae := copyEnd (s.rs a)
  let cnt := W64.f (s.rs b) 31 0
  let early := [(sOk d && sOk a && sOk b, 10), (decide (1 ≤ cnt) && decide (cnt ≤ 2 ^ 24) && decide (cnt % 16 = 0), 10), (!ae.isSp, 10)]
  let foot := if lowest early = 0 then s.footprint n accXfetch (runElts de ae cnt 16) else .empty
  let inView := foot.moves.any fun m => match m.src with
    | .cm _ p _ => p.isView
    | _ => false
  s.issueCopy (early ++ [(!inView, 10), (de.ok && ae.ok, 16)]) [(decide (de.addr % 16 = 0) && decide (ae.addr % 16 = 0), 24), (!(c.tag tag.toNat).infl, 46)] foot fun s =>
    let now := s.now n
    let x := { mkCopy tag.toNat (if try_ then .xfetchTry else .xfetch) (s.genOf s.cur) now (xWord 7 d a b (if try_ then 1 else 0))
                (BitVec.ofNat 32 (0xB0000000 + tag.toNat * 2 ^ 22 + due)) (s.rs d) (s.rs a) (s.rs b) 0 with
              due := now + max due (max foot.src foot.dst + cdiv cnt 64), moves := foot.moves.reverse, waitTier := foot.tiers.map (·.1), tierAs := tierAsOf foot.tiers
              seat := if try_ then some (s.stream s.cur).seat else none }
    let s1 := s.startTiers (s.cxnOf s.cur) foot.tiers
    let s2 := if try_ ∧ !foot.tiers.isEmpty then s1.startCopy n { x with due := now, fell := some true } else s1.startCopy n x
    (if try_ then { s2 with agenda := .ev (.xfetchTryFallback n tag.toNat) :: s2.agenda } else s2).fin 8 2

/-! Moving bytes (R254, R59, R480). -/

/-- Poison carried into the parts that a copy writes in context memory (R449). -/
def State.poisonParts (s : State) (p : Phys) (len : Nat) : State :=
  match p with
  | .hbm d _ => (partOffsets d len).foldl (fun t k => { t with hbmP := t.hbmP.add ((d + k) / 16) }) s
  | _ => s

/-- The kind of a place that holds taint by parts, and the address that its parts count from. -/
def Core.partSpace (c : Core) : Loc → Option (Nat × Nat)
  | .sp a => some (0, c.spBase + a)
  | .cm _ (.hbm d _) _ => some (1, d)
  | .cm _ (.peer dev a) _ => some (2, peerKey dev a)
  | _ => none
/-- One part that a copy has covered, element after element: the OR of the taint of its data, and no poison but theirs (R59, R449). -/
def State.coveredPart (s : State) (n kind part : Nat) (z : Cover) : State :=
  match kind with
  | 0 => s.modCore n (·.setPartT part z.taint)
  | 1 => { s with hbmT := s.hbmT.mk part z.taint, hbmP := if z.poison then s.hbmP else s.hbmP.del part, llcP := if z.poison then s.llcP else s.llcP.del part }
  | _ => s.setPeerTaint part z.taint
/-- R59: an element's share of one part joins what the copy has written of it; the part that is full takes the taint of all its data. -/
def State.coverPart (s : State) (n : Nat) (x : Copy) (kind part : Nat) (mask : BitVec 16) (t p : Bool) : State × Copy :=
  let key := 3 * part + kind
  let z := (aget? x.cover key).getD { mask := 0, taint := false, poison := false }
  let z1 : Cover := { mask := z.mask ||| mask, taint := z.taint || t, poison := z.poison || p }
  if mask = BitVec.allOnes 16 then (s, { x with cover := adel x.cover key })
  else if z1.mask = BitVec.allOnes 16 then (s.coveredPart n kind part z1, { x with cover := adel x.cover key })
  else (s, { x with cover := aset x.cover key z1 })
/-- The bytes of a part that n bytes from an address cover. -/
def coverMask (a n part : Nat) : BitVec 16 :=
  (List.range 16).foldl (fun m k => if a ≤ 16 * part + k ∧ 16 * part + k < a + n then m ||| BitVec.ofNat 16 (2 ^ k) else m) 0
/-- R59: an element of a copy joins the cover of the parts it writes. -/
def State.coverElt (s : State) (n : Nat) (x : Copy) (dst : Loc) (bs : List (Byte × Bool)) (poison : Bool) : State × Copy :=
  match (s.core n).partSpace dst with
  | none => (s, x)
  | some (kind, a) =>
    let bs := match dst with
      | .sp b => bs.take ((s.core n).spSize - b)
      | _ => bs
    (partOffsets a bs.length).foldl (fun r k =>
      r.1.coverPart n r.2 kind ((a + k) / 16) (coverMask a bs.length ((a + k) / 16)) (partShare a bs ((a + k) / 16)).2 poison) (s, x)
/-- One element performed; the copy notes what it met. The taint of a part that several elements cover follows the copy's data as a whole. -/
def State.moveOne (s : State) (n : Nat) (x : Copy) (m : Move) : State × Copy :=
  let r := s.readLoc n x.form.path s.free m.src m.n
  let s := s.tick m.n
  let bs := r.1.map fun b => (b.1, b.2 || m.idxT)
  let x1 := if r.2.2 then x.note 19 m.src.va else x
  match m.dst with
  | .sp a => (s.modCore n (·.spWrite a bs)).coverElt n (if r.2.1 ≠ 0 then x1.note r.2.1 m.src.va else x1) m.dst bs false
  | .data _ _ => (s, x1)
  | .cm va p det =>
    let cxn := s.cxnOf (.job n .X)
    if s.refused cxn p true false then (s, x1.note 19 va)
    else
      let s1 := ((s.physWrite cxn p bs).copyWrote n x p bs).markTnt (.job n .X) det (taintOf bs)
      (if r.2.1 ≠ 0 then s1.poisonParts p m.n else s1).coverElt n (if s.taintStop (.job n .X) det (taintOf bs) then x1.note 40 va else x1) m.dst bs (r.2.1 != 0)

/-- An XFETCH.TRY whose source is refused never lands that element (R480). -/
def State.stuck (s : State) (n : Nat) (x : Copy) (m : Move) : Bool :=
  decide (x.form = .xfetchTry) && (match m.src with
    | .cm _ p _ => s.refused (s.cxnOf (.job n .X)) p false true
    | _ => false)

/-- Elements performed in ordinal order; those that never land are kept. -/
def State.moveAll (s : State) (n : Nat) : Copy → List Move → State × Copy × List Move
  | x, [] => (s, x, [])
  | x, m :: ms =>
    if s.stuck n x m then
      let r := s.moveAll n x ms
      (r.1, r.2.1, m :: r.2.2)
    else
      let r := s.moveOne n x m
      r.1.moveAll n { r.2 with hist := r.2.hist ++ [m], done := r.2.done + 1 } ms

/-! Collectives (R264, R265). -/

def Copy.collCid (x : Copy) : Nat := descNat x.desc 20 4
/-- COP, TY, ROP, NR and CNT, on which ranks must agree. -/
def Copy.collShape (x : Copy) : Nat × Nat × Nat := (x.word1.toNat / 2 ^ 12 % 2 ^ 10, descNat x.desc 8 4, descNat x.desc 16 4)
/-- The copy of a local rank that matches; none while that rank has not issued it. -/
def State.peerCopy (s : State) (x : Copy) (key : Nat) : Option (Nat × Copy) :=
  let k := bits key 23 14
  ((s.core k).copies.find? fun y =>
      (match y.form with
       | .xcoll _ => y.collCid == x.collCid && y.occ == x.occ && !y.matched
       | _ => false) && y.ranks.getD (descNat y.desc 12 4) 0 == key).map fun y => (k, y)
/-- A rank on this device. -/
def State.localRank (s : State) (key : Nat) : Bool := bits key 13 0 == s.guide.devnum
/-- One byte of a rank's source. -/
def State.rankSrc (s : State) (x : Copy) (r key off : Nat) : CollByte :=
  if s.localRank key then
    match s.peerCopy x key with
    | some (k, y) =>
      let u := (y.srcs.head?.map (·.n)).getD 1
      match y.srcs[off / u]? with
      | some m =>
        let b := s.readLoc k 3 (s.free + 2 ^ 25 * r + off - off % u) m.src u
        (b.1.getD (off % u) (0, false), b.2.1)
      | none => ((0, false), 0)
    | none => ((0, false), 0)
  else ((Config.rankByte x.collCid x.occ r off, Config.rankTaint x.collCid x.occ r off), 0)
/-- n bytes of a rank's source. -/
def State.rankBytes (s : State) (x : Copy) (r off n : Nat) : List CollByte :=
  (List.range n).map fun k => s.rankSrc x r (x.ranks.getD r 0) (off + k)

/-- The reduction named by ROP. -/
def ropOp (r : Nat) : VOp := match r with
  | 0 => .add
  | 1 => .max
  | _ => .min
/-- R264: element-wise reduction of the ranks' blocks, in ascending rank. -/
def reduceBlocks (t : ElTy) (op : VOp) (cnt : Nat) (blocks : List (List CollByte)) : List CollByte :=
  let w := t.width / 8
  (List.range cnt).flatMap fun i =>
    let vs := blocks.map fun b => (b.drop (w * i)).take w
    let acc := match vs with
      | [] => 0
      | v :: vs => vs.foldl (fun a v => (vElem t .rne op a (leNat (bytesOf (v.map (·.1)))) 0).bits) (leNat (bytesOf (v.map (·.1))))
    let bad := collPoison vs.flatten
    (tainted (vs.any fun v => taintOf (v.map (·.1))) (leBytes w acc)).map fun b => (b, bad)
/-- What a rank's destination receives. -/
def State.collBytes (s : State) (x : Copy) : List CollByte :=
  let nr := descNat x.desc 8 4
  let myr := descNat x.desc 12 4
  let cnt := descNat x.desc 16 4
  let t := (ElTy.ofCode (x.word1.toNat / 2 ^ 15 % 32)).getD (.raw 8)
  let bk := cnt * t.width / 8
  let op := ropOp (x.word1.toNat / 2 ^ 12 % 8)
  match x.form with
  | .xcoll 0 => reduceBlocks t op cnt ((List.range nr).map fun r => s.rankBytes x r 0 bk)
  | .xcoll 1 => (List.range nr).flatMap fun r => s.rankBytes x r 0 bk
  | .xcoll 2 => reduceBlocks t op cnt ((List.range nr).map fun r => s.rankBytes x r (myr * bk) bk)
  | _ => (List.range nr).flatMap fun r => s.rankBytes x r (myr * bk) bk

/-- R480: a collective notes that a read of its own source was refused. -/
def State.noteSrcs (s : State) (n : Nat) (x : Copy) : Copy :=
  x.srcs.foldl (fun y m => match m.src with
    | .cm va p _ => if s.refused (s.cxnOf (.job n .X)) p false true then y.note 19 va else y
    | _ => y) x
/-- A collective whose local ranks are all in flight exchanges its data; each keeps the bytes for its destination. -/
def State.exchange (s : State) (x : Copy) : State :=
  let ls := x.ranks.filter s.localRank
  let ys := ls.filterMap (s.peerCopy x)
  if ys.length < ls.length then s
  else
    let agree := ys.all fun y => y.2.collShape = x.collShape
    let outs := ys.map fun y => (y.1, y.2, if agree then s.collBytes y.2 else [])
    outs.foldl (fun (t : State) y =>
      let n := moveBytes y.2.1.moves
      let ms := if agree then fillMoves y.2.1.moves y.2.2 else t.openMoves y.2.1.moves
      (t.modCore y.1 fun c => c.setCopy { s.noteSrcs y.1 y.2.1 with moves := ms, matched := true }).tick (if agree then 2 ^ 40 else n)) s

def CopyForm.isColl : CopyForm → Bool
  | .xcoll _ => true
  | _ => false
def CopyForm.isSlot : CopyForm → Bool
  | .xfill => true
  | .xdrain => true
  | _ => false

/-- Nothing more stands between a copy and its performance. -/
def Copy.mayMove (x : Copy) : Bool := x.waitTier.isEmpty && (!x.form.isColl || x.matched) && x.fell.isNone
/-- Every write of a copy has been performed. -/
def Copy.performed (x : Copy) : Bool :=
  if x.form.isSlot then decide (x.nslots ≤ x.done) else x.mayMove && x.moves.isEmpty

/-- Every place that a copy has yet to reach can be reached (R435). -/
def State.copyLinked (s : State) (x : Copy) : Bool :=
  ((x.moves ++ x.slots.flatMap (·.moves)).all fun m => [m.dst, m.src].all fun l => ((l.phys?).map s.reaches).getD true)
    && (!x.form.isColl || x.matched || x.ranks.all fun k => s.localRank k || s.routed (bits k 13 0))
/-- Up to k elements of a copy performed (R254). -/
def State.copyMoves (s : State) (n tag k : Nat) : State :=
  match (s.core n).copy? tag with
  | none => s
  | some x0 =>
    if x0.form.isSlot || !s.copyLinked x0 then s
    else
      let s := if x0.form.isColl ∧ !x0.matched then s.exchange x0 else s
      match (s.core n).copy? tag with
      | none => s
      | some x =>
        if !x.mayMove then s
        else
          let r := s.moveAll n { x with moves := [] } (x.moves.take k)
          r.1.modCore n fun c => c.setCopy { r.2.1 with moves := r.2.2 ++ x.moves.drop k }

/-! Slots landing and released (R258, R259). -/

/-- R258: the oldest reserved slot of a fill is filled at its cycle. All of the slot's source is read there, and not earlier, which R254 leaves
open (DESIGN CHOICE, log 39). -/
def State.fillLand (s : State) (n tag : Nat) : State :=
  match (s.core n).copy? tag with
  | none => s
  | some x =>
    match x.slots with
    | [] => s
    | sl :: rest =>
      if x.form = .xfill ∧ sl.claimed + x.slotLat ≤ s.now n then
        let d0 := x.done
        let r := s.moveAll n { x with slots := rest } sl.moves
        r.1.modCore n fun c =>
          (c.setChan x.chan ((c.chan x.chan).land sl.seq sl.epoch)).setCopy { r.2.1 with done := d0 + 1 }
      else s
/-- R259: slots that have been read are released, and those whose writes are due are done. All of a slot's bytes reach the destination as it
is released, and not earlier, which R254 leaves open (DESIGN CHOICE, log 39). -/
def State.drainRelease (s : State) (n tag : Nat) : State :=
  match (s.core n).copy? tag with
  | none => s
  | some x =>
    if x.form ≠ .xdrain then s
    else
      let now := s.now n
      let s1 := match x.slots.find? fun sl => !sl.released && decide (sl.claimed + cdiv x.slotSize 64 ≤ now) with
        | none => s
        | some sl =>
          let d0 := x.done
          let r := s.moveAll n { x with slots := x.slots.map fun (z : CopySlot) => if z.seq = sl.seq then { z with released := true } else z } sl.moves
          r.1.modCore n fun c => (c.setChan x.chan ((c.chan x.chan).release 1 sl.epoch)).setCopy { r.2.1 with done := d0 }
      s1.modCore n fun c =>
        match c.copy? tag with
        | some y =>
          let gone := y.slots.filter fun (z : CopySlot) => z.released && decide (z.claimed + y.slotLat ≤ now)
          c.setCopy { y with done := y.done + gone.length, slots := y.slots.filter fun (z : CopySlot) => !(z.released && decide (z.claimed + y.slotLat ≤ now)) }
        | none => c

/-! Completion (R252, R253, R260, R267, R268). -/

/-- A slot form has its last cycle behind it, another form its due cycle. -/
def Copy.ripe (x : Copy) (now : Nat) : Bool := x.performed && (x.form.isSlot || decide (x.due ≤ now))

/-- The copy's follow-on command can be posted, or it has none. -/
def Core.foRoom (c : Core) (x : Copy) : Bool := x.fo.isNone || x.cause.isSome || decide (c.m.follow.length < 4)

/-- The tag becomes ready, the follow-on command is posted, and the copy ends. -/
def State.endCopy (s : State) (n : Nat) (x : Copy) (fb abs : Bool) : State :=
  let now := s.now n
  s.modCore n fun c =>
    let c1 := (c.dropCopy x.tag).setTag x.tag { infl := false, fb := fb, abs := abs, readyAt := now }
    let c2 := match x.fo, x.cause with
      | some (w, p), none => { c1 with m := { c1.m with follow := c1.m.follow ++ [(w, p, now)] } }
      | _, _ => c1
    if (x.form = .xcopy ∨ x.form = .xfill) ∧ x.cause.isNone then { c2 with doneCopies := c2.doneCopies ++ [x] } else c2

/-- The source PART of a fetch in its record (Table 15-4). -/
def Copy.part (x : Copy) : Nat := partField (W64.f x.aEnd 54 0)
/-- The record of an XFETCH.TRY's outcome. -/
def State.fetchRecord (s : State) (n : Nat) (x : Copy) (fb abs : Bool) : Nat × Nat :=
  (mkQ0 x.issue 0x06 (s.issJob n .X x.tag), x.part + bitAt abs 1 + bitAt fb 0)
/-- R268: in replay, what the record of an XFETCH.TRY says: ABS and FB; none when it is not yet supplied or not replaying. -/
def State.fetchAnswer (s : State) (n : Nat) (x : Copy) : Option (Bool × Bool) :=
  let cxn := s.cxnOf (.job n .X)
  if (s.ctx cxn).trail.mode = 2 then
    let q := s.fetchRecord n x false false
    (s.findRecord cxn (recMatches q)).map fun k => (nbit (s.record cxn k).2 1, nbit (s.record cxn k).2 0)
  else none

/-- An XFETCH.TRY ends with an outcome, once the trail lets it. -/
def State.endTry (s : State) (n : Nat) (x : Copy) (fb abs : Bool) : State :=
  let q := s.fetchRecord n x fb abs
  match s.gate (s.cxnOf (.job n .X)) (some (.job n .X)) q.1 q.2 with
  | .go s1 _ =>
    let taintDst := fun (t : State) (m : Move) =>
      match m.dst with
      | .sp a => t.modCore n fun c => c.setPartT ((c.spBase + a) / 16) true
      | .cm _ (.hbm d _) _ => { t with hbmT := t.hbmT.add (d / 16) }
      | .cm _ (.peer dev a) _ => t.setPeerTaint (peerKey dev a / 16) true
      | _ => t
    let s1 := if fb then s1.perf (s.cxnOf (.job n .X)) 10 1 else s1
    let s2 := if fb then (x.hist ++ x.moves).foldl taintDst s1 else s1
    s2.endCopy n { x with cause := if fb then none else x.cause } fb abs
  | .wait s1 => s1
  | .diverged s1 => s1

/-- COPY_COMPLETE for a tag. -/
def State.completeCopy (s : State) (n tag : Nat) : State :=
  match (s.core n).copy? tag with
  | none => s
  | some x =>
    if x.ripe (s.now n) ∧ (s.core n).foRoom x then
      (if x.form = .xfetchTry then s.endTry n x false false else s.endCopy n x false false)
    else s

/-- Whether an XFETCH.TRY is to end in fallback at this cycle, with ABS. -/
def State.fallsBack (s : State) (n : Nat) (x : Copy) : Option Bool :=
  if x.form ≠ .xfetchTry then none
  else
    match s.fetchAnswer n x with
    | some (abs, true) => if abs ∨ x.due ≤ s.now n then some abs else none
    | some (_, false) => none
    | none =>
      match x.fell with
      | some abs => some abs
      | none => if x.due ≤ s.now n ∧ !x.performed then some false else none
/-- An XFETCH.TRY found an absent page but its record says that the recorded run did not fall back for it: it goes on. -/
def State.unfall (s : State) (n : Nat) (x : Copy) : Copy :=
  match x.fell, s.fetchAnswer n x with
  | some true, some (false, _) => { x with fell := none, due := x.issue + max (W64.f (x.word1.setWidth 64) 19 0) (4096 + cdiv (W64.f x.bOp 31 0) 64) }
  | _, _ => x
/-- XFETCH_TRY_FALLBACK for a tag. -/
def State.tryFallback (s : State) (n tag : Nat) : State :=
  match (s.core n).copy? tag with
  | none => s
  | some x0 =>
    let x := s.unfall n x0
    let s1 := s.modCore n (·.setCopy x)
    match s1.fallsBack n x with
    | some abs => s1.endTry n x true abs
    | none => s1

/-- R268: an XFETCH.TRY in replay whose record has not been supplied, as it has not where those that stand next are of earlier operations of X. -/
def State.tryUndecided (s : State) (n : Nat) (x : Copy) : Bool :=
  let cxn := s.cxnOf (.job n .X)
  decide (x.form = .xfetchTry) && decide ((s.ctx cxn).trail.mode = 2) && (s.fetchAnswer n x).isNone &&
    (match s.findRecord cxn (sameIssuer (s.fetchRecord n x false false)) with
     | some k => decide (recClk (s.record cxn k).1 < x.issue % 2 ^ 32)
     | none => true)

/-- The trail would hold back the outcome of an XFETCH.TRY. -/
def State.tryHeld (s : State) (n : Nat) (x : Copy) : Bool :=
  let fb := (s.fallsBack n x).isSome
  let q := s.fetchRecord n x fb ((s.fallsBack n x).getD false)
  match s.gate (s.cxnOf (.job n .X)) (some (.job n .X)) q.1 q.2 with
  | .wait _ => true
  | _ => false

/-- An XFETCH.TRY that the trail holds back at cycle w is one of the operations that wait (R384, R385). -/
def State.noteTry (s : State) (n : Nat) (w : Nat) (x : Copy) : State :=
  if x.form = .xfetchTry ∧ (s.tryUndecided n x ∨ x.fell.isSome ∨ x.due ≤ w) then
    let fb := (s.fallsBack n x).isSome
    let q := s.fetchRecord n x fb ((s.fallsBack n x).getD false)
    if s.tryUndecided n x then s.trailStall (s.cxnOf (.job n .X)) q.1 q.2
    else
      match s.gate (s.cxnOf (.job n .X)) (some (.job n .X)) q.1 q.2 with
      | .wait s1 => s1
      | _ => s
  else s
/-- R252: whether a copy keeps its group from proceeding to cycle w. -/
def State.copyBlocks (s : State) (n : Nat) (x : Copy) (w : Nat) : Bool :=
  if x.form.isSlot then !s.copyLinked x || s.slotUnsent n x w
  else if x.form = .xfetchTry then
    x.fell.isSome || s.tryUndecided n x || (decide (x.due ≤ w) && (s.tryHeld n x || (match s.fetchAnswer n x with
      | some (_, false) => !x.waitTier.isEmpty || !s.copyLinked x || s.unsent n x.tag != 0 || !x.moves.all fun m => !s.stuck n x m
      | _ => false)))
  else
    decide (x.due ≤ w) && !x.performed &&
      (!x.waitTier.isEmpty || !s.copyLinked x || s.unsent n x.tag != 0 || (x.form.isColl && !x.matched && decide ((x.ranks.filter s.localRank).filterMap (s.peerCopy x) |>.length |> (· < (x.ranks.filter s.localRank).length))))

end Sys2Proof.Machine
end

