-- ==== Sys2Proof/Machine/MemScalar.lean ====
section
/-! DEFINITION. Scalar loads and stores: context memory, scratchpad, and a queue thread's local store (R84, R146 to R148, R304,
R337). -/
namespace Sys2Proof.Machine

/-- R146: the effective address and the size in bytes. -/
def State.smAddr (s : State) (a : BitVec 4) (z : BitVec 2) (o : BitVec 12) : W64 := s.ra a + o.signExtend 64 * BitVec.ofNat 64 (2 ^ z.toNat)
def smSize (z : BitVec 2) : Nat := 2 ^ z.toNat

/-! Strong accesses at issue (R76, R80, R367). -/

/-- The home part a mixed-size tag is kept for: local addresses only (R80). -/
def Phys.part : Phys → Option Nat
  | .hbm d _ => some (d / 16)
  | _ => none
/-- R80: with MIXDBG, an access overlaps one of another address or size that its home slice has tagged, for whichever context. What a peer's
home slice has tagged is the peer's (log 5). -/
def State.mixClash (s : State) (cxn : Nat) (n : Nat) (p : Phys) : Bool :=
  let a := p.low
  (s.ctx cxn).mixdbg && (match p with
    | .hbm _ _ => (List.range 32).any fun k => (s.ctx k).mix.any fun m =>
        some m.1 == p.part && (m.2.1 != a || m.2.2.1 != n) && decide (m.2.1 < a + n) && decide (a < m.2.1 + m.2.2.1)
    | .peer dev b => Config.peerMixed dev b n s.free
    | _ => false)
/-- The tag of a part is cleared (R80). -/
def State.dropMix (s : State) (part : Nat) : State :=
  (List.range 32).foldl (fun t k => if (t.ctx k).mix.any (·.1 == part) then t.modCtx k fun c => { c with mix := c.mix.filter (·.1 != part) } else t) s

/-- The conditions a strong access or atomic meets once its page is known (R367): views, host pages, alignment, mixed size, a
tainted value for a deterministic page. `host` says whether the operation is carried to a host page (R88). -/
def State.strong (s : State) (va n : Nat) (k : Access) (host tainted : Bool) (go : State → Nat → Phys → Bool → State) : State :=
  s.access s.cur va n k fun s ps =>
    match ps with
    | [] => s
    | (a, _, p, det) :: _ =>
      let cxn := s.cxnOf s.cur
      let isHost := match p with
        | .host _ => true
        | _ => false
      let conds := [(!(lateRefusal k && s.refused cxn p k.w k.r), 19), (!isHost || host, 21), (!p.isView, 22), (decide (va % n = 0), 24),
        (!s.mixClash cxn n p, 25), (!s.taintStop s.cur det tainted, 40)]
      if lowest conds = 0 then go s a p det else s.cause (lowest conds) va

/-- A job's stream, or S for a queue thread. -/
def State.engine (s : State) : Engine :=
  match s.cur with
  | .job _ e => e
  | .thread _ _ => .S

/-! Context memory (R147). -/

/-- A value a plain load of a job returns pends at its latency, or its poison does (R449). -/
def State.landLoad (s : State) (n : Nat) (e : Engine) (l : Loaded) (t : PendTarget) : State :=
  s.addPend n l.lat true (if l.poison ≠ 0 then .poison e l.poison l.addr else t)

/-- LD and LDU. -/
def State.load (s : State) (sgn : Bool) (r : F6) (a : BitVec 4) (z : BitVec 2) (o : BitVec 12) : State :=
  let va := (s.smAddr a z o).toNat
  let n := smSize z
  match s.cur with
  | .job c e =>
    s.access s.cur va n accLoad fun s ps =>
      if va % n ≠ 0 then s.cause 24 va
      else
        let x := s.loadRange c va ps
        (x.1.landLoad c e x.2 (.s e r.toNat (extend sgn n (leNat (bytesOf x.2.bytes))) (taintOf x.2.bytes))).fin 4 1
  | .thread _ _ =>
    s.strong va n accLoad true false fun s a p det =>
      (s.issueStrong s.cur (mkStrong .S (.load sgn) n a p det (some r.toNat) 0 false 0 0xD) false).fin 4 1
def execLd (sr : F6) (a : BitVec 4) (z : BitVec 2) (o : BitVec 12) (s : State) : Out := .next (s.load true sr a z o)
def execLdu (sr : F6) (a : BitVec 4) (z : BitVec 2) (o : BitVec 12) (s : State) : Out := .next (s.load false sr a z o)

/-- R65, R337: a plain store of bytes of a job. A peer may refuse what its full buffer performs at once (R66, R405). -/
def State.plainStore (s : State) (n : Nat) (e : Engine) (va align : Nat) (bs : List (Byte × Bool)) (go : State → State) : State :=
  s.access (.job n e) va bs.length accStore fun s ps =>
    let det := ps.any fun x => x.2.2.2
    let turned := ((s.core n).overflow ps).find? fun x => s.refused (s.cxnOf (.job n e)) x.2.2.1 true false
    let conds := [(turned.isNone, 19), (decide (va % align = 0), 24), (!s.taintStop (.job n e) det (taintOf bs), 40)]
    if lowest conds = 0 then go (s.storePieces n e bs ps) else s.cause (lowest conds) ((turned.map (·.1)).getD va)

/-- ST. -/
def execSt (sr : F6) (a : BitVec 4) (z : BitVec 2) (o : BitVec 12) (s : State) : Out :=
  .next (
    let va := (s.smAddr a z o).toNat
    let n := smSize z
    let x := s.rs sr
    let t := s.rsT sr
    match s.cur with
    | .job c e => s.plainStore c e va n (tainted t (leBytes n x.toNat)) fun s => s.fin 4 1
    | .thread _ _ =>
      s.strong va n accStore true t fun s a p det =>
        (s.issueStrong s.cur (mkStrong .S .store n a p det none (x.setWidth 128) t 0 0xE) false).fin 4 1)

/-! Scratchpad, and a queue thread's local store (R84, R148, R304). -/

/-- Bytes of a queue's local store; beyond 16 KiB they read as zero (R61). -/
def Queue.localRead (k : Queue) (a n : Nat) : List (Byte × Bool) :=
  (List.range n).map fun i => if a + i < 16384 then (k.localMem.get (a + i), k.localT.has ((a + i) / 16)) else (0, false)
/-- A write of the local store with taint by R59. That the store holds a taint bit for each 16 bytes is the model's choice, since R56 does not list it
(DESIGN CHOICE, log 39). -/
def Queue.localWrite (k : Queue) (a : Nat) (bs : List (Byte × Bool)) : Queue :=
  let l := bs.take (16384 - a)
  { k with
    localMem := k.localMem.write a (bytesOf l)
    localT := (partOffsets a l.length).foldl (fun z i =>
      let sh := partShare a l ((a + i) / 16)
      z.mk ((a + i) / 16) (partTaint (z.has ((a + i) / 16)) sh.1 sh.2)) k.localT }

/-- LDSP and LDSPU. -/
def State.loadSp (s : State) (sgn : Bool) (r : F6) (a : BitVec 4) (z : BitVec 2) (o : BitVec 12) : State :=
  let ea := (s.smAddr a z o).toNat
  let n := smSize z
  s.check [(decide (ea % n = 0), 24)] fun s =>
    match s.cur with
    | .job c e =>
      match (s.core c).window ea n with
      | none => s.cause 24
      | some m => (s.addPend c 4 false (.ldsp e r.toNat m n sgn)).fin 4 1
    | .thread cxn q =>
      let l := (s.queue cxn q).localRead ea n
      (s.putS s.cur r.toNat (extend sgn n (leNat (bytesOf l))) (taintOf l) 0).fin 4 1
def execLdsp (sr : F6) (a : BitVec 4) (z : BitVec 2) (o : BitVec 12) (s : State) : Out := .next (s.loadSp true sr a z o)
def execLdspu (sr : F6) (a : BitVec 4) (z : BitVec 2) (o : BitVec 12) (s : State) : Out := .next (s.loadSp false sr a z o)

/-- STSP. -/
def execStsp (sr : F6) (a : BitVec 4) (z : BitVec 2) (o : BitVec 12) (s : State) : Out :=
  .next (
    let ea := (s.smAddr a z o).toNat
    let n := smSize z
    let bs := tainted (s.rsT sr) (leBytes n (s.rs sr).toNat)
    s.check [(decide (ea % n = 0), 24)] fun s =>
      match s.cur with
      | .job c e =>
        match (s.core c).window ea n with
        | none => s.cause 24
        | some m => (s.addPend c 4 false (.sp e m bs)).fin 4 1
      | .thread cxn q => (s.modQueue cxn q fun k => k.localWrite ea bs).fin 4 1)

end Sys2Proof.Machine
end

