-- ==== Sys2Proof/Machine/Atomics.lean ====
section
/-! DEFINITION. Atomics, strong loads and stores, ordered reduction and the event that performs them (R76, R80, R364 to R375). -/
namespace Sys2Proof.Machine

/-- Bytes 0 to 7 and 8 to 15 of a 16-byte operand (R365, R369). -/
def pairBits (lo hi : W64) : BitVec 128 := hi ++ lo

/-! Issue. -/

/-- A form of the system table that jobs and queue threads both have. -/
def State.sysWord (s : State) (g : Guard) (k : State → State) : Out := .next (s.guarded g 4 k)

/-- R364 to R369: an access of n bytes at aA that supplies x; `b` fields are checked by the caller. -/
def State.atomic (s : State) (op : StrongOp) (opc n : Nat) (k : Access) (host : Bool) (a : F6) (dst : Option Nat) (x cmp : BitVec 128)
    (xT pair : Bool) : State :=
  let va := (s.ra (a.setWidth 4)).toNat
  s.strong va n k host xT fun s a p det =>
    (s.issueStrong s.cur (mkStrong s.engine op n a p det dst x xT cmp opc) pair).fin 4 1

/-- R88, R368: whether an operation that AtomicOps carry may go to a host page of the issuer. -/
def State.hostAtomics (s : State) : Bool := Config.atomicOpEnable (s.ctx (s.cxnOf s.cur)).vf

/-- An integer atomic (R364); ATCAS takes its compare value from sD (R365). -/
def State.intAtomic (s : State) (opc : Nat) (carried : Bool) (g : Guard) (d a b : F6) (w : BitVec 1) : Out :=
  s.sysWord g fun s => s.check [(sOk d && aOk a && sOk b, 10)] fun s =>
    s.atomic (if opc = 10 then .cas else .rmw opc) opc (if w = 1 then 4 else 8) accAtomic (carried && s.hostAtomics) a (some d.toNat)
      ((s.rs b).setWidth 128) ((s.rs d).setWidth 128) (s.rsT b) false

def execAtadd (g : Guard) (d a b : F6) (w : BitVec 1) (s : State) : Out := s.intAtomic 1 true g d a b w
def execAtand (g : Guard) (d a b : F6) (w : BitVec 1) (s : State) : Out := s.intAtomic 2 false g d a b w
def execAtor (g : Guard) (d a b : F6) (w : BitVec 1) (s : State) : Out := s.intAtomic 3 false g d a b w
def execAtxor (g : Guard) (d a b : F6) (w : BitVec 1) (s : State) : Out := s.intAtomic 4 false g d a b w
def execAtmin (g : Guard) (d a b : F6) (w : BitVec 1) (s : State) : Out := s.intAtomic 5 false g d a b w
def execAtmax (g : Guard) (d a b : F6) (w : BitVec 1) (s : State) : Out := s.intAtomic 6 false g d a b w
def execAtminu (g : Guard) (d a b : F6) (w : BitVec 1) (s : State) : Out := s.intAtomic 7 false g d a b w
def execAtmaxu (g : Guard) (d a b : F6) (w : BitVec 1) (s : State) : Out := s.intAtomic 8 false g d a b w
def execAtswp (g : Guard) (d a b : F6) (w : BitVec 1) (s : State) : Out := s.intAtomic 9 true g d a b w
def execAtcas (g : Guard) (d a b : F6) (w : BitVec 1) (s : State) : Out := s.intAtomic 10 true g d a b w

/-- The register after r, the odd one of a pair. -/
def nextReg (r : F6) : F6 := r + 1
/-- ATCAS16 (R365). -/
def execAtcas16 (g : Guard) (d a b : F6) (s : State) : Out :=
  s.sysWord g fun s => s.check [(sOk d && aOk a && sOk b && pairOk d && pairOk b, 10)] fun s =>
    s.atomic .cas16 11 16 accAtomic s.hostAtomics a (some d.toNat) (pairBits (s.rs b) (s.rs (nextReg b)))
      (pairBits (s.rs d) (s.rs (nextReg d))) (s.rsT b || s.rsT (nextReg b)) true
/-- ATFADD (R366). -/
def execAtfadd (g : Guard) (d a b : F6) (s : State) : Out :=
  s.sysWord g fun s => s.check [(sOk d && aOk a && sOk b, 10)] fun s =>
    s.atomic .fadd 12 4 accAtomic false a (some d.toNat) ((s.rs b).setWidth 128) 0 (s.rsT b) false
/-- LD.s (R369). -/
def execLdS (g : Guard) (d a z : F6) (x : BitVec 1) (s : State) : Out :=
  s.sysWord g fun s => s.check [(sOk d && aOk a && sizeOk z && (decide (z.toNat ≠ 4) || pairOk d), 10)] fun s =>
    s.atomic (.load (x == 1)) 13 (2 ^ z.toNat) accStrongLoad true a (some d.toNat) 0 0 false (z == 4)
/-- ST.s (R369). -/
def execStS (g : Guard) (d a z : F6) (s : State) : Out :=
  s.sysWord g fun s => s.check [(sOk d && aOk a && sizeOk z && (decide (z.toNat ≠ 4) || pairOk d), 10)] fun s =>
    let p := z == 4
    s.atomic .store 14 (2 ^ z.toNat) accStrongStore true a none (if p then pairBits (s.rs d) (s.rs (nextReg d)) else (s.rs d).setWidth 128) 0
      (s.rsT d || (p && s.rsT (nextReg d))) false

/-! Ordered reduction (R370 to R372). -/

/-- The core's next n for an address and a phase, counted up. -/
def Core.aredNext (c : Core) (ea p : Nat) : Nat × Core :=
  match c.aredN.find? fun x => x.1 == ea && x.2.1 == p with
  | some x => (x.2.2, { c with aredN := c.aredN.map fun y => if y.1 = ea ∧ y.2.1 = p then (ea, p, x.2.2 + 1) else y })
  | none => (0, { c with aredN := c.aredN ++ [(ea, p, 1)] })

/-- ARED.ORD (R370). That its page is a peer's comes before what the page permits (R11, R367). -/
def execAredOrd (g : Guard) (a b : F6) (s : State) : Out :=
  s.sysWord g fun s => s.jobOnly fun n e => s.check [(aOk a && sOk b, 10)] fun s =>
    let va := (s.ra (a.setWidth 4)).toNat
    let x := s.rs b
    let t := s.rsT b
    match s.translate (s.cxnOf s.cur) (s.genOf s.cur) va { accAtomic with s1w := false, r := false, w := false } with
    | .ok (.peer _ _) _ _ _ => s.cause 10
    | _ =>
      s.strong va 4 accAtomic false t fun s va p det =>
        let pc := (s.core n).phst.toNat % 65536
        let r := (s.core n).aredNext va pc
        let i := ((s.core n).job.map (·.i)).getD 0
        let s1 := (s.setCore n r.2).issueStrong s.cur (mkStrong e (.ared i pc r.1) 4 va p det none (x.setWidth 128) t 0 0) false
        ({ s1 with agenda := .ev (.aredContributionAck s.cur) :: s1.agenda }).fin 4 1

/-- An instance's slots at a home slice overflow (R372). -/
def Inst.overflow (i : Inst) (slice : Nat) : Inst :=
  { i with slots := i.slots.map fun z => if homeSlice z.dpa = slice then { z with overrun := true, contribs := [] } else z }
/-- R372: whether a contribution at an address exceeds the limits of its home slice. -/
def Ctx.slotFull (c : Ctx) (i : Inst) (ea slice : Nat) : Bool :=
  match i.slots.find? fun z => z.ea == ea with
  | some z => decide (65536 ≤ z.contribs.length)
  | none => decide (64 ≤ (c.insts.flatMap fun j => j.slots.filter fun z => homeSlice z.dpa == slice).length)
/-- R370: a contribution joins the slot of its address, which opens with its first. -/
def Inst.contribute (i : Inst) (ea dpa leaf : Nat) (det : Bool) (k : Contrib) : Inst :=
  if i.slots.any fun z => z.ea == ea then
    { i with slots := i.slots.map fun z => if z.ea = ea ∧ !z.overrun then { z with det := z.det || det, contribs := z.contribs ++ [k] } else z }
  else
    let overrun := i.slots.any fun z => z.overrun && homeSlice z.dpa == homeSlice dpa
    { i with slots := i.slots ++ [{ ea := ea, dpa := dpa, leaf := leaf, handle := i.handle, det := det, overrun := overrun, bad := false, lost := false, contribs := if overrun then [] else [k] }] }

/-- A contribution reaches its home slice. -/
def State.contribute (s : State) (cxn h : Nat) (x : Strong) : State :=
  match x.op, x.loc with
  | .ared i p n, .hbm dpa leaf =>
    let k : Contrib := { i := i, p := p, n := n, taint := x.xT, x := x.x.setWidth 32 }
    let full := match s.inst? cxn h with
      | some y => (s.ctx cxn).slotFull y x.va (homeSlice dpa)
      | none => false
    let s1 := s.modInst cxn h fun y => y.contribute x.va dpa leaf x.det k
    if full then s1.modInst cxn h fun y => y.overflow (homeSlice dpa) else s1
  | _, _ => s

/-! Performance (R367). -/

/-- Table 14-3, R365, R366 and the strong forms: the value to write, none for no write, and the value to return. -/
def strongValue (op : StrongOp) (size old x cmp : Nat) : Option Nat × Nat :=
  let w := 8 * size
  let xx := x % 2 ^ w
  let sg := fun (v : Nat) => (sextTo 64 w v).toNat
  match op with
  | .rmw 1 => (some ((old + xx) % 2 ^ w), old)
  | .rmw 2 => (some (old &&& xx), old)
  | .rmw 3 => (some (old ||| xx), old)
  | .rmw 4 => (some (old ^^^ xx), old)
  | .rmw 5 => (some (if toS w old ≤ toS w xx then old else xx), sg old)
  | .rmw 6 => (some (if toS w old ≤ toS w xx then xx else old), sg old)
  | .rmw 7 => (some (min old xx), old)
  | .rmw 8 => (some (max old xx), old)
  | .rmw _ => (some xx, old)
  | .cas => (if old = cmp % 2 ^ w then some xx else none, old)
  | .cas16 => (if old = cmp then some x else none, old)
  | .fadd => (some (foldFused old (Fp.decode .f32 xx)), old)
  | .load sgn => (none, if sgn && decide (size < 8) then sg old else old)
  | .store => (some xx, 0)
  | .spill => (some xx, 0)
  | .fill => (none, old)
  | .ared _ _ _ => (none, 0)

/-- Whether an operation reads the old value. -/
def StrongOp.reads : StrongOp → Bool
  | .store => false
  | .spill => false
  | .ared _ _ _ => false
  | _ => true
/-- The taint of the value an operation writes and returns, from the old part and what was supplied. -/
def StrongOp.taint (op : StrongOp) (old x : Bool) : Bool :=
  match op with
  | .fadd => true
  | .store => x
  | .spill => false
  | .load _ => old
  | .fill => false
  | _ => old || x

/-- R80: the home slice keeps the address and size of the access, with its instance. -/
def State.tagMix (s : State) (ag : Agent) (x : Strong) : State :=
  let cxn := s.cxnOf ag
  if !(s.ctx cxn).mixdbg then s
  else
    match x.loc.part with
    | none => s
    | some part =>
      let h := match ag with
        | .job n _ => ((s.core n).member.map (·.2.1)).getD 0
        | .thread _ _ => 0
      (s.dropMix part).modCtx cxn fun c => { c with mix := c.mix ++ [(part, x.loc.low, x.size, h)] }

/-- An atomic of the host or of another device has been performed on local bytes: its mark, and its tag where the context that holds them has
MIXDBG set (R80). -/
def State.outsideDone (s : State) (dpa n : Nat) (old wrote : Option Nat) : State :=
  let s1 := s.outsideMark dpa n old wrote
  if (s.ctx (s.ctxAt dpa)).mixdbg then (s1.dropMix (dpa / 16)).modCtx (s.ctxAt dpa) fun c => { c with mix := c.mix ++ [(dpa / 16, dpa, n, 0)] } else s1

/-- R374: the deterministic instances of any context with an open slot in a line: context, handle, address in the line. -/
def State.holders (s : State) (line : Nat) : List (Nat × Nat × Nat) :=
  (List.range 32).flatMap fun c => (s.ctx c).insts.filterMap fun i =>
    if i.det then (i.slots.find? fun z => z.dpa / 64 == line).map fun z => (c, i.handle, z.ea) else none
/-- R374: a taint event at a holder: its record when its trail records and has room, LOST otherwise, and TEV. -/
def State.taintEvent (s : State) (dpa : Nat) (h : Nat × Nat × Nat) : State :=
  let t := (s.ctx h.1).trail
  let s1 := if t.mode = 1 then
      (if t.full then s.modTrail h.1 fun t => { t with lost := true }
       else s.writeRecord h.1 (mkQ0 0 0x0A (issUnit 3 (homeSlice dpa))) (partField (h.2.2 / 64 * 64 + dpa % 64) + h.2.1 % 8192))
    else s
  s1.modInst h.1 h.2.1 fun i => { i with tev := true }
/-- R374: an ATFADD of a queue thread or of a kernel without DET meets a held line. -/
def State.lineAdded (s : State) (dpa : Nat) : State := (s.holders (dpa / 64)).foldl (fun t h => t.taintEvent dpa h) s
/-- R374: those of an agent's own access. -/
def State.lineEvents (s : State) (ag : Agent) (x : Strong) : State :=
  let det := match ag with
    | .job n _ => s.detCore n
    | .thread _ _ => false
  match x.op, x.loc with
  | .fadd, .hbm dpa _ => if det then s else s.lineAdded dpa
  | _, _ => s

/-- What lands for an access: its result, or its acknowledgement (R479). -/
def landings (x : Strong) (v : Nat) (t : Bool) (poison : Nat) : List PendTarget :=
  if poison ≠ 0 then [.poison x.e poison x.va]
  else
    match x.dst with
    | none => []
    | some r =>
      if x.size = 16 then [.s x.e r (BitVec.ofNat 64 v) t, .s x.e (r + 1) (BitVec.ofNat 64 (v / 2 ^ 64)) t]
      else [.s x.e r (BitVec.ofNat 64 v) t]
/-- The awaiting writes of an access take what lands, in order. -/
def replaceAwait (id : Nat) (e : Engine) : List PendTarget → List Pend → List Pend
  | _, [] => []
  | ts, p :: ps =>
    match p.target with
    | .await k =>
      if k = id then
        (match ts with
         | t :: ts => { p with target := t } :: replaceAwait id e ts ps
         | [] => { p with target := .done e } :: replaceAwait id e [] ps)
      else p :: replaceAwait id e ts ps
    | _ => p :: replaceAwait id e ts ps

/-- The issuing stream takes what an access returns; a fill of poison has no effect on the return stack (R141, R449). -/
def State.answer (s : State) (ag : Agent) (x : Strong) (v : Nat) (t : Bool) (poison : Nat) : State :=
  let fillRs := fun (z : Stream) => if poison ≠ 0 then z else match x.op with
    | .fill => { z with rs := [BitVec.ofNat 64 v &&& ~~~3#64], rssp := (z.rssp - 8) &&& 0x007FFFFFFFFFFFF8, spilled := z.spilled - 1 }
    | _ => z
  match ag with
  | .job n e =>
    s.modCore n fun c =>
      { (c.setStr e (fillRs (c.str e))) with
        pend := replaceAwait x.id x.e (landings x v t poison) c.pend
        strong := c.strong.map fun (y : Strong) => if y.id = x.id then { y with done := true } else y }
  | .thread cxn q =>
    let s1 := s.modQueue cxn q fun k => { k with strong := k.strong.drop 1, thread := { fillRs k.thread with hold := match k.thread.hold with
      | .spill _ => .spill 0
      | h => h } }
    if poison ≠ 0 then (s1.poisonRecord ag poison x.va).take ag poison x.va
    else (landings x v t 0).foldl (fun z p => match p with
      | .s _ r v t => z.putS ag r v t 0
      | _ => z) s1

/-- An access of a stream that is not performed: it counts as acknowledged, and the stream stands at it again unless it has issued since
(R168); a CALL or RET whose spill or fill it is issues anew (R140, R141). -/
def Core.withhold (c : Core) (e : Engine) (x : Strong) : Core :=
  let c1 := { c with
    pend := replaceAwait x.id x.e [] c.pend
    strong := c.strong.map fun (y : Strong) => if y.id = x.id then { y with done := true } else y }
  match x.op, x.seat with
  | .spill, _ => c1.setStr e { c.str e with hold := .none }
  | .fill, _ => c1.setStr e { c.str e with hold := .none }
  | _, some z => if (c.str e).nextIssue = x.clk + 1 then c1.setStr e ((c.str e).sit z) else c1
  | _, none => c1
/-- R80: an access that its home slice finds to overlap a tagged one as it comes to perform it raises cause 25; of one whose job has ended
no job is left to raise it (DEDUCED, log 38). -/
def State.mixStop (s : State) (ag : Agent) (x : Strong) : State :=
  match ag with
  | .job n e =>
    let s1 := s.modCore n (·.withhold e x)
    if x.id < (s.core n).since then s1 else s1.trapJob n e 25 x.va
  | .thread cxn q => (s.modQueue cxn q fun k => { k with strong := k.strong.drop 1 }).take ag 25 x.va

/-- An access is performed at its point of coherence, in one indivisible step; data of the host comes back untainted (R368).
Bytes that R80 leaves undefined are so for the access itself, and after it. -/
def State.performStrong (s : State) (ag : Agent) (x : Strong) : State :=
  let cxn := s.cxnOf ag
  let us := s.mixOpen ag x
  let s0 := s.undefine us
  let oldT := s.physTaint x.loc x.size
  let old := if x.op.reads then leNat (s0.physRead x.loc x.size) else 0
  let r := strongValue x.op x.size old x.x.toNat x.cmp.toNat
  let t := x.op.taint oldT x.xT
  let poison := if x.op.reads then s.physPoison x.loc x.size else 0
  let s1 := match r.1 with
    | some v => (s0.physWrite cxn x.loc (tainted t (leBytes x.size v))).markTnt ag x.det t
    | none => s0
  let s2 := (s1.undefine us).noteMark ag x (if x.op.reads then some old else none) r.1
  let back := t && (match x.loc with
    | .host _ => false
    | _ => true)
  ((s2.tagMix ag x).lineEvents ag x).answer ag x r.2 back poison

/-- A contribution of an ordered reduction. -/
def StrongOp.isAred : StrongOp → Bool
  | .ared _ _ _ => true
  | _ => false

/-- An access has left its port for its home slice (R428, R430). -/
def State.sent (s : State) (ag : Agent) (x : Strong) : Bool :=
  !s.unsentFor ag fun k => match ag with
    | .job _ _ => k == .strong x.id
    | .thread _ q => k == .thread q
/-- ATOMIC_PERFORMED (R367, R375): the agent's oldest access, once it has left its port, when the trail lets it. -/
def State.atomicStep (s : State) (ag : Agent) : State :=
  match s.nextStrong ag with
  | none => s
  | some x =>
    if x.op.isAred || !s.sent ag x || !s.reaches x.loc then s
    else if s.mixClash (s.cxnOf ag) x.size x.loc then s.mixStop ag x
    -- a plain store that its full buffer performs emits no record (R382)
    else if x.opc = 0 then s.performStrong ag x
    else
      let q0 := mkQ0 x.clk 0x01 (s.issuer ag 0).1
      match s.gate (s.cxnOf ag) (some ag) q0 (atomicQ1 x.va x.loc x.opc) with
      | .go s1 _ => s1.performStrong ag x
      | .wait s1 => s1
      | .diverged s1 => s1
def execAtomicPerformed (ag : Agent) (s : State) : Out := .next (s.atomicStep ag)

/-- ARED_CONTRIBUTION_ACK (R370). -/
def State.ackContribution (s : State) (ag : Agent) : State :=
  match ag, s.nextStrong ag with
  | .job n _, some x =>
    if x.op.isAred && s.sent ag x then
      (match (s.core n).member with
       | some (cxn, h, _, _) => (s.contribute cxn h x).answer ag x 0 false 0
       | none => s)
    else s
  | _, _ => s
def execAredContributionAck (ag : Agent) (s : State) : Out := .next (s.ackContribution ag)

/-! Closing (R371, R372). -/

/-- The order of contributions. -/
def Contrib.le (a b : Contrib) : Bool :=
  decide (a.i < b.i) || (a.i == b.i && (decide (a.p < b.p) || (a.p == b.p && decide (a.n ≤ b.n))))
/-- A slot closes: the keyed sum, or the undefined value of an overflow. -/
def State.closeSlot (s : State) (cxn : Nat) (z : Slot) : State :=
  if z.lost then s
  else if z.bad then { s with hbmP := s.hbmP.add (z.dpa / 16) }
  else
  let loc := Phys.hbm z.dpa z.leaf
  let old := leNat (s.physRead loc 4)
  let t := s.physTaint loc 4
  let cs := z.contribs.mergeSort Contrib.le
  let acc := if z.overrun then (Config.freeWord s.free).toNat else cs.foldl (fun a k => foldFused a (Fp.decode .f32 k.x.toNat)) old
  let tt := z.overrun || t || cs.any (·.taint)
  let s1 := (if z.overrun then s.tick 1 else s).physWrite cxn loc (tainted tt (leBytes 4 acc))
  if tt && z.det then s1.modInst cxn z.handle fun i => { i with tnt := true } else s1
/-- Every open slot of an instance closes. -/
def State.closeSlots (s : State) (cxn h : Nat) : State :=
  match s.inst? cxn h with
  | some i => (i.slots.foldl (fun t z => t.closeSlot cxn z) s).modInst cxn h fun i => { i with slots := [] }
  | none => s

end Sys2Proof.Machine
end

