-- ==== Sys2Proof/Machine/Sha.lean ====
section
/-! DEFINITION. SHA-512, as measurement registers and hampers use it (R288, R424); the spec names the function, and FIPS 180-4
gives it (log 9). -/
namespace Sys2Proof.Machine

/-- Whether a number has a divisor from 2 to k. -/
def hasDivisor (x : Nat) : Nat → Bool
  | 0 | 1 => false
  | k + 2 => x % (k + 2) == 0 || hasDivisor x (k + 1)
/-- The first 80 primes. -/
def shaPrimes : List Nat := (List.range 410).filter fun x => 2 ≤ x && !hasDivisor x (x / 2)
/-- The largest y below 2^k, added to y0, whose `p`-th power is at most x, by digits. -/
def powerRoot (p x : Nat) : Nat → Nat → Nat
  | 0, y => y
  | k + 1, y => powerRoot p x k (if (y + 2 ^ k) ^ p ≤ x then y + 2 ^ k else y)
/-- The first 64 bits of the fraction of the `p`-th root of a number. -/
def rootFraction (p x : Nat) : W64 := BitVec.ofNat 64 (powerRoot p (x * 2 ^ (64 * p)) 70 0)
/-- The round constants of SHA-512: the cube roots of the first 80 primes (FIPS 180-4). -/
def shaK : List W64 := shaPrimes.map (rootFraction 3)
/-- The initial hash value of SHA-512: the square roots of the first 8 primes. -/
def shaInit : List W64 := (shaPrimes.take 8).map (rootFraction 2)

def ror (x : W64) (k : Nat) : W64 := x.rotateRight k
def shaS0 (x : W64) : W64 := ror x 28 ^^^ ror x 34 ^^^ ror x 39
def shaS1 (x : W64) : W64 := ror x 14 ^^^ ror x 18 ^^^ ror x 41
def shaG0 (x : W64) : W64 := ror x 1 ^^^ ror x 8 ^^^ (x >>> 7)
def shaG1 (x : W64) : W64 := ror x 19 ^^^ ror x 61 ^^^ (x >>> 6)

/-- A big-endian 64-bit word of bytes. -/
def beWord (bs : List Byte) : W64 := bs.foldl (fun a b => (a <<< 8) ||| b.setWidth 64) 0
def beBytes (n : Nat) (v : Nat) : List Byte := (leBytes n v).reverse
/-- k words of a message block. -/
def blockWords (bs : List Byte) : List W64 := (List.range 16).map fun k => beWord ((bs.drop (8 * k)).take 8)
/-- The message schedule, newest first: `n` more words. -/
def schedule : Nat → List W64 → List W64
  | 0, w => w
  | n + 1, w => schedule n ((shaG1 (w.getD 1 0) + w.getD 6 0 + shaG0 (w.getD 14 0) + w.getD 15 0) :: w)
/-- One round on the working variables a to h. -/
def shaRound (v : List W64) (k w : W64) : List W64 :=
  match v with
  | [a, b, c, d, e, f, g, h] =>
    let t1 := h + shaS1 e + ((e &&& f) ^^^ (~~~e &&& g)) + k + w
    let t2 := shaS0 a + ((a &&& b) ^^^ (a &&& c) ^^^ (b &&& c))
    [t1 + t2, a, b, c, d + t1, e, f, g]
  | _ => v
/-- One block folded into a hash value. -/
def shaBlock (h : List W64) (bs : List Byte) : List W64 :=
  let w := (schedule 64 (blockWords bs).reverse).reverse
  let v := (shaK.zip w).foldl (fun v x => shaRound v x.1 x.2) h
  (h.zip v).map fun x => x.1 + x.2
/-- A message with its padding. -/
def shaPad (m : List Byte) : List Byte :=
  m ++ [0x80] ++ List.replicate ((239 - m.length % 128) % 128) 0 ++ beBytes 16 (8 * m.length)
/-- Blocks folded in order; `n` bounds their number. -/
def shaBlocks : Nat → List W64 → List Byte → List W64
  | 0, h, _ => h
  | n + 1, h, bs => if bs.isEmpty then h else shaBlocks n (shaBlock h (bs.take 128)) (bs.drop 128)
/-- The 64 bytes of SHA-512. -/
def sha512 (m : List Byte) : List Byte :=
  let p := shaPad m
  (shaBlocks (p.length / 128) shaInit p).flatMap fun x => beBytes 8 x.toNat
/-- 64 bytes as a register: byte k in bits 8 k + 7 to 8 k. -/
def digestOf (bs : List Byte) : BitVec 512 := BitVec.ofNat 512 (leNat bs)

end Sys2Proof.Machine
end

