-- ==== Sys2Proof/Machine/Copy.lean ====
section
/-! DEFINITION. The X-private copy instructions and the events of copies in flight (R255 to R269, R480). -/
namespace Sys2Proof.Machine

/-- An X word of `len` bytes: of an engine only, guarded. -/
def State.xExec (s : State) (g : Guard) (len : Nat) (f : State → Nat → State) : Out :=
  .next (s.engineOnly fun n _ => s.guarded g len fun s => f s n)

def execXcopy (g : Guard) (d a b tag : F6) (ndm1 es : BitVec 2) (f : BitVec 1) (due : BitVec 16) (s : State) : Out :=
  s.xExec g 8 fun s n => s.affine n 0 d a b tag ndm1.toNat es.toNat f.toNat due.toNat
/-- XFILL (R258): its first slot is reserved at its issue when one is free. -/
def execXfill (g : Guard) (d a b tag : F6) (ndm1 es : BitVec 2) (f : BitVec 1) (due : BitVec 16) (s : State) : Out :=
  s.xExec g 8 fun s n => s.affine n 1 d a b tag ndm1.toNat es.toNat f.toNat due.toNat
/-- XDRAIN (R259): its first slot is taken at its issue when one is available. -/
def execXdrain (g : Guard) (d a b tag : F6) (ndm1 es : BitVec 2) (f : BitVec 1) (due : BitVec 16) (s : State) : Out :=
  s.xExec g 8 fun s n => s.affine n 2 d a b tag ndm1.toNat es.toNat f.toNat due.toNat
def execXgath (g : Guard) (d a b : F6) (s : State) : Out := s.xExec g 4 fun s n => s.indexed n true d a b
def execXscat (g : Guard) (d a b : F6) (s : State) : Out := s.xExec g 4 fun s n => s.indexed n false d a b
def execXallred (g : Guard) (d a b tag : F6) (ty : BitVec 5) (rop : BitVec 3) (duex : BitVec 12) (s : State) : Out :=
  s.xExec g 8 fun s n => s.coll n 0 d a b tag ty.toNat rop.toNat duex.toNat
def execXallgath (g : Guard) (d a b tag : F6) (ty : BitVec 5) (rop : BitVec 3) (duex : BitVec 12) (s : State) : Out :=
  s.xExec g 8 fun s n => s.coll n 1 d a b tag ty.toNat rop.toNat duex.toNat
def execXredscat (g : Guard) (d a b tag : F6) (ty : BitVec 5) (rop : BitVec 3) (duex : BitVec 12) (s : State) : Out :=
  s.xExec g 8 fun s n => s.coll n 2 d a b tag ty.toNat rop.toNat duex.toNat
def execXall2all (g : Guard) (d a b tag : F6) (ty : BitVec 5) (rop : BitVec 3) (duex : BitVec 12) (s : State) : Out :=
  s.xExec g 8 fun s n => s.coll n 3 d a b tag ty.toNat rop.toNat duex.toNat
def execXfetch (g : Guard) (d a b tag : F6) (due : BitVec 20) (s : State) : Out :=
  s.xExec g 8 fun s n => s.fetchCopy n false d a b tag due.toNat
def execXfetchTry (g : Guard) (d a b tag : F6) (due : BitVec 20) (s : State) : Out :=
  s.xExec g 8 fun s n => s.fetchCopy n true d a b tag due.toNat

/-- The first address of a range in each page that it touches. -/
def pagesOf (va len : Nat) : List Nat :=
  (List.range (if len = 0 then 0 else (va + len - 1) / 65536 - va / 65536 + 1)).map fun k => max va ((va / 65536 + k) * 65536)
/-- R269: the absent-fetchable pages of a range. -/
def State.absentPages (s : State) (n va len : Nat) : List (Nat × Nat × W64 × Nat × Nat) :=
  (pagesOf va len).filterMap fun a =>
    match s.translate (s.cxnOf (.job n .X)) (s.genOf (.job n .X)) a accXfetch with
    | .ok _ _ ipa l => if l.tgt = 3 then some (l.tierKey, l.addr, BitVec.ofNat 64 l.val, ipa / 65536, l.level) else none
    | _ => none
/-- What a range covers of pages that are there: places and bytes. -/
def State.rangePieces (s : State) (n va len : Nat) : List (Phys × Nat × Bool) :=
  (pagesOf va len).filterMap fun a =>
    match s.translate (s.cxnOf (.job n .X)) (s.genOf (.job n .X)) a accXfetch with
    | .ok p _ _ l => if l.tgt = 0 then some (p, min (va + len) ((a / 65536 + 1) * 65536) - a, false) else none
    | _ => none
/-- XPREF (R269): asks for the range to be brought into the last-level cache, and starts tier fetches; no tag, no cause of its range. -/
def execXpref (g : Guard) (a b : F6) (s : State) : Out :=
  s.xExec g 4 fun s n => s.check [(sOk a && sOk b, 10)] fun s =>
    let va := (s.rs a).toNat
    let len := W64.f (s.rs b) 31 0
    ((s.startTiers (s.cxnOf s.cur) (s.absentPages n va len)).requests s.cur (s.genOf s.cur) (pagesOf va len) .none [] (s.rangePieces n va len)).fin 4 1

/-! Events of copies in flight. -/

/-- COPY_WRITE_PERFORMED: the next elements of a copy are performed (R254). -/
def execCopyWritePerformed (core tag n : Nat) (s : State) : Out := .next (s.copyMoves core tag n)
/-- COPY_COMPLETE (R252, R253, R260). -/
def execCopyComplete (core tag : Nat) (s : State) : Out := .next (s.completeCopy core tag)
/-- XFILL_SLOT_RESERVE (R258). -/
def execXfillSlotReserve (core tag : Nat) (s : State) : Out := .next (s.fillReserve core tag)
/-- XFILL_SLOT_FILLED (R258). -/
def execXfillSlotFilled (core tag : Nat) (s : State) : Out := .next (s.fillLand core tag)
/-- XDRAIN_SLOT_TAKE (R259). -/
def execXdrainSlotTake (core tag : Nat) (s : State) : Out := .next (s.drainTake core tag)
/-- XDRAIN_SLOT_RELEASE (R259). -/
def execXdrainSlotRelease (core tag : Nat) (s : State) : Out := .next (s.drainRelease core tag)
/-- XFETCH_TRY_FALLBACK (R267, R268). -/
def execXfetchTryFallback (core tag : Nat) (s : State) : Out := .next (s.tryFallback core tag)

end Sys2Proof.Machine
end

