-- ==== Sys2Proof/Machine/Cancel.lean ====
section
/-! DEFINITION. Restart points, phase cancels and the causes that have the effect of R439 (R91, R247, R273, R360, R371, R439 to
R445). -/
namespace Sys2Proof.Machine

/-- Pending writes of kinds 0 to 9 (R441). -/
def PendTarget.kept : PendTarget → Bool
  | .expert _ => false
  | .await _ => false
  | .poison _ _ _ => false
  | .done _ => false
  | _ => true

/-- R441: a restart point captured at a cycle. -/
def Core.capture (c : Core) (now : Nat) : Core :=
  { c with
    rp := some { streams := [c.strS, c.strV, c.strM, c.strX].map fun x => { x with hold := .none }
                 ncsr := c.ncsr, phst := c.phst, shape := c.shape, gres := c.gres, gval := c.gval, dbw0 := c.dbw0, dbw1 := c.dbw1
                 chans := c.chans.toList, pend := c.pend.filter fun p => p.target.kept, cycle := now, rb := 0 }
    rb := 0, rbDone := 0 }

/-- A stream at its restart point, with its return stack as it was left (R141). -/
def Stream.restart (cur saved : Stream) : Stream :=
  { saved with rs := cur.rs, spilled := cur.spilled, rssp := cur.rssp, lbuf := [], hold := .none, nextIssue := 0 }
/-- R442: the fields a restore writes; pending writes follow as the job restarts. -/
def Core.restore (c : Core) : Core :=
  match c.rp with
  | none => c
  | some r =>
    { c with
      strS := c.strS.restart (r.streams.getD 0 c.strS), strV := c.strV.restart (r.streams.getD 1 c.strV)
      strM := c.strM.restart (r.streams.getD 2 c.strM), strX := c.strX.restart (r.streams.getD 3 c.strX)
      ncsr := r.ncsr, phst := r.phst, shape := r.shape, gres := r.gres, gval := r.gval, gpend := [], dbw0 := r.dbw0, dbw1 := r.dbw1
      chans := (List.range 16).foldl (fun v k => v.setIfInBounds k ((r.chans.getD k .reset))) c.chans
      tags := c.tags.map fun t => { t with fb := false, abs := false }
      m := { c.m with follow := [] }, pend := [], loading := true, order := .all { ls := Vector.replicate 4 c.seq, cp := r.cycle }
      rb := c.rb + c.rbDone, rbDone := 0 }

/-- R91: the phase store buffer and the snapshot are dropped, with the phase's increments (R204) and contribution counts. -/
def Core.dropPhase (c : Core) : Core :=
  { c with psb := [], psbFull := false, snap := [], epend := [], aredN := c.aredN.filter fun x => x.2.1 != c.phst.toNat % 65536
           strong := c.strong.filter fun x => match x.op with
             | .ared _ _ _ => false
             | _ => true }

/-- R91, R360: arrivals of a core that has none released are withdrawn. -/
def State.withdraw (s : State) (n : Nat) : State :=
  match (s.core n).member with
  | none => s
  | some (cxn, h, g, _) =>
    let c := s.core n
    let atPhase := engines.any fun e => match (c.str e).hold with
      | .phase _ _ => true
      | _ => false
    let atBar := match c.strS.hold with
      | .bar k _ => some k
      | _ => none
    let s1 := if atPhase then s.modGroup cxn h g (·.unpause 3) else s
    match atBar with
    | some true => (s1.modGroup cxn h g (·.unpause 3)).modInst cxn h fun i => { i with kbarOrder := i.kbarOrder.filter (· != g) }
    | _ => s1

/-- R371: the contributions of a cancelled attempt leave their slots. -/
def State.dropContribs (s : State) (n : Nat) : State :=
  match (s.core n).member, (s.core n).job with
  | some (cxn, h, _, _), some j =>
    let p := (s.core n).phst.toNat % 65536
    s.modInst cxn h fun i => { i with slots := i.slots.map fun z => { z with contribs := z.contribs.filter fun k => k.i != j.i || k.p != p } }
  | _, _ => s

/-- R371: a cancel completes once every contribution of the job has reached its slot. -/
def State.awaitContribs (s : State) (n : Nat) : State :=
  match (s.core n).member with
  | some (cxn, h, _, _) => ((s.core n).strong.filter fun x => x.op.isAred && !x.done).foldl (fun t x => t.contribute cxn h x) s
  | none => s
/-- R91, R247, R371: the cancel of a job's phase, up to the restore. -/
def State.cancelPhase (s : State) (n : Nat) : State :=
  let s1 := ((s.withdraw n).awaitContribs n).dropContribs n
  let r := ((s1.core n).dropPhase).abandonMmas s1.free
  ({ (s1.setCore n r.1) with free := r.2 }).perf (s.cxnOf (.job n .S)) 8 1

/-- R273: class A abandons every copy in flight; the bytes it may write hold undefined values, its tag is ready. -/
def State.scribble (s : State) (n : Nat) (m : Move) : State :=
  let bs := tainted false (s.freeBytes m.n)
  let s := s.tick m.n
  match m.dst with
  | .sp a => s.modCore n (·.spWrite a bs)
  | .cm _ p _ => s.physWrite (s.cxnOf (.job n .X)) p bs
  | .data _ _ => s
def State.abandonCopy (s : State) (n : Nat) (x : Copy) : State :=
  let ch := (s.core n).chan x.chan
  let later := match x.form with
    | .xfill => (List.range (min (x.nslots - x.claimed) ch.count)).flatMap fun k => (s.core n).slotMoves x (x.claimed + k) (ch.slot ((ch.pidx + k) % ch.count))
    | _ => x.moves
  let ms := x.hist ++ later ++ x.slots.flatMap (·.moves)
  (ms.foldl (fun t m => t.scribble n m) s).modCore n fun c =>
    let c1 := (c.dropCopy x.tag).setTag x.tag { infl := false, fb := false, abs := false, readyAt := 0 }
    if x.form.isColl then { c1 with collN := aset c1.collN x.collCid ((aget? c1.collN x.collCid).getD 1 - 1) } else c1
def State.abandonCopies (s : State) (n : Nat) : State := (s.core n).copies.foldl (fun t x => t.abandonCopy n x) s

/-- A stop whose cancel is still to take: its record waits for the ring (R384). -/
def Stop.waitsCancel (x : Stop) : Bool := x.parked && (x.cause == 28 || x.cause == 32 || x.cause == 33 || x.cause == 34)
/-- The record of a phase restart at a cycle (Table 15-4). -/
def State.cancelRecord (s : State) (n : Nat) (e : Engine) (cause clk : Nat) : Nat × Nat :=
  (mkQ0 clk 0x0B (s.issJob n e 0), cause + (s.core n).phst.toNat % 65536 * 65536)
/-- R439: the phase is cancelled, the restart point restored, and the cause raised. -/
def State.cancelNow (s : State) (n : Nat) (e : Engine) (cause faddr : Nat) : State :=
  ((s.cancelPhase n).modCore n fun c =>
    { c.restore with stop := some { cause := cause, strm := e, faddr := faddr, held := false, parked := false, cycle := s.now n - 1 } }).pauseCore n 2
/-- R439 to R442: the record is written and the cancel takes place. The record waits for a full ring (R384), and behind the stream's earlier
accesses (R383): the job stands stopped with its cancel still to take. `clk` is the cycle at which it stops. -/
def State.cancelTrap (s : State) (n : Nat) (e : Engine) (cause faddr clk : Nat) : State :=
  let fresh := match (s.core n).stop with
    | none => true
    | some st => st.waitsCancel
  if !fresh then s
  else
    let cxn := s.cxnOf (.job n e)
    let t := (s.ctx cxn).trail
    let r := s.cancelRecord n e cause clk
    let wait := fun (s : State) =>
      (s.modCore n fun c => { c with stop := some { cause := cause, strm := e, faddr := faddr, held := false, parked := true, cycle := s.now n - 1 } }).pauseCore n 0
    if t.mode = 1 ∧ s.behindStrong (some (.job n e)) r.1 then wait s
    else if t.mode = 1 ∧ (t.full ∨ t.held ≠ []) then wait (s.trailStall cxn r.1 r.2)
    else (if t.mode = 1 then (s.writeRecord cxn r.1 r.2).modTrail cxn (·.dropWait r.1 r.2) else s).cancelNow n e cause faddr

/-- Takes a cause of a job: those of R439 with their cancel, poison with its record (R451), the others as a trap. -/
def State.raise (s : State) (n : Nat) (e : Engine) (cause faddr : Nat) : State :=
  if cause = 28 ∨ cause = 32 ∨ cause = 33 ∨ cause = 34 then
    (if (s.core n).stop.isNone then s.poisonRecord (.job n e) cause faddr else s).cancelTrap n e cause faddr (s.now n) else s.trapJob n e cause faddr
/-- A fetch that fails is reported on the instruction (R139, R449). -/
def State.fetchFault (s : State) (ag : Agent) (c a : Nat) (r : Option FaultRec) : State :=
  match ag with
  | .job n e => if c = 32 ∨ c = 33 then s.raise n e c a else s.take ag c a r
  | .thread _ _ => (s.poisonRecord ag c a).take ag c a r
/-- The same at the landing of a value: the job issues nothing at this cycle. -/
def State.raiseLanding (s : State) (n : Nat) (e : Engine) (cause faddr : Nat) : State :=
  ((s.raise n e cause faddr).modCore n fun c => { c with stop := c.stop.map fun x => { x with cycle := s.now n - 1 } }).standCore n

/-- R442: the job restarts at a cycle once its copies have ended: tags ready, channels as they were saved, pending writes shifted. -/
def State.restartJob (s : State) (n : Nat) : State :=
  let c := s.core n
  if c.loading ∧ c.stop.isNone ∧ c.copies.isEmpty ∧ !c.coefLost then
    match c.rp with
    | none => s.setCore n { c with loading := false }
    | some r =>
      s.setCore n
        { c with
          -- what the cancelled attempt's fills and drains have made of the channels since (R273) does not stand
          chans := (List.range 16).foldl (fun v k => v.setIfInBounds k (r.chans.getD k .reset)) c.chans
          pend := r.pend.map fun p => { p with due := s.now n + p.due - r.cycle }
          tags := c.tags.map fun t => { t with infl := false, fb := false, abs := false }
          m := { c.m with follow := [] }, loading := false }
  else s

/-- R480: the cause a copy has kept is delivered at the cycle at which its tag stops being in flight; an XFETCH.TRY, which keeps none of a refused
or failed read, delivers another though it falls back (R337). -/
def State.lateCause (s : State) (n tag : Nat) : State :=
  match (s.core n).copy? tag with
  | some x =>
    match x.cause with
    | some (c, va) =>
      let ends := if (s.fallsBack n x).isSome then decide (x.due ≤ s.now n) && !s.tryHeld n x else x.ripe (s.now n) && (s.core n).foRoom x
      if ends then s.raiseLanding n .X c va else s
    | none => s
  | none => s
/-- COPY_LATE_CAUSE (R480). -/
def execCopyLateCause (core tag : Nat) (s : State) : Out := .next (s.lateCause core tag)

/-- Whether bytes of a move lie within the front half of an enabled window (R443). -/
def inFront (w : W64) (m : Move) : Bool :=
  match m.dst with
  | .sp a =>
    let B := W64.f w 15 0 * 64
    let Z := W64.f w 31 16 * 64
    let f := B + Z * (if w.getLsbD 62 then 1 else 0)
    w.getLsbD 63 && decide (f ≤ a) && decide (a + m.n ≤ f + Z)
  | _ => false
/-- R443: the refetch set noted after a boundary's swap: at most 8, in issue order. -/
def Core.noteRefetch (c : Core) : Core :=
  let ok := c.doneCopies.filter fun x => x.hist.all (inFront c.dbw0) || x.hist.all (inFront c.dbw1)
  { c with refetch := (ok.mergeSort fun x y => decide (x.issue ≤ y.issue)).take 8, doneCopies := [] }

/-- R443: one copy of the refetch set performed again, its context addresses translated afresh; none for a fault. -/
def State.refetchOne (s : State) (n : Nat) (x : Copy) : State × Option (Nat × Nat × Option FaultRec) :=
  let elt := fun (m : Move) => match m.dst, m.src with
    | .sp a, .cm va _ _ => some ({ dst := .sp a, src := .cm va, n := m.n, idxT := m.idxT } : Elt)
    | .sp a, .sp b => some { dst := .sp a, src := .sp b, n := m.n, idxT := m.idxT }
    | _, _ => none
  let f := s.footprint n accCopyRead (x.hist.filterMap elt)
  match f.bad with
  | some b => (s, some b)
  | none =>
    -- the ends were mapped by the windows as the copy issued, so the saved scratchpad addresses stand
    let ms := (f.moves.reverse.zip x.hist).map fun y => { y.1 with dst := y.2.dst, src := match y.2.src with
      | .sp a => Loc.sp a
      | _ => y.1.src }
    let r := (s.askCopy n x.gen .refetch ms ms).moveAll n { x with hist := [] } ms
    (r.1, (r.2.1.cause).map fun c => (c.1, c.2, none))
def State.refetchAll (s : State) (n : Nat) : List Copy → State × Option (Nat × Nat × Option FaultRec)
  | [] => (s, none)
  | x :: xs =>
    match s.refetchOne n x with
    | (s1, some b) => (s1, some b)
    | (s1, none) => s1.refetchAll n xs

end Sys2Proof.Machine
end

