-- ==== Sys2Proof/Machine/VecOperands.lean ====
section
/-! DEFINITION. What the V-private instructions share: the shape (R171, R173), rotating names (R174, R176), sources and
destinations that are registers or channel slots (R102 to R104, R154, R177), and the landing of results (R178, R179). -/
namespace Sys2Proof.Machine

/-! The shape in force (R171). -/

structure Shape where
  rows : Nat
  cols : Nat
  ty : ElTy
deriving DecidableEq, Repr

def Core.sh (c : Core) : Shape :=
  { rows := W64.f c.shape 9 0 + 1, cols := W64.f c.shape 19 10 + 1, ty := (ElTy.ofCode (W64.f c.shape 24 20)).getD (.fp .f32) }
def Shape.n (h : Shape) : Nat := h.rows * h.cols
def Shape.w (h : Shape) : Nat := h.ty.width
/-- Bytes of a shaped operand. -/
def Shape.nb (h : Shape) : Nat := h.n * h.w / 8
/-- b of Table 6-2 for a width. -/
def Shape.beats (h : Shape) (w : Nat) : Nat := cdiv (h.n * w) 4096
def Shape.b (h : Shape) : Nat := h.beats h.w

/-! Names and files (R18, R174). -/

/-- The physical register of a vector name. -/
def Core.physV (c : Core) (f : F6) : Nat :=
  let i := f.toNat
  let ns := W64.f c.shape 47 42
  if i < ns then i else ns + (i - ns + W64.f c.shape 63 56) % W64.f c.shape 55 48
/-- The physical register of a vector-predicate name. -/
def Core.physP (c : Core) (i : Nat) : Nat := if i < 8 then i else 8 + (i - 8 + W64.f c.shape 41 39) % 8
/-- Where a physical register lies in the pool: 48 of them in each granule (R18), here in rising order with the granule's write shadow last
(DESIGN CHOICE, log 39). -/
def vregOff (p : Nat) : Nat := 65536 * (p / 48) + 1024 * (p % 48)
def Core.vreg (c : Core) (p : Nat) : VVal :=
  ⟨BitVec.ofNat 8192 (leNat (c.pool.read (vregOff p) 1024)),
   BitVec.ofNat 256 ((List.range 256).foldl (fun a k => a + bitAt (c.poolT.has (vregOff p / 4 + k)) k) 0)⟩
/-- Bytes lo to lo + len - 1 of a physical register written, the containers they touch taking their taint. The granule's write shadow is not
touched: what its bytes read as once the granule has another use is the model's choice (DESIGN CHOICE, log 39). -/
def Core.setVreg (c : Core) (p : Nat) (x : VWord) (t : BitVec 256) (lo len : Nat) : Core :=
  { c with
    pool := c.pool.write (vregOff p + lo) ((leBytes 1024 x.toNat).drop lo |>.take len)
    poolT := (List.range (cdiv len 4)).foldl (fun z k => z.mk (vregOff p / 4 + lo / 4 + k) (t.getLsbD (lo / 4 + k))) c.poolT }
/-- The value a register name has now. -/
def Core.vname (c : Core) (f : F6) : VVal := c.vreg (c.physV f)
def Core.vpName (c : Core) (i : Nat) : BitVec 1024 := vget c.vp (c.physP i) 0
def Core.vpTaint (c : Core) (i : Nat) : BitVec 1024 := vget c.vpT (c.physP i) 0

/-- Bytes with taint as a register's value. -/
def VVal.ofBytes (bs : List (Byte × Bool)) : VVal :=
  ⟨BitVec.ofNat 8192 (leNat (bytesOf bs)),
   BitVec.ofNat 256 ((List.range (cdiv bs.length 4)).foldl (fun a k => a + bitAt (((bs.drop (4 * k)).take 4).any Prod.snd) k) 0)⟩
/-- The first n bytes of a value, each with its container's taint. -/
def VVal.bytes (v : VVal) (n : Nat) : List (Byte × Bool) :=
  ((List.range n).zip (leBytes n v.data.toNat)).map fun x => (x.2, v.taint.getLsbD (x.1 / 4))

/-! One instruction's operands. -/

/-- What a V instruction needs to issue. A source or destination is a field with the bytes it has. -/
structure VSpec where
  conds : List (Bool × Nat)
  srcs : List (F6 × Nat)
  dst : Option (F6 × Nat)
  interval : Nat
deriving DecidableEq, Repr

/-- How many earlier sources name the same channel (R104). -/
def earlier (f : F6) (l : List (F6 × Nat)) : Nat := if isChan f then (l.filter (·.1 == f)).length else 0
/-- Sources with the number of slots of their channel that earlier ones take. -/
def placed : List (F6 × Nat) → List (F6 × Nat) → List (F6 × Nat × Nat)
  | _, [] => []
  | seen, x :: xs => (x.1, x.2, earlier x.1 seen) :: placed (seen ++ [x]) xs
def VSpec.sources (v : VSpec) : List (F6 × Nat × Nat) := placed [] v.srcs

/-- R102, R177, R167: the conditions of a channel operand at an address. -/
def Core.slotConds (c : Core) (f : F6) (nb a : Nat) : List (Bool × Nat) :=
  if isChan f then
    let ch := c.chan (f.toNat - 48)
    [(!ch.cfg || decide (nb ≤ ch.size), 8), (ch.cfg, 11), (!ch.cfg || (c.window a nb).isSome, 24)]
  else []
/-- The address of the slot a destination reserves. -/
def Core.dstSlot (c : Core) (f : F6) : Nat := (c.chan (f.toNat - 48)).slot (c.chan (f.toNat - 48)).pidx
def VSpec.allConds (v : VSpec) (c : Core) : List (Bool × Nat) :=
  v.conds ++ v.sources.flatMap (fun x => c.slotConds x.1 x.2.1 (c.headSlot x.1 x.2.2))
    ++ (match v.dst with
        | some (f, nb) => c.slotConds f nb (c.dstSlot f)
        | none => [])
/-- Slots that the sources take of a channel field. -/
def VSpec.takes (v : VSpec) (f : F6) : Nat := (v.srcs.filter (·.1 == f)).length
/-- R127, R154: every source slot is available, and the destination has a free slot once the sources are taken. -/
def VSpec.ready (v : VSpec) (c : Core) (peek : Bool) : Bool :=
  (v.srcs.all fun x => !isChan x.1 || decide (v.takes x.1 ≤ (c.chan (x.1.toNat - 48)).avail)) &&
    (match v.dst with
     | some (f, _) => !isChan f || decide (0 < (c.chan (f.toNat - 48)).free + (if peek then 0 else v.takes f))
     | none => true)
/-- A source's value. -/
def Core.source (c : Core) (x : F6 × Nat × Nat) : VVal :=
  if isChan x.1 then VVal.ofBytes (c.spRead ((c.window (c.headSlot x.1 x.2.2) x.2.1).getD 0) x.2.1) else c.vname x.1
/-- R154: a V read takes and releases its slot at once. -/
def Chan.consume (c : Chan) : Chan := { c with cidx := (c.cidx + 1) % c.count, filled := c.filled - 1 }
def Core.consume (c : Core) (srcs : List (F6 × Nat)) : Core :=
  srcs.foldl (fun c x => if isChan x.1 then c.setChan (x.1.toNat - 48) (c.chan (x.1.toNat - 48)).consume else c) c

/-- A V word (R102 to R105, R179): of an engine, guarded, checked, held while a slot is missing; `pre` does what must succeed
before anything is consumed, and `k` what the instruction does with its sources. `lower` says what stops its access of context memory, which
comes before a window's cause 24 (R11). -/
def State.vword (s : State) (g : Guard) (peek : BitVec 1) (spec : State → Core → VSpec)
    (k : State → Nat → Core → List VVal → State) (pre : State → Nat → (State → State) → State := fun s _ go => go s)
    (lower : State → Nat → Option State := fun _ _ => none) : Out :=
  .next (s.engineOnly fun n _ => s.guarded g 4 fun s =>
    let c := s.core n
    let v := spec s c
    match if lowest (v.allConds c) = 24 then lower s n else none with
    | some t => t
    | none =>
      s.check (v.allConds c) fun s =>
        if !v.ready c (peek == 1) then s
        else pre s n fun s =>
          let c := s.core n
          let vals := v.sources.map c.source
          let s1 := if peek = 1 then s else s.setCore n (c.consume v.srcs)
          ((k s1 n c vals).perf (s.cxnOf s.cur) 3 1).fin 4 v.interval)

/-- A result of nb bytes reaches its destination: the whole register, zero beyond its bytes (R173), or a slot's first bytes. -/
def State.putV (s : State) (n : Nat) (f : F6) (nb : Nat) (r : VVal) (lat : Nat) (ls : Bool := false) : State :=
  let c := s.core n
  if isChan f then
    let k := f.toNat - 48
    let ch := c.chan k
    let a := (c.window (ch.slot ch.pidx) nb).getD 0
    let c1 := { (c.setChan k (ch.reserve c.seq)) with seq := c.seq + 1 }
    (s.setCore n c1).addPend n lat ls (.chan k c.seq ch.epoch a (r.bytes nb))
  else s.addPend n lat ls (.v (c.physV f) r.data r.taint 0 1024)
/-- A destination that may not be a channel: its condition, and itself when it is a register. -/
def vOnly (f : F6) (nb : Nat) : Option (F6 × Nat) := if isChan f then none else some (f, nb)
/-- A vector-predicate result: bits beyond N are 0 (R173). -/
def State.putVp (s : State) (n : Nat) (i : Nat) (bs : List (Bool × Bool)) : State :=
  let num := fun (f : Bool × Bool → Bool) => BitVec.ofNat 1024 (((List.range bs.length).zip bs).foldl (fun a x => a + bitAt (f x.2) x.1) 0)
  s.addPend n 2 false (.vp ((s.core n).physP i) (num Prod.fst) (num Prod.snd))

/-- Elements of a source under the shape. -/
def Shape.elems (h : Shape) (v : VVal) : List Elem := unpackElems h.w h.n v
/-- Bits of a vector predicate with taint. -/
def Core.vpBits (c : Core) (i n : Nat) : List (Bool × Bool) :=
  (List.range n).map fun k => ((c.vpName i).getLsbD k, (c.vpTaint i).getLsbD k)
def vAt (l : List VVal) (k : Nat) : VVal := l.getD k .zero

end Sys2Proof.Machine
end

