-- ==== Sys2Proof/Machine/Issue.lean ====
section
/-! DEFINITION. The issue of one instruction of an agent (R94 to R106, R127, R131, R139): whether the agent may issue, what stands
at its program counter, and the causes of words that decode to nothing. -/
namespace Sys2Proof.Machine

/-- R331, R334: an act on behalf of a job that the job may take: it runs, and did not stop before this cycle (R344). -/
def State.jobLive (s : State) (n : Nat) : Bool :=
  let c := s.core n
  c.job.isSome && !c.loading && !c.retrans && c.stopClass == 0 && (match c.stop with
    | some st => decide (s.now n ≤ st.cycle)
    | none => true)

/-- A thread stands at a read that its link still keeps waiting (R303, R435). -/
def State.linkHeld (s : State) (cxn q : Nat) : Bool :=
  match (s.queue cxn q).waitLink with
  | some (va, n, k) =>
    decide (k = (s.queue cxn q).icount) && (match s.transRange cxn (s.genOf (.thread cxn q)) va n accLoad with
      | .ok ps => ps.any fun x => !s.linked x.2.2.1
      | _ => false)
  | none => false
/-- Whether an agent issues when its turn comes: a stream once a cycle at most (R127). -/
def State.mayIssue (s : State) (ag : Agent) : Bool :=
  match ag with
  | .job n e => s.jobLive n && decide (((s.core n).str e).nextIssue ≤ s.now n) && (match ((s.core n).str e).hold with
    | .phase _ _ => false
    | .rdv => false
    | _ => true)
  | .thread cxn q =>
    let k := s.queue cxn q
    k.state == .running && k.strong.isEmpty && !s.linkHeld cxn q

/-- R106: the first word of a long form stands at the last word of an active loop's body. -/
def Stream.longAtEnd (x : Stream) (len : Nat) : Bool := decide (len = 8) && x.loops.any fun l => l.stop == x.pc
/-- The guard of the word at an address; 0 where it cannot be read. -/
def State.guardAt (s : State) (ag : Agent) (a : Nat) : Guard :=
  match s.fetchWord ag a with
  | .word w => guardOf w
  | _ => 0

/-- A long form whose payload cannot be fetched: its guard first, then cause 4 at the end of a loop's body, then the fetch's
own cause (R101, R106, R11). -/
def State.payloadFault (s : State) (ag : Agent) (g : Guard) (why : Fetched) : State :=
  s.guarded g 8 fun s =>
    if (s.stream ag).longAtEnd 8 then s.cause 4
    else match why with
      | .fault c a r => s.fetchFault ag c a r
      | .park d => s.parkContext (s.cxnOf ag) d
      | .word _ => s

/-- The cause of a rejected word: its own, or the lowest of those that its place and its operands give too (R11, R118). -/
def State.rejectCause (s : State) (ag : Agent) (r : DecodeReject) : Nat :=
  match ag, r with
  | .thread _ _, .jobField _ => 3
  | .job n _, .vFunction _ red d a =>
    let c := s.core n
    lowest (({ conds := [(false, 10)], srcs := [(a, c.sh.nb)], dst := if red then vOnly d c.sh.nb else some (d, c.sh.nb), interval := 1 } : VSpec).allConds c)
  | _, r => r.cause

/-- What the turn of an agent comes to: an instruction to run, or a state. -/
inductive Turn where
  | run (i : Instr) (s : State)
  /-- A word that decodes to no instruction: its guard and its cause. -/
  | illegal (g : Guard) (cause : Nat) (s : State)
  | done (s : State)

/-- The agent's turn: it becomes the current agent, and the instruction at its program counter runs. -/
def State.turn (s : State) (ag : Agent) : Turn :=
  let s := { s with cur := ag }
  let x := s.stream ag
  if s.mayIssue ag then
    match s.headAt ag x.pc.toNat with
    | .instr i len => if x.longAtEnd len then .illegal (s.guardAt ag x.pc.toNat) 4 s else .run i (s.capture ag len)
    | .reject r => .illegal r.guard (s.rejectCause ag r) (s.capture ag 4)
    | .fault c a r => .done (s.fetchFault ag c a r)
    | .park d => .done (s.parkContext (s.cxnOf ag) d)
    | .payload g why => .done (s.payloadFault ag g why)
  else .done s

/-- ILLEGAL_INSTRUCTION: a word that decodes to no instruction raises its cause once its guard has passed (R98, R101, R105,
R106). A word with a wrong payload is two words long when it is discarded. -/
def execIllegalInstruction (g : Guard) (cause : Nat) (s : State) : Out :=
  .next (s.guarded g (if cause = 4 then 8 else 4) fun s => s.cause cause)

end Sys2Proof.Machine
end

