-- ==== Sys2Proof/Machine/Status.lean ====
section
/-! DEFINITION. Status registers: RDST, WRST and VSHAPE's checks (R37 to R39, R70, R159 to R161, R167, R170 to R172, R352). -/
namespace Sys2Proof.Machine

/-! Readings of job state. -/

/-- COREID (Table 5-12). -/
def State.coreId (s : State) (n : Nat) : W64 :=
  match (s.core n).member with
  | some (_, _, g, o) => BitVec.ofNat 64 (g * 2 ^ 32 + o * 2 ^ 16 + n)
  | none => BitVec.ofNat 64 n
/-- GST (Table 5-7). -/
def Core.gst (c : Core) : W64 := BitVec.ofNat 64 ((c.gres ||| 1).toNat * 2 ^ 16 + ((c.gval &&& c.gres) ||| 1).toNat)
/-- RSST (Table 5-3). -/
def Stream.rsst (x : Stream) : W64 := BitVec.ofNat 64 (x.spilled * 2 ^ 16 + x.rs.length)
/-- LPCNTk, level 0 outermost (Table 5-6). -/
def Stream.lpcnt (x : Stream) (k : Nat) : W64 := ((x.loops.reverse[k]?).map fun l => l.remaining.setWidth 64).getD 0
/-- CHSTk (Table 5-8). -/
def Chan.status (c : Chan) : W64 :=
  BitVec.ofNat 64 (bitAt c.cfg 63 + c.taken * 2 ^ 49 + c.filled * 2 ^ 36 + c.pidx * 2 ^ 24 + c.cidx * 2 ^ 12 + c.rsv.length % 4096)

/-- Whether a tag is ready: by the virtual schedule when `det`, else as the wall clock sees it (R161, R252). -/
def Core.tagReady (c : Core) (det : Bool) (t : Nat) : Bool :=
  !(c.tag t).infl || (!det && (match c.copy? (t % 64) with
    | some x => x.performed
    | none => false))
/-- TDONE (R159). -/
def Core.tdone (c : Core) (det : Bool) : W64 :=
  BitVec.ofNat 64 ((List.range 64).foldl (fun a t => a + bitAt (c.tagReady det t) t) 0)

/-! Wall-clock tests of tags (R161, R270, R352). -/

/-- The record of a test whose answer is a TDONE value (Table 15-4). -/
def State.testRecord (s : State) (n : Nat) (e : Engine) (sub : Nat) (v : W64) : Nat × Nat :=
  (mkQ0 (s.now n) 0x05 (s.issJob n e (sub * 256)), v.toNat)
/-- In replay, the TDONE value recorded for a test. -/
def State.recordedTest (s : State) (n : Nat) (e : Engine) (sub : Nat) : Option W64 :=
  let cxn := s.cxnOf (.job n e)
  if (s.ctx cxn).trail.mode = 2 then
    let q := s.testRecord n e sub 0
    match s.findRecord cxn (sameIssuer q) with
    | some k => if recMatches q (s.record cxn k) then some (BitVec.ofNat 64 (s.record cxn k).2) else none
    | none => none
  else none
/-- Every copy of a mask that can be performed now is (a recorded ready answer waits for it, R161). -/
def State.awaitTags (s : State) (n : Nat) (mask : W64) : State :=
  (s.core n).copies.foldl (fun t x => if mask.getLsbD x.tag then t.copyMoves n x.tag (t.sentElts n x) else t) s

/-- A test of the tags of a mask: TDONE as it is answered, with its taint; held while the trail or a recorded ready tag waits. -/
def State.observe (s : State) (n : Nat) (e : Engine) (sub : Nat) (mask : W64) (k : State → W64 → Bool → State) : State :=
  if s.detCore n then k s ((s.core n).tdone true) false
  else
    let r := s.recordedTest n e sub
    let s := match r with
      | some v => s.awaitTags n (mask &&& v)
      | none => s
    let now := (s.core n).tdone false
    let v := r.getD now
    if r.isSome ∧ mask &&& v &&& ~~~ now ≠ 0 then (s.standCore n).pauseCore n 0
    else
      let q := s.testRecord n e sub v
      match s.gate (s.cxnOf (.job n e)) (some (.job n e)) q.1 q.2 with
      | .go s1 _ => k s1 v true
      | .wait s1 => (s1.standCore n).pauseCore n 0
      | .diverged s1 => s1.standCore n

/-! SHAPE (R171, R172). -/

/-- R172: the conditions of a value of SHAPE. -/
def shapeConds (vg : Nat) (v : W64) : List (Bool × Nat) :=
  let n := (W64.f v 9 0 + 1) * (W64.f v 19 10 + 1)
  let ns := W64.f v 47 42
  let rsz := W64.f v 55 48
  let vrb := W64.f v 63 56
  let t := ElTy.ofCode (W64.f v 24 20)
  [(match t with
    | some t => decide (n * t.width ≤ 8192) && decide (n * t.width % 128 = 0)
    | none => true, 8),
   (decide (48 ≤ ns) || decide (ns + rsz ≤ 48 * vg), 9),
   (match t with
    | some t => t.shapeOk
    | none => false, 10),
   (decide (ns ≤ 48), 10),
   (decide (48 ≤ ns) || (decide (48 - ns ≤ rsz) && decide (vrb < rsz)), 10),
   (decide (ns ≠ 48) || (decide (rsz = 0) && decide (vrb = 0)), 10)]
/-- The fields of SHAPE (Table 6-1). -/
def shapeMask : W64 := 0xFFFFFF8001FFFFFF

/-! DBW0 and DBW1 (R167). -/

/-- The value a write of a window register leaves: fields by their access, CUR by R167. -/
def dbwWrite (old v : W64) : W64 :=
  let cur := if v.getLsbD 63 ∧ !old.getLsbD 63 then 0 else old &&& 0x4000000000000000
  (v &&& 0x80000000FFFFFFFF) ||| cur
/-- R167: a region within the scratchpad, a size when enabled, and no overlap of enabled windows. -/
def dbwOk (spSize : Nat) (v other : W64) : Bool :=
  let b := W64.f v 15 0 * 64
  let z := W64.f v 31 16 * 64
  let b2 := W64.f other 15 0 * 64
  let z2 := W64.f other 31 16 * 64
  decide (b + 2 * z ≤ spSize) && (!v.getLsbD 63 || decide (z ≠ 0))
    && !(v.getLsbD 63 && other.getLsbD 63 && decide (b < b2 + 2 * z2) && decide (b2 < b + 2 * z))

/-! RDST and WRST (R170). -/

/-- A selector's register of a job; none for a selector not in Table 5-11. -/
def State.statusJob (s : State) (n : Nat) (e : Engine) (sel : Nat) : Option W64 :=
  let c := s.core n
  let x := c.str e
  if sel = 0x000 then some (BitVec.ofNat 64 (s.now n))
  else if sel = 0x001 then some (c.ncsr.setWidth 64)
  else if sel = 0x002 then some (c.phst.setWidth 64)
  else if sel = 0x003 then some c.shape
  else if sel = 0x004 then some (c.partw.setWidth 64)
  else if sel = 0x005 then some (s.coreId n)
  else if sel = 0x006 then some (c.tdone true)
  else if sel = 0x007 then some c.gst
  else if sel = 0x008 then some x.rsst
  else if sel = 0x009 then some x.rssp
  else if sel = 0x00A then some (BitVec.ofNat 64 x.loops.length)
  else if 0x00B ≤ sel ∧ sel ≤ 0x00E then some (x.lpcnt (sel - 0x00B))
  else if 0x010 ≤ sel ∧ sel ≤ 0x01F then some (c.chan (sel - 0x010)).status
  else if 0x020 ≤ sel ∧ sel ≤ 0x03F then some ((vget c.sems (sel - 0x020) 0).setWidth 64)
  else if sel = 0x040 then some c.dbw0
  else if sel = 0x041 then some c.dbw1
  else none
/-- The registers a queue thread has under Table 5-11: the value, or the cause 3 or 10. -/
def Queue.status (k : Queue) (sel : Nat) : Except Nat W64 :=
  if sel = 0x001 then .ok (k.ncsr.setWidth 64)
  else if sel = 0x008 then .ok k.thread.rsst
  else if sel = 0x009 then .ok k.thread.rssp
  else if sel = 0x00A then .ok (BitVec.ofNat 64 k.thread.loops.length)
  else if 0x00B ≤ sel ∧ sel ≤ 0x00E then .ok (k.thread.lpcnt (sel - 0x00B))
  else if sel ≤ 0x00E ∨ (0x010 ≤ sel ∧ sel ≤ 0x041) then .error 3
  else .error 10

/-- RDST. -/
def execRdst (d : F6) (sr : BitVec 12) (s : State) : Out :=
  .next (match s.cur with
    | .job n e =>
      if sr.toNat = 0x006 then s.observe n e 4 (BitVec.allOnes 64) fun s v t => s.scalar d v t 1
      else
        match s.statusJob n e sr.toNat with
        | some v => s.scalar d v false 1
        | none => s.cause 10
    | .thread cxn q =>
      match (s.queue cxn q).status sr.toNat with
      | .ok v => s.scalar d v false 1
      | .error c => s.cause c)

/-- The write of a job register by a WRST (R170). -/
def Core.statusWrite (c : Core) (sel : Nat) (v : W64) : Core :=
  if sel = 0x001 then { c with ncsr := ncsrWrite c.ncsr v }
  else if sel = 0x002 then { c with phst := phstWrite c.phst v }
  else if sel = 0x003 then { c with shape := v &&& shapeMask }
  else if sel = 0x040 then { c with dbw0 := dbwWrite c.dbw0 v }
  else if sel = 0x041 then { c with dbw1 := dbwWrite c.dbw1 v }
  else c
/-- What a WRST issued at a cycle is to write: of NCSR, it clears no flag that was set at that cycle (R40). -/
def Core.wrstBits (c : Core) (now sel : Nat) (v : W64) : W64 :=
  if sel = 0x001 ∧ c.flagNow.1 = now then v &&& ~~~ (c.flagNow.2.setWidth 64 &&& ncsrW1c.setWidth 64) else v
/-- Conditions of a write by selector. DBW0 and DBW1 are checked as they stand when the WRST issues (R170), so that two streams that write them in
one cycle are each checked against the other's old value: R167 does not say which write then raises cause 10 (DESIGN CHOICE, log 39). -/
def Core.statusConds (c : Core) (sel : Nat) (v : W64) : List (Bool × Nat) :=
  if sel = 0x003 then shapeConds c.vg v
  else if sel = 0x040 then [(dbwOk c.spSize v c.dbw1, 10)]
  else if sel = 0x041 then [(dbwOk c.spSize v c.dbw0, 10)]
  else []

/-- A write of RSSP (Table 5-4). -/
def State.writeRssp (s : State) (v : W64) : State := s.modStream s.cur fun x => { x with rssp := v &&& 0x007FFFFFFFFFFFF8 }

/-- WRST: a register shared by the job changes for the next cycle; a read-only one ignores the write (R5). -/
def execWrst (a : F6) (sr : BitVec 12) (s : State) : Out :=
  .next (
    let sel := sr.toNat
    let v := s.rs a
    match s.cur with
    | .job n e =>
      if (s.statusJob n e sel).isNone then s.cause 10
      else s.check ((s.core n).statusConds sel v) fun s =>
        let s1 := if sel = 0x009 then s.writeRssp v else s.addPend n 1 false (.status sel ((s.core n).wrstBits (s.now n) sel v))
        s1.fin 4 1
    | .thread cxn q =>
      match (s.queue cxn q).status sel with
      | .error c => s.cause c
      | .ok _ =>
        let s1 := if sel = 0x009 then s.writeRssp v
          else if sel = 0x001 then s.modQueue cxn q fun k => { k with ncsr := ncsrWrite k.ncsr v } else s
        s1.fin 4 1)

/-- VSHAPE (R172): in force for the next instruction of the V stream. -/
def execVshape (g : Guard) (a : F6) (s : State) : Out :=
  .next (s.engineOnly fun n _ => s.guarded g 4 fun s =>
    s.check [(sOk a, 10)] fun s => s.check (shapeConds (s.core n).vg (s.rs a)) fun s =>
      ((s.modCore n fun c => { c with shape := s.rs a &&& shapeMask }).perf (s.cxnOf s.cur) 3 1).fin 4 1)

end Sys2Proof.Machine
end

