-- ==== Sys2Proof/Machine/VecMem.lean ====
section
/-! DEFINITION. Vector loads and stores, gather and scatter, the special functions, VRAND, expert bucketing and its counters
(R195 to R205). -/
namespace Sys2Proof.Machine

/-! Scratchpad (R195). -/

/-- VLD: mapped at issue, read at its due cycle. -/
def execVld (g : Guard) (d a : F6) (s : State) : Out :=
  s.vword g 0 (fun s c =>
      { conds := [(sOk a, 10), (decide ((s.rs a).toNat % 16 = 0), 24), ((c.window (s.rs a).toNat c.sh.nb).isSome, 24)]
        srcs := [], dst := some (d, c.sh.nb), interval := c.sh.b })
    fun s n c _ =>
      let m := (c.window (s.rs a).toNat c.sh.nb).getD 0
      if isChan d then
        let k := d.toNat - 48
        let ch := c.chan k
        let at_ := (c.window (c.dstSlot d) c.sh.nb).getD 0
        (s.setCore n { (c.setChan k (ch.reserve c.seq)) with seq := c.seq + 1 }).addPend n 4 false (.vldChan k c.seq ch.epoch at_ m c.sh.nb)
      else s.addPend n 4 false (.vld (c.physV d) m c.sh.nb)
/-- VST. -/
def execVst (g : Guard) (a b : F6) (p : BitVec 1) (s : State) : Out :=
  s.vword g p (fun s c =>
      { conds := [(sOk a, 10), (decide ((s.rs a).toNat % 16 = 0), 24), ((c.window (s.rs a).toNat c.sh.nb).isSome, 24)]
        srcs := [(b, c.sh.nb)], dst := none, interval := c.sh.b })
    fun s n c vs => s.addPend n 4 false (.sp .V ((c.window (s.rs a).toNat c.sh.nb).getD 0) ((vAt vs 0).bytes c.sh.nb))

/-! Context memory (R196). -/

/-- VLDM. -/
def execVldm (g : Guard) (d a : F6) (s : State) : Out :=
  s.vword g 0 (fun _ c => { conds := [(sOk a, 10)], srcs := [], dst := some (d, c.sh.nb), interval := c.sh.b })
    (fun s _ _ _ => s)
    (fun s n go =>
      let va := (s.rs a).toNat
      let nb := (s.core n).sh.nb
      s.access (.job n .V) va nb accLoad fun s ps =>
        if va % 16 ≠ 0 then s.cause 24 va
        else
          let x := s.loadRange n va ps
          go (if x.2.poison ≠ 0 then x.1.addPend n x.2.lat true (.poison .V x.2.poison x.2.addr) else x.1.putV n d nb (VVal.ofBytes x.2.bytes) x.2.lat true))
    fun s n => s.accessStop (.job n .V) (s.rs a).toNat (s.core n).sh.nb accLoad
/-- VSTM: into the phase store buffer as it issues. -/
def execVstm (g : Guard) (a b : F6) (p : BitVec 1) (s : State) : Out :=
  s.vword g p (fun _ c => { conds := [(sOk a, 10)], srcs := [(b, c.sh.nb)], dst := none, interval := c.sh.b })
    (fun s _ _ _ => s)
    (fun s n go =>
      let c := s.core n
      s.plainStore n .V (s.rs a).toNat 16 ((c.source (b, c.sh.nb, 0)).bytes c.sh.nb) go)
    fun s n => s.accessStop (.job n .V) (s.rs a).toNat (s.core n).sh.nb accStore

/-! Gather and scatter (R197). -/

/-- Address of the element an index names. -/
def gatherAt (base w x : Nat) : Nat := base + x * w / 8
/-- Indices of a source that is an index operand. -/
def Core.indexList (c : Core) (f : F6) (skip : Nat) : List Elem := unpackElems 16 c.sh.n (c.source (f, 2 * c.sh.n, skip))
/-- Conditions of a gather or scatter: alignment, N, and each element within a window half. -/
def Core.gatherConds (c : Core) (base : Nat) (b : F6) (skip : Nat) : List (Bool × Nat) :=
  [(decide (base % (c.sh.w / 8) = 0), 24), (decide (c.sh.n ≤ 512), 8),
   (decide (512 < c.sh.n) || (c.indexList b skip).all (fun x => (c.window (gatherAt base c.sh.w x.1) (c.sh.w / 8)).isSome), 24)]
/-- VGATH. -/
def execVgath (g : Guard) (d a b : F6) (p : BitVec 1) (s : State) : Out :=
  s.vword g p (fun s c =>
      { conds := [(vOk d && sOk a, 10)] ++ c.gatherConds (s.rs a).toNat b 0, srcs := [(b, 2 * c.sh.n)], dst := vOnly d c.sh.nb
        interval := cdiv c.sh.n 32 })
    fun s n c vs =>
      let h := c.sh
      let es := (unpackElems 16 h.n (vAt vs 0)).map fun x => ((c.window (gatherAt (s.rs a).toNat h.w x.1) (h.w / 8)).getD 0, x.2)
      s.addPend n (3 + cdiv h.n 32) false (.vgath (c.physV d) (h.w / 8) es)
/-- VSCAT: elements in ascending order, so that the higher index wins. -/
def execVscat (g : Guard) (d a b : F6) (p : BitVec 1) (s : State) : Out :=
  s.vword g p (fun s c =>
      { conds := [(sOk a, 10)] ++ c.gatherConds (s.rs a).toNat b (earlier b [(d, c.sh.nb)]), srcs := [(d, c.sh.nb), (b, 2 * c.sh.n)], dst := none
        interval := cdiv c.sh.n 32 })
    fun s n c vs =>
      let h := c.sh
      ((h.elems (vAt vs 0)).zip (unpackElems 16 h.n (vAt vs 1))).foldl (fun s z =>
        s.addPend n (3 + cdiv h.n 32) false
          (.sp .V ((c.window (gatherAt (s.rs a).toNat h.w z.2.1) (h.w / 8)).getD 0) (tainted (z.1.2 || z.2.2) (leBytes (h.w / 8) z.1.1)))) s

/-! Special functions (R198 to R200). -/

/-- Coefficient q of interval j of function fn (R199). -/
def Core.coefAt (c : Core) (fn j q : Nat) : Nat := leNat (c.coef.read (512 * fn + 16 * j + 4 * q) 4)
def State.vsf (s : State) (fn : SfFn) (g : Guard) (d a : F6) (p : BitVec 1) : Out :=
  s.vword g p (fun _ c => { conds := [(decide (c.sh.ty = .fp .f32), 10)], srcs := [(a, c.sh.nb)], dst := some (d, c.sh.nb), interval := cdiv c.sh.n 32 })
    fun s n c vs =>
      let h := c.sh
      s.putV n d h.nb (packElems h.w ((h.elems (vAt vs 0)).map fun x => (specialFn c.coefAt fn x.1, x.2))) (11 + cdiv h.n 32)
def execVexp2 (g : Guard) (d a : F6) (p : BitVec 1) (s : State) : Out := s.vsf .exp2 g d a p
def execVlog2 (g : Guard) (d a : F6) (p : BitVec 1) (s : State) : Out := s.vsf .log2 g d a p
def execVrcp (g : Guard) (d a : F6) (p : BitVec 1) (s : State) : Out := s.vsf .rcp g d a p
def execVrsq (g : Guard) (d a : F6) (p : BitVec 1) (s : State) : Out := s.vsf .rsq g d a p
def execVsinpi (g : Guard) (d a : F6) (p : BitVec 1) (s : State) : Out := s.vsf .sinpi g d a p
def execVcospi (g : Guard) (d a : F6) (p : BitVec 1) (s : State) : Out := s.vsf .cospi g d a p
def execVtanh (g : Guard) (d a : F6) (p : BitVec 1) (s : State) : Out := s.vsf .tanh g d a p

/-! Random numbers (R202). -/

/-- VRAND: the whole register, whatever the shape. -/
def execVrand (g : Guard) (d a b : F6) (s : State) : Out :=
  s.vword g 0 (fun _ _ => { conds := [(sOk a && sOk b, 10)], srcs := [], dst := some (d, 1024), interval := 2 })
    fun s n _ _ =>
      let t := s.rsT a || s.rsT b
      s.putV n d 1024 (packElems 32 ((randWords (s.rs a).toNat (s.rs b).toNat).map fun w => (w, t))) 6

/-! Expert bucketing (R203, R204). -/

/-- The increments of VBUCKET: each id below 4,096 with the taint of its elements and how often it occurs. -/
def bucketIncs (ids : List Elem) : List (Nat × Bool × Nat) :=
  ids.foldl (fun l x =>
    if x.1 < 4096 then
      (match l.find? (·.1 == x.1) with
       | some _ => l.map fun y => if y.1 = x.1 then (y.1, y.2.1 || x.2, y.2.2 + 1) else y
       | none => l ++ [(x.1, x.2, 1)])
    else l) []
/-- The words VBUCKET writes, with taint. -/
def bucketWords (e0 ne : Nat) (st : Bool) (ids toks : List Elem) : List (Byte × Bool) :=
  let cnt := bucketCounts e0 ne (ids.map Prod.fst)
  let t := st || ids.any Prod.snd
  let words := fun (l : List Nat) => l.flatMap fun w => tainted t (leBytes 4 w)
  let z := ids.zip toks
  let idx := bucketIndices e0 ne (z.map fun x => (x.1.1, x.2.1))
  let idxT := bucketIndices e0 ne (z.map fun x => (x.1.1, bitAt x.2.2 0))
  words cnt ++ words (bucketOffsets 0 cnt) ++ (idx.zip idxT).flatMap fun x => tainted (t || x.2 == 1) (leBytes 4 x.1)
/-- VBUCKET. -/
def execVbucket (g : Guard) (d a b : F6) (p : BitVec 1) (s : State) : Out :=
  s.vword g p (fun s c =>
      let x := s.rs d
      let e0 := W64.f x 43 32
      let ne := W64.f x 56 44
      { conds := [(sOk d, 10), (c.sh.ty = .int false 16 || c.sh.ty = .int false 32, 10), (decide (0 < ne) && decide (e0 + ne ≤ 4096), 10),
          (decide (W64.f x 31 0 % 16 = 0), 24), ((c.window (W64.f x 31 0) (8 * ne + 4 * c.sh.n)).isSome, 24)]
        srcs := [(a, c.sh.nb), (b, c.sh.nb)], dst := none, interval := cdiv c.sh.n 16 })
    fun s n c vs =>
      let x := s.rs d
      let h := c.sh
      let ne := W64.f x 56 44
      let lat := 16 + cdiv h.n 16 + cdiv ne 64
      let ids := h.elems (vAt vs 0)
      (s.addPend n lat false (.sp .V ((c.window (W64.f x 31 0) (8 * ne + 4 * h.n)).getD 0)
        (bucketWords (W64.f x 43 32) ne (s.rsT d) ids (h.elems (vAt vs 1))))).addPend n lat false (.expert (bucketIncs ids))

/-- ECNT (R205). -/
def execEcnt (g : Guard) (d a : F6) (s : State) : Out :=
  s.vword g 0 (fun _ _ => { conds := [(vOk d && sOk a, 10)], srcs := [], dst := vOnly d 1024, interval := 1 })
    fun s n c _ =>
      let x := s.ctx (s.cxnOf s.cur)
      let r := (List.range 128).flatMap fun j =>
        let k := (s.rs a).toNat + j
        if k < 4096 then
          let own := c.epend.filter (·.1 == k)
          let v := ((aget? x.ectr k).getD 0).toNat + own.foldl (fun m y => m + y.2.2) 0
          let t := x.ectrT.has k || own.any (·.2.1)
          [(v % 2 ^ 32, t), (v / 2 ^ 32 % 2 ^ 32, t)]
        else [(0, false), (0, false)]
      s.putV n d 1024 (packElems 32 r) 192

end Sys2Proof.Machine
end

