-- ==== Sys2Proof/Machine/Writes.lean ====
section
/-! DEFINITION. What a pending write does as it lands, and the order in which those due land (R84, R129, R344). -/
namespace Sys2Proof.Machine

/-- Increments join those that a job holds uncommitted (R204). -/
def mergeIncs (old new : List (Nat × Bool × Nat)) : List (Nat × Bool × Nat) :=
  new.foldl (fun l x =>
    if l.any fun y => y.1 == x.1 then l.map fun y => if y.1 = x.1 then (y.1, y.2.1 || x.2.1, y.2.2 + x.2.2) else y
    else l ++ [x]) old

/-- A pending write lands in a core. -/
def Core.landOne (c : Core) (t : PendTarget) : Core :=
  match t with
  | .s e r v x => c.setStr e ((c.str e).ws r v x)
  | .a e r v x => c.setStr e ((c.str e).wa r v x)
  | .t e r v => c.setStr e ((c.str e).wt r v)
  | .p e r v x => c.setStr e ((c.str e).wp r v x)
  | .v r x t lo len => c.setVreg r x t lo len
  | .vp r x t => { c with vp := c.vp.setIfInBounds r x, vpT := c.vpT.setIfInBounds r t }
  | .d r x t => { c with dirs := c.dirs.setIfInBounds (r % 16) x, dirT := c.dirT.setIfInBounds (r % 16) t }
  | .n r x t => { c with norms := c.norms.setIfInBounds (r % 16) x, normT := setBit c.normT (r % 16) t }
  | .sp _ a bs => c.spWrite a bs
  | .flags fl => { c with ncsr := c.ncsr ||| BitVec.ofNat 32 fl }
  | .status k v => c.statusWrite k v
  | .chan k sq ep a bs => (c.spWrite a bs).setChan k ((c.chan k).land sq ep)
  | .expert incs => { c with epend := mergeIncs c.epend incs }
  | .ldsp e r a n sgn =>
    let bs := c.spRead a n
    c.setStr e ((c.str e).ws r (extend sgn n (leNat (bytesOf bs))) (taintOf bs))
  | .vld r a n =>
    let x := VVal.ofBytes (c.spRead a n)
    c.setVreg r x.data x.taint 0 1024
  | .vgath r w es =>
    let x := packElems (8 * w) (es.map fun z => (leNat (bytesOf (c.spRead z.1 w)), z.2 || taintOf (c.spRead z.1 w)))
    c.setVreg r x.data x.taint 0 1024
  | .vldChan k sq ep d a n => (c.spWrite d (c.spRead a n)).setChan k ((c.chan k).land sq ep)
  | .await _ => c
  | .poison _ _ _ => c
  | .done _ => c

/-- Order at a cycle: what a WRST of the cycle before it writes (R170), the writes of scratchpad, the loads whose bytes are written to
scratchpad, then everything else, the loads among it (R84, R344). -/
def PendTarget.rank : PendTarget → Nat
  | .status _ _ => 0
  | .sp _ _ _ => 1
  | .chan _ _ _ _ _ => 1
  | .vldChan _ _ _ _ _ _ => 2
  | _ => 3
/-- Order of landing: by due cycle, then by rank, then in program order (R129). -/
def Pend.le (p q : Pend) : Bool :=
  decide (p.due < q.due) || (p.due == q.due
    && (decide (p.target.rank < q.target.rank) || (p.target.rank == q.target.rank && decide (p.seq ≤ q.seq))))
/-- Sequence numbers of the writes due by a cycle, in the order in which they land. -/
def Core.landOrder (c : Core) (w : Nat) : List Nat := ((c.pend.filter fun p => decide (p.due ≤ w)).mergeSort Pend.le).map (·.seq)

/-- What an ended job has left on its way lands (R21, R84, R166). -/
def Core.landRest (c : Core) : Core := { (c.pend.mergeSort Pend.le).foldl (fun d p => d.landOne p.target) c with pend := [] }

end Sys2Proof.Machine
end

