-- ==== Sys2Proof/Machine/Instances.lean ====
section
/-! DEFINITION. Kernel instances as queues see them: handles, dependences, priorities and status (R311 to R315), and the end of an
instance that is Faulted, with its jobs halted as class A halts them (R285, R318, R319, R339). -/
namespace Sys2Proof.Machine

/-! Handles (R311). -/

/-- Values the launch sequence counter takes: 1 to 2^28 − 1. -/
def seqMod : Nat := 2 ^ 28 - 1
/-- The sequence of the L-th launch. -/
def launchSeq (L : Nat) : Nat := (L - 1) % seqMod + 1
/-- The number of the most recent launch with a sequence, after L launches; none when there is none. -/
def launchNo (L sq : Nat) : Option Nat := if sq = 0 ∨ L < sq then none else some (L - (L - sq) % seqMod)
/-- How many launches of its queue are as recent as a handle's or more recent; none for a handle of no launch. -/
def Ctx.age (c : Ctx) (h : Nat) : Option Nat :=
  let L := (c.queue (h % 16)).launched
  (launchNo L (h / 16)).map (L - ·)
/-- R313, R315: the handle is older than the 64 most recent launches of its queue. -/
def Ctx.aged (c : Ctx) (h : Nat) : Bool :=
  match c.age h with
  | some k => decide (64 ≤ k)
  | none => false

/-- Neither Complete nor Faulted. -/
def IState.live : IState → Bool
  | .complete => false
  | .faulted => false
  | _ => true
def IState.code : IState → Nat
  | .pending => 0 | .admitted => 1 | .walking => 2 | .draining => 3 | .complete => 4 | .faulted => 5
/-- NOUT of a queue (Table 11-2). -/
def Ctx.nout (c : Ctx) (q : Nat) : Nat := (c.insts.filter fun i => i.q == q && i.state.live).length

/-- Table 11-4. -/
def Ctx.statusWord (c : Ctx) (h : Nat) : Nat :=
  if h = 0 ∨ (c.age h).isNone then 7
  else if c.aged h then 6
  else
    match c.inst? h with
    | some i =>
      let ended := !i.state.live
      i.state.code + bitAt (ended && i.tnt) 8 + bitAt (ended && i.tev) 9 + (if i.state = .faulted then i.cause * 1024 else 0)
    | none => 6

/-! Dependences and priorities (R313). -/

def Ctx.depMet (c : Ctx) (h : Nat) : Bool :=
  c.aged h || (match c.inst? h with
    | some d => d.state == .complete
    | none => true)
def Ctx.depFailed (c : Ctx) (h : Nat) : Bool :=
  !c.aged h && (match c.inst? h with
    | some d => d.state == .faulted
    | none => false)
/-- R313: pending instances whose dependence is Faulted become Faulted, and those that depend on them. -/
def Ctx.failDeps : Nat → Ctx → Ctx
  | 0, c => c
  | k + 1, c =>
    Ctx.failDeps k { c with insts := c.insts.map fun i =>
      if i.state = .pending ∧ i.deps.any c.depFailed then { i with state := .faulted, cause := 0 } else i }

/-- Effective priority of an instance; `k` bounds the length of a chain of dependents. -/
def Ctx.instPri (c : Ctx) : Nat → Inst → Nat
  | 0, i => i.pri
  | k + 1, i => (c.insts.filter fun x => x.state.live && x.deps.contains i.handle).foldl (fun p x => max p (c.instPri k x)) i.pri
def Ctx.effPri (c : Ctx) (i : Inst) : Nat := c.instPri c.insts.length i
/-- Effective priority of a queue. -/
def Ctx.queuePri (c : Ctx) (q : Nat) : Nat :=
  (c.insts.filter fun i => i.q == q && i.state.live).foldl (fun p i => max p (c.effPri i)) (c.queue q).pri.toNat

/-! Weight generations (R414). -/

/-- Generations other than the current one that instances hold. -/
def Ctx.heldGens (c : Ctx) : List Nat := ((c.insts.filter fun i => i.state.live && i.gen != c.cg).map (·.gen)).eraseDups
/-- GENREL for each generation held before that no instance holds now. -/
def State.genNotices (s : State) (cxn : Nat) (before : List Nat) : State :=
  before.foldl (fun t g => if (t.ctx cxn).heldGens.contains g ∨ g = (t.ctx cxn).cg then t else t.event 3 (cxn + 1) 0 g) s

/-- R315, Table 11-5: a Waiting queue runs again when its instance is Complete or Faulted. -/
def State.wake (s : State) (cxn : Nat) : State :=
  (List.range 16).foldl (fun t q =>
    let k := t.queue cxn q
    match k.state, k.kwait with
    | .waiting, some h =>
      if ((t.inst? cxn h).map fun i => i.state.live).getD false then t
      else t.modQueue cxn q fun k => { k with state := .running, kwait := none }
    | _, _ => t) s

/-! Ends. -/

def Inst.cores (i : Inst) : List Nat := i.groups.flatMap (·.members)

/-- R130: the strong accesses and contributions that an agent has issued are performed. -/
def State.flushAgent (ag : Agent) : Nat → State → State
  | 0, s => s
  | k + 1, s =>
    match s.nextStrong ag with
    | none => s
    | some x => State.flushAgent ag k (if x.op.isAred then s.ackContribution ag else s.atomicStep ag)
def State.flushStrong (s : State) (n : Nat) : State :=
  engines.foldl (fun t e => State.flushAgent (.job n e) (t.core n).strong.length t) s

/-- R285: a job halted as class A halts it: its copies and its uncommitted phase are gone. What an ended job has left on its way is performed and
lands. -/
def State.haltJob (s : State) (n : Nat) : State :=
  if (s.core n).job.isSome then ((s.flushStrong n).abandonCopies n).cancelPhase n else (s.flushStrong n).modCore n fun c => c.landRest.dropPhase

/-- A stream of a core that no instance holds. -/
def Stream.idle (x : Stream) : Stream := { x with redirect := none, slots := 0, loops := [], hold := .none }
/-- A core that no instance holds keeps its files and its pool (R21, R328). -/
def Core.release (c : Core) : Core :=
  { c with
    member := none, job := none, asking := false, ended := false, placed := none, stop := none
    strS := c.strS.idle, strV := c.strV.idle, strM := c.strM.idle, strX := c.strX.idle
    gpend := [], order := .reset, pend := [], strong := [], copies := [], psb := [], psbFull := false, snap := [], epend := [], aredN := [], collN := []
    rp := none, refetch := [], doneCopies := [], rb := 0, rbDone := 0, loading := false, coefLost := false, retrans := false, refetching := false, lateErr := none, stopClass := 0
    tags := c.tags.map fun t => { t with infl := false }, m := { c.m with mmas := [], follow := [] } }

/-- R339: an instance becomes Faulted; its jobs are halted, its slots close (R371), its cores are freed, and its dependents fail. -/
def State.faultInst (s : State) (cxn h cause : Nat) : State :=
  match s.inst? cxn h with
  | none => s
  | some i =>
    if !i.state.live then s
    else
      let s1 := (i.cores.foldl (fun t n => t.haltJob n) s).closeSlots cxn h
      let s2 := i.cores.foldl (fun t n => t.modCore n (·.release)) s1
      let s3 := s2.modInst cxn h fun x => { x with state := .faulted, cause := cause, groups := [], kbarOrder := [], readFault := false, reads := [] }
      let s4 := s3.modCtx cxn fun c => c.failDeps c.insts.length
      -- a handler that held one of its jobs has none left
      ((List.range 16).foldl (fun t q =>
        match (t.queue cxn q).handling with
        | some n => if i.cores.contains n then t.modQueue cxn q fun k => { k with handling := none } else t
        | none => t) s4).wake cxn |>.genNotices cxn (s.ctx cxn).heldGens

end Sys2Proof.Machine
end

