-- ==== Sys2Proof/Machine/Queues.lean ====
section
/-! DEFINITION. Chapter 11 of the spec: the forms of a queue thread over its queue, and the halt of a queue (R307 to R319, R321). -/
namespace Sys2Proof.Machine

/-- A system word permitted only on a queue thread (R118), once its guard has passed (R101), with the field rules of R299. -/
def State.qWord (s : State) (g : Guard) (conds : List (Bool × Nat)) (k : State → Nat → Nat → State) : Out :=
  .next (s.guarded g 4 fun s => s.queueOnly fun cxn q => s.check conds fun s => k s cxn q)
/-- A result of such a word. -/
def State.qPut (s : State) (d : F6) (v : W64) (t : Bool) : State := (s.putS s.cur d.toNat v t 0).fin 4 1

/-! LAUNCH (R311 to R313, R325). -/

/-- n bytes read by the device for the current instruction, with its faults and poison raised on it. -/
def State.deviceRead (s : State) (va n : Nat) (go : State → List Byte → State) : State :=
  s.access s.cur va n accLoad fun s ps =>
    match ps.find? fun x => s.physPoison x.2.2.1 x.2.1 != 0 with
    | some x => (s.poisonRecord s.cur (s.physPoison x.2.2.1 x.2.1) x.1).cause (s.physPoison x.2.2.1 x.2.1) x.1
    | none => go s (ps.flatMap fun x => s.physRead x.2.2.1 x.2.1)

/-- A little-endian field of a record. -/
def field (bs : List Byte) (o n : Nat) : Nat := leNat ((bs.drop o).take n)

/-- The launch record (Table 11-3). -/
structure LaunchRec where
  code : Nat
  argp : W64
  lcnt : List Nat
  ndep : Nat
  deps : List Nat
deriving DecidableEq, Repr
def LaunchRec.ofBytes (bs : List Byte) : LaunchRec :=
  { code := field bs 0 8, argp := BitVec.ofNat 64 (field bs 8 8), lcnt := (List.range 6).map fun k => field bs (16 + 4 * k) 4
    ndep := field bs 40 1, deps := (List.range 5).map fun k => if k < field bs 40 1 then field bs (44 + 4 * k) 4 else 0 }

/-- R312: a dependence handle is 0, or one that a started queue of the context has given. -/
def Ctx.depNamed (c : Ctx) (h : Nat) : Bool := h == 0 || ((c.queue (h % 16)).state != .idle && (c.age h).isSome)
/-- R325: the most recent earlier launch of a queue whose code object stands at an address; 0 for none. -/
def Ctx.latestOf (c : Ctx) (q code : Nat) : Nat := (((c.insts.filter fun i => i.q == q && i.code == code).getLast?).map (·.handle)).getD 0

/-- A pending instance as LAUNCH creates it; what its header decides is read at admission (R327). -/
def mkInst (handle q : Nat) (r : LaunchRec) (pri order gen : Nat) (deps : List Nat) : Inst :=
  { handle := handle, q := q, state := .pending, cause := 0, tev := false, tnt := false, det := false, mode := 0, code := r.code,
    argp := r.argp, lcnt := r.lcnt, counts := [], kinds := [], pri := pri, deps := deps, order := order, gen := gen, partw := 0,
    codeOff := [], coefOff := 0, rssb := 0, groups := [], kbarGen := 0, kbarOrder := [], slots := [], readFault := false, reads := [] }

/-- R311: the instance is created; those of the queue that are 64 launches old retire. -/
def State.createInst (s : State) (cxn q : Nat) (r : LaunchRec) (ser : Bool) (list : List Nat) : Nat × State :=
  let c := s.ctx cxn
  let k := c.queue q
  let L := k.launched + 1
  let h := launchSeq L * 16 + q
  let deps := r.deps ++ [if ser then k.seq else 0] ++ (List.range 8).map fun j => match list[j]? with
    | some a => c.latestOf q a
    | none => 0
  let i := mkInst h q r k.pri.toNat c.launchOrder c.cg deps
  (h, s.modCtx cxn fun c =>
    let c1 := (c.setQueue q { c.queue q with launched := L, seq := h })
    let c2 := { c1 with insts := c1.insts.filter (fun (x : Inst) => x.handle != h && (x.state.live || !c1.aged x.handle)) ++ [i], launchOrder := c.launchOrder + 1 }
    c2.failDeps c2.insts.length)

/-- R311: the dependence list of a code object whose header passes, by a way of reading it; empty otherwise. -/
def State.depListWith (s : State) (read : State → Nat → Nat → (State → List Byte → State) → State) (code : Nat) (go : State → List Nat → State) : State :=
  if code % 128 ≠ 0 then go s []
  else
    read s code 128 fun s hd =>
      if field hd 0 4 = 0x4A424F44 ∧ field hd 4 2 = 1 ∧ field hd 15 1 ≤ 8 ∧ field hd 15 1 ≠ 0 then
        read s (code + field hd 52 4) (8 * field hd 15 1) fun s bs => go s ((List.range (field hd 15 1)).map fun k => field bs (8 * k) 8)
      else go s []
def State.withDepList (s : State) (code : Nat) (go : State → List Nat → State) : State := s.depListWith State.deviceRead code go

/-- LAUNCH of a record that is not aligned (R312): cause 24, or a lower one of the record's or of what it names. Poison of what is read has a
higher cause. -/
def State.launchSkew (s : State) (cxn va : Nat) : State :=
  let read := fun (s : State) (va n : Nat) (go : State → List Byte → State) =>
    s.access s.cur va n accLoad fun s ps => go s (ps.flatMap fun x => s.physRead x.2.2.1 x.2.1)
  read s va 64 fun s bs =>
    let r := LaunchRec.ofBytes bs
    s.check [(decide (r.ndep ≤ 5) && r.deps.all (s.ctx cxn).depNamed, 10)] fun s =>
      s.depListWith read r.code fun s _ => s.cause 24
/-- LAUNCH. -/
def execLaunch (g : Guard) (d a b : F6) (s : State) : Out :=
  s.qWord g [(sOk d && aOk a && sOk b, 10)] fun s cxn q =>
    if 64 ≤ (s.ctx cxn).nout q then s
    else
      let va := (s.ra (a.setWidth 4)).toNat
      if va % 64 ≠ 0 then s.launchSkew cxn va
      else
        s.deviceRead va 64 fun s bs =>
          let r := LaunchRec.ofBytes bs
          s.check [(decide (r.ndep ≤ 5) && r.deps.all (s.ctx cxn).depNamed, 10)] fun s =>
            s.withDepList r.code fun s list =>
              let x := s.createInst cxn q r ((s.rs b).getLsbD 2) list
              x.2.qPut d (BitVec.ofNat 64 x.1) false

/-! KWAIT and KSTAT (R315). -/

def execKwait (g : Guard) (d a : F6) (s : State) : Out :=
  s.qWord g [(sOk d && sOk a, 10)] fun s cxn q =>
    let h := W64.f (s.rs a) 31 0
    let c := s.ctx cxn
    let v := c.statusWord h
    if v % 8 < 4 then s.modQueue cxn q fun k => { k with state := .waiting, kwait := some h }
    else s.qPut d (BitVec.ofNat 64 v) false
def execKstat (g : Guard) (d a : F6) (s : State) : Out :=
  s.qWord g [(sOk d && sOk a, 10)] fun s cxn _ => s.qPut d (BitVec.ofNat 64 ((s.ctx cxn).statusWord (W64.f (s.rs a) 31 0))) false

/-! Queue registers (R307 to R309). -/

/-- A register of a trapped job by stream and r (R309). -/
def Core.jobReg (c : Core) (m r : Nat) : Option (W64 × Bool) :=
  let x := c.str (engOf m)
  if 3 < m then none
  else if r < 64 then some (x.rs? r, x.rsT r)
  else if r < 80 then some (x.ra (r - 64), x.raT (r - 64))
  else if r < 88 then some (x.rt (r - 80), false)
  else if r = 88 then some (x.p.setWidth 64, x.pT != 0)
  else if r = 96 then some (x.pc, false)
  else none

/-- R169, R309: a stream is to resume at an address; its redirect, its delay slots and what it is held on are discarded. -/
def State.resumeAt (s : State) (n : Nat) (e : Engine) (a : W64) : State :=
  let x := (s.core n).str e
  let s1 := match x.hold with
    | .phase _ _ => s.withdraw n
    | .bar _ _ => s.withdraw n
    | _ => s
  s1.modCore n fun c => c.setStr e { c.str e with pc := a &&& ~~~3#64, redirect := none, slots := 0, hold := .none }

/-- A QWR of a trapped job's register (R309); a target register holds a multiple of 4 (R94). -/
def State.setJobReg (s : State) (n m r : Nat) (v : W64) : State :=
  let e := engOf m
  let up := fun (f : Stream → Stream) => s.modCore n fun c => c.setStr e (f (c.str e))
  if r < 64 then up fun x => x.ws r v false
  else if r < 80 then up fun x => x.wa (r - 64) v false
  else if r < 88 then up fun x => x.wt (r - 80) (v &&& ~~~3#64)
  else if r = 88 then up fun x => { x with p := v.setWidth 16, pT := 0 }
  else s.resumeAt n e v

/-- QSTS (Table 11-2). -/
def Ctx.qsts (c : Ctx) (q : Nat) : W64 :=
  let k := c.queue q
  BitVec.ofNat 64 (bitAt k.npovr 9 + bitAt k.np 8 + bitAt k.hnd 7 + c.nout q)
/-- A queue register by index (Table 11-2), with taint; none raises cause 10. -/
def State.queueReg (s : State) (cxn q idx : Nat) : Option (W64 × Bool) :=
  let c := s.ctx cxn
  let k := c.queue q
  match idx with
  | 0 => some (k.pri.setWidth 64, false)
  | 1 => some (c.qsts q, false)
  | 2 => some (k.qhnd.setWidth 64, false)
  | 3 => some (k.qepc.setWidth 64, false)
  | 4 => some (BitVec.ofNat 64 (k.qcauseStrm.toNat * 64 + k.qcauseCode.toNat), false)
  | 5 => some (k.qjob, false)
  | 6 => some (k.qfaddr, false)
  | 7 => some (c.quant.setWidth 64, false)
  | 8 => some (k.qdebt, false)
  | 9 => some (BitVec.ofNat 64 (k.rcnt.toNat * 256 + k.rcause.toNat), false)
  | _ =>
    if idx < 0x1000 then none
    else
      match k.hnd, k.handling with
      | true, some n => (s.core n).jobReg ((idx - 0x1000) / 256) (idx % 256)
      | _, _ => none

/-- QRD; a read of QRSM is followed by QRSM_READ. -/
def execQrd (g : Guard) (d a : F6) (s : State) : Out :=
  s.qWord g [(sOk d && sOk a, 10)] fun s cxn q =>
    let idx := W64.f (s.rs a) 15 0
    match s.queueReg cxn q idx with
    | none => s.cause 10
    | some (v, t) =>
      let s1 := s.qPut d v t
      if idx = 9 then { s1 with agenda := .auto (.qrsmRead cxn q) :: s1.agenda } else s1
/-- QRSM_READ: RCAUSE is cleared by its read (Table 11-2). -/
def execQrsmRead (cxn q : Nat) (s : State) : Out := .next (s.modQueue cxn q fun k => { k with rcause := 0 })

/-- A write of a register of Table 11-2 but for QCTL.HALT, field by field (R5). -/
def Queue.writeReg (k : Queue) (idx : Nat) (v : W64) : Queue :=
  match idx with
  | 0 => { k with pri := v.setWidth 2 }
  | 1 => if v.getLsbD 9 then { k with npovr := false } else k
  | 2 => { k with qhnd := v.setWidth 55 }
  | 3 => { k with qepc := v.setWidth 55, hslots := 0 }
  | _ => k
/-- QWR; HALT = 1 in QCTL is followed by QCTL_HALT. -/
def execQwr (g : Guard) (a b : F6) (s : State) : Out :=
  s.qWord g [(sOk a && sOk b, 10)] fun s cxn q =>
    let idx := W64.f (s.rs a) 15 0
    let v := s.rs b
    if (s.queueReg cxn q idx).isNone then s.cause 10
    else if idx < 0x1000 then
      let s1 := (s.modQueue cxn q fun k => k.writeReg idx v).fin 4 1
      if idx = 0 ∧ v.getLsbD 8 then { s1 with agenda := .auto (.qctlHalt cxn q) :: s1.agenda } else s1
    else
      match (s.queue cxn q).handling with
      | some n => (s.setJobReg n ((idx - 0x1000) / 256) (idx % 256) v).fin 4 1
      | none => s.cause 10

/-- QCTL_HALT (R318, R319): the queue is Halted with CAUSE 0, and the instance whose job its handler holds is Faulted with the
held cause; only a Running queue has such a write (Table 11-5). -/
def execQctlHalt (cxn q : Nat) (s : State) : Out :=
  .next (if (s.queue cxn q).state ≠ .running then s else
    let k := s.queue cxn q
    let s1 := match k.hnd, k.handling with
      | true, some n =>
        match (s.core n).member, (s.core n).stop with
        | some (c, h, _, _), some st => s.faultInst c h st.cause
        | _, _ => s
      | _, _ => s
    (s1.modQueue cxn q fun k => { k with hnd := false, handling := none }).endQueue cxn q .halted 0)

/-! Stretches and signals (R316, R321). -/

def execNpbeg (g : Guard) (a : F6) (s : State) : Out :=
  s.qWord g [(sOk a, 10)] fun s cxn q =>
    let b := s.rs a
    s.check [(b != 0 && !(s.queue cxn q).np, 10)] fun s =>
      (s.modQueue cxn q fun k => { k with np := true, bound := b, elapsed := 0, watched := false }).fin 4 1
def execNpend (g : Guard) (s : State) : Out :=
  s.qWord g [] fun s cxn q =>
    s.check [((s.queue cxn q).np, 10)] fun s => (s.modQueue cxn q fun k => { k with np := false, bound := 0, elapsed := 0, watched := false }).fin 4 1

/-- The largest debt of a context's queues. -/
def Ctx.maxDebt (c : Ctx) : Nat := c.queues.toList.foldl (fun m k => max m k.qdebt.toNat) 0
/-- R321: the next quantum begins, shortened by the largest debt, and every debt is zero again. -/
def Ctx.newQuantum (c : Ctx) : Ctx := { c with slice := c.quant.toNat * 1024 - c.maxDebt, queues := c.queues.map fun k => { k with qdebt := 0 } }

/-- Vectors of a virtual function's MSI-X table (Table 17-3). -/
def vfVectors : Nat := 64
/-- QSIG (R316). The thread issues it only once its earlier strong accesses are acknowledged (R131). -/
def execQsig (g : Guard) (a : F6) (s : State) : Out :=
  s.qWord g [(sOk a, 10)] fun s cxn _ =>
    let v := W64.f (s.rs a) 10 0
    s.check [(decide (v < vfVectors), 10)] fun s => (s.msix (s.ctx cxn).vf v).fin 4 1

end Sys2Proof.Machine
end

