-- ==== Sys2Proof/Machine/ContextRegs.lean ====
section
/-! DEFINITION. Context registers, performance counters and expert counters as programs read and write them (R204, R297 to R301). -/
namespace Sys2Proof.Machine

/-- HRGN.SIZE: the region in 64 KiB units (Table 10-9). -/
def Ctx.regionUnits (c : Ctx) : Nat := c.runs.foldl (fun a r => a + r.2 * 8192) 0
/-- Slots owned (Table 10-9). -/
def Ctx.slots (c : Ctx) : Nat := ((List.range 256).filter fun k => c.slotMask.getLsbD k).length
/-- An expert counter (R204). -/
def Ctx.expert (c : Ctx) (e : Nat) : W64 := (aget? c.ectr e).getD 0

/-- A context register by index (Table 10-6), with taint; none raises cause 10. -/
def State.cxReg (s : State) (cxn idx : Nat) : Option (W64 × Bool) :=
  let c := s.ctx cxn
  if idx = 0 then some (BitVec.ofNat 64 (c.dcn.toNat * 2 ^ 32 + c.vf * 256 + cxn), false)
  else if idx = 1 then some (BitVec.ofNat 64 (bitAt c.tchk 0), false)
  else if idx = 2 then some (BitVec.ofNat 64 (bitAt c.mixdbg 0), false)
  else if idx = 3 then some (c.partd.setWidth 64, false)
  else if idx = 4 then some (c.clmask, false)
  else if idx = 5 then some (BitVec.ofNat 64 c.regionUnits, false)
  else if idx = 6 then some (BitVec.ofNat 64 (c.frw * 2 ^ 29 + c.slots * 2 ^ 20 + c.tok), false)
  else if idx = 7 then some (c.pcal.setWidth 64, false)
  else if 0x1000 ≤ idx ∧ idx ≤ 0x1FFF then some (c.expert (idx - 0x1000), c.ectrT.has (idx - 0x1000))
  else none

/-- R20: a partition word other than zero is valid. -/
def partOk (w : Nat) : Bool :=
  decide (1 ≤ bits w 2 0) && decide (bits w 2 0 ≤ 4) && decide (bits w 2 0 + bits w 8 3 + bits w 14 9 = 48)
/-- The fields of a partition word (Table 1-3). -/
def partMask : Nat := 0x7FFF

/-- CXRD. -/
def execCxrd (g : Guard) (d a : F6) (s : State) : Out :=
  s.qWord g [(sOk d && sOk a, 10)] fun s cxn _ =>
    match s.cxReg cxn (W64.f (s.rs a) 15 0) with
    | some (v, t) => s.qPut d v t
    | none => s.cause 10

/-- A write of a context register (R5, R81, R298). -/
def Ctx.writeReg (c : Ctx) (idx : Nat) (v : W64) : Ctx :=
  match idx with
  | 1 => { c with tchk := v.getLsbD 0 }
  | 2 => { c with mixdbg := v.getLsbD 0, mix := [] }
  | 3 => { c with partd := BitVec.ofNat 32 (v.toNat % (partMask + 1)) }
  | _ => c
/-- CXWR. -/
def execCxwr (g : Guard) (a b : F6) (s : State) : Out :=
  s.qWord g [(sOk a && sOk b, 10)] fun s cxn _ =>
    let idx := W64.f (s.rs a) 15 0
    let v := s.rs b
    s.check [((s.cxReg cxn idx).isSome && (idx != 3 || partOk v.toNat), 10)] fun s => (s.modCtx cxn fun c => c.writeReg idx v).fin 4 1

/-- A performance counter as PCRD answers it (R300). -/
def Ctx.pcrd (c : Ctx) (k : Nat) : W64 :=
  if c.pcal.getLsbD k then (if k < 12 then vget c.perf k 0 else 0) else 0x8000000000000000
/-- PCRD, on a queue thread or in a job's S stream. -/
def execPcrd (g : Guard) (d a : F6) (s : State) : Out :=
  .next (s.guarded g 4 fun s => s.check [((g == 0 || g == 16) && sOk d && sOk a, 10)] fun s =>
    s.check [(decide ((s.rs a).toNat < 32), 10)] fun s =>
      s.scalar d ((s.ctx (s.cxnOf s.cur)).pcrd (s.rs a).toNat) false 8)

/-- ECLR (R301). -/
def execEclr (g : Guard) (a b : F6) (s : State) : Out :=
  s.qWord g [(sOk a && sOk b, 10)] fun s cxn _ =>
    let x := (s.rs a).toNat
    let n := (s.rs b).toNat
    s.check [(decide (n = 0) || decide (x + n ≤ 4096), 10)] fun s =>
      (s.modCtx cxn fun c =>
        { c with
          ectr := c.ectr.filter fun e => !(decide (x ≤ e.1) && decide (e.1 < x + n))
          ectrT := c.ectrT.clear fun e => decide (x ≤ e) && decide (e < x + n) }).fin 4 1

end Sys2Proof.Machine
end

