-- ==== Sys2Proof/Machine/Kernel.lean ====
section
/-! DEFINITION. Chapter 12 of the spec: admission and its checks, the loads, the walk, placement and the start of jobs (R324 to
R336), and the reload of a coefficient image (R293). -/
namespace Sys2Proof.Machine

/-! Reads the device makes for an instance (R327, R329). -/

/-- How such a read ends. -/
inductive DevRead where
  | ok (bs : List Byte)
  | fault (cause va : Nat) (rec : Option FaultRec)
  | park (dpa : Nat)
deriving DecidableEq, Repr
/-- n bytes under a generation; poison is a fault with its cause (R449). -/
def State.devRead (s : State) (cxn gen va n : Nat) (k : Access) : DevRead :=
  match s.transRange cxn gen va n k with
  | .poison d => .park d
  | .fault c a r => .fault c a r
  | .ok ps =>
    match ps.find? fun x => s.refused cxn x.2.2.1 false true, ps.find? fun x => s.physPoison x.2.2.1 x.2.1 != 0 with
    | some x, _ => .fault 19 x.1 none
    | none, some x => .fault (s.physPoison x.2.2.1 x.2.1) x.1 none
    | none, none => .ok (ps.flatMap fun x => s.physRead x.2.2.1 x.2.1)

/-! The header (R324, Table 12-1). -/

/-- KIND and COUNT of level l, with the count of the launch record. -/
def lvlKind (h : List Byte) (l : Nat) : Nat := bits (field h (64 + 8 * l) 8) 33 32
def lvlCount (h : List Byte) (lcnt : List Nat) (l : Nat) : Nat :=
  if lcnt.getD l 0 ≠ 0 then lcnt.getD l 0 else bits (field h (64 + 8 * l) 8) 31 0
def nlvl (h : List Byte) : Nat := field h 14 1
/-- Levels in use, at most six. -/
def usedLevels (h : List Byte) : List Nat := List.range (min (nlvl h) 6)
/-- KIND 1 or 2. -/
def isSpatial (k : Nat) : Bool := k == 1 || k == 2

/-- R327: the conditions of a header. -/
def headerConds (h : List Byte) (lcnt : List Nat) (code : Nat) : List (Bool × Nat) :=
  let len := field h 120 8
  let spatial := (usedLevels h).foldl (fun p l => if isSpatial (lvlKind h l) then p * lvlCount h lcnt l else p) 1
  let fits := fun (o n : Nat) => decide (o + n ≤ len)
  [(decide (field h 12 2 < 64), 5),
   (decide (field h 0 4 = 0x4A424F44) && decide (field h 4 2 = 1), 10),
   (decide (field h 6 2 < 2) && (usedLevels h).all (fun l => decide (field h (64 + 8 * l) 8 < 2 ^ 34)), 10),
   (decide (1 ≤ nlvl h) && decide (nlvl h ≤ 6) && decide (field h 15 1 ≤ 8), 10),
   ((usedLevels h).all fun l => lvlKind h l != 3 && lvlCount h lcnt l != 0, 10),
   ((List.range 4).all fun k => field h (32 + 4 * k) 4 != 0 && field h (32 + 4 * k) 4 % 4 == 0 && fits (field h (16 + 4 * k) 4) (field h (32 + 4 * k) 4), 10),
   (field h 48 4 == 0 || (field h 48 4 % 16 == 0 && fits (field h 48 4) 3584), 10),
   (field h 15 1 == 0 || fits (field h 52 4) (8 * field h 15 1), 10),
   (field h 60 4 == 0 || fits (field h 56 4) (field h 60 4), 10),
   (decide (spatial ≤ 2 ^ 40), 10),
   (field h 8 4 == 0 || partOk (field h 8 4), 12),
   (decide (code % 128 = 0), 24)]

/-! The walk (R331). A level is its kind and its count. -/

/-- How many x below D have x mod NG = t. -/
def hits (D NG t : Nat) : Nat := if t < D then (D - 1 - t) / NG + 1 else 0
/-- Tuples over levels whose die index, continued from residue r, is g modulo NG. -/
def tupleCount (NG g : Nat) (lv : List (Nat × Nat)) (r : Nat) : Nat :=
  let S := (lv.filter (·.1 == 1)).foldl (fun p x => p * x.2) 1
  let D := (lv.filter (·.1 == 2)).foldl (fun p x => p * x.2) 1
  S * hits D NG ((g + NG - r * D % NG) % NG)
/-- The first of a list of counts that j falls into, and what is left of j. -/
def countWalk : List Nat → Nat → Nat → Nat × Nat
  | [], k, j => (k, j)
  | u :: us, k, j => if j < u then (k, j) else countWalk us (k + 1) (j - u)
/-- Indices of the j-th such tuple. -/
def tuplePick (NG g : Nat) : List (Nat × Nat) → Nat → Nat → List Nat
  | [], _, _ => []
  | (k, c) :: rest, r, j =>
    if k = 1 then
      let u := tupleCount NG g rest r
      (if u = 0 then 0 else j / u) :: tuplePick NG g rest r (if u = 0 then 0 else j % u)
    else
      let us := (List.range NG).map fun v => tupleCount NG g rest ((r * c + v) % NG)
      let P := us.foldl (· + ·) 0
      let w := countWalk us 0 (if P = 0 then 0 else j % P)
      let v := (if P = 0 then 0 else j / P) * NG + w.1
      v :: tuplePick NG g rest ((r * c + v) % NG) w.2
/-- Row-major linear index. -/
def linear : List (Nat × Nat) → List Nat → Nat
  | _ :: lv, v :: vs => v * (lv.foldl (fun p x => p * x.2) 1) + linear lv vs
  | _, _ => 0
/-- Indices of a linear index. -/
def unlinear : List (Nat × Nat) → Nat → List Nat
  | [], _ => []
  | (_, c) :: lv, i =>
    let p := lv.foldl (fun p x => p * x.2) 1
    (i / p % c) :: unlinear lv i

/-- Spatial levels of an instance. -/
def Inst.spatial (i : Inst) : List (Nat × Nat) := (i.kinds.zip i.counts).filter fun x => isSpatial x.1
/-- Tuples of group g of NG. -/
def Inst.tuplesOf (i : Inst) (NG g : Nat) : Nat :=
  let lv := i.spatial
  if lv.any (·.1 == 2) then tupleCount NG g lv 0 else hits (lv.foldl (fun p x => p * x.2) 1) NG g
/-- R331: the tuple of iteration j of group g: its indices and i. -/
def Inst.tuple (i : Inst) (NG g j : Nat) : List Nat × Nat :=
  let lv := i.spatial
  if lv.any (·.1 == 2) then
    let v := tuplePick NG g lv 0 j
    (v, linear lv v)
  else (unlinear lv (g + NG * j), g + NG * j)

/-! Groups (R330, R342). -/

/-- Cores of a cluster (R14). -/
def clusterCores (cl : Nat) : List Nat := (List.range 16).map (16 * cl + ·)
def mkGroup (g die : Nat) (members : List Nat) : Group :=
  { gidx := g, die := die, members := members, state := .forming, ret := .lockstep, prsn := 0, vcyc := 0, stand := false, redo := false, nextJ := 0,
    tuples := 0, endedMask := 0 }
def Ctx.formGroups (c : Ctx) : List Group :=
  let dies := (List.range 8).filter fun d => c.clusters.any (· / 8 == d)
  ((List.range dies.length).zip dies).map fun x => mkGroup x.1 x.2 ((c.clusters.filter (· / 8 == x.2)).flatMap clusterCores)

/-! Admission (R313, R314, R327, R328). -/

/-- The context runs: it is not stopped, nor being restored. -/
def Ctx.going (c : Ctx) : Bool :=
  !c.restoring && (c.state == .running || (c.state == .migOut && (match c.mig with
    | some m => !m.stopBegun
    | none => false)))
/-- The class of the stop in force, 1 B, 2 F, 3 A; 0 for none. A migration's stop is of class F (R436). -/
def Ctx.stopCls (c : Ctx) : Nat :=
  match c.state, c.mig with
  | .quiescing, _ => c.cls
  | .migOut, some m => if m.stopBegun && !m.saved then c.cls else 0
  | _, _ => 0
/-- A context's groups count: it runs, or a class B stop lets its jobs come to their PHASE (R283). -/
def Ctx.counts (c : Ctx) : Bool := c.going || c.stopCls == 1
/-- R320, R282: a queue whose instances are not admitted nor handed iterations. -/
def Queue.stopped (k : Queue) : Bool := k.state == .parked || k.state == .preempted

/-- R314: pending instances that may be admitted now. -/
def Ctx.candidates (c : Ctx) : List Inst :=
  c.insts.filter fun i =>
    i.state == .pending && i.deps.all c.depMet && !(c.queue i.q).stopped &&
      !(c.insts.any fun x => x.state == .pending && x.q == i.q && c.effPri x == c.effPri i && decide (x.order < i.order))
/-- The first of the highest effective priority. -/
def Ctx.bestOf (c : Ctx) (l : List Inst) : Option Inst :=
  l.foldl (fun b i =>
    match b with
    | none => some i
    | some x => if c.effPri x < c.effPri i ∨ (c.effPri x = c.effPri i ∧ i.order < x.order) then some i else some x) none
/-- Whether an instance holds the slice's cores. -/
def IState.holds : IState → Bool
  | .admitted => true
  | .walking => true
  | .draining => true
  | _ => false
/-- The record of an admission (Table 15-4). -/
def admissionRecord (c : Ctx) (h : Nat) : Nat × Nat := (mkQ0 (c.trail.admissions + 1) 0x07 (issUnit 1 0), h)
/-- The next instance for admission; in replay, the one that the next record names (R387). -/
def State.toAdmit (s : State) (cxn : Nat) : Option Inst :=
  let c := s.ctx cxn
  if !c.going ∨ c.insts.any fun i => i.state.holds then none
  else if c.trail.mode = 2 then
    match s.findRecord cxn (sameIssuer (admissionRecord c 0)) with
    | some k =>
      if recType (s.record cxn k).1 = 0x07 then c.candidates.find? fun i => i.handle == bits (s.record cxn k).2 31 0 else c.bestOf c.candidates
    | none => c.bestOf c.candidates
  else c.bestOf c.candidates

/-- A core taken by an instance: one that another context held is cleared first (R21). -/
def Core.takeFor (c : Core) (cxn h g o : Nat) : Core :=
  let c1 := if c.owner = some cxn then c.release else Core.reset
  { c1 with owner := some cxn, member := some (cxn, h, g, o) }
/-- R328: every core of the slice is held. -/
def State.holdCores (s : State) (cxn h : Nat) (gs : List Group) : State :=
  gs.foldl (fun t g => ((List.range g.members.length).zip g.members).foldl (fun t x => t.modCore x.2 (·.takeFor cxn h g.gidx x.1)) t) s

/-- R328: the loads of a core. -/
def Core.load (c : Core) (partw : BitVec 32) (coef : Mem) : Core :=
  { c with partw := partw, coef := coef, coefLost := false, strS := .reset, strV := .reset, strM := .reset, strX := .reset, phst := 0 }

/-- A stage-2 fault of an admission read parks the queue, and the instance stays Admitted (R327). -/
def State.admissionFault (s : State) (cxn : Nat) (i : Inst) (r : FaultRec) : State :=
  ((s.faultRecord cxn i.q { r with handle := i.handle, q := i.q }).modInst cxn i.handle fun x => { x with readFault := true }).parkQueue cxn i.q

/-- The image bytes of a header (R199); none when it has none. -/
def State.readImage (s : State) (cxn : Nat) (i : Inst) (off : Nat) (k : Access) : DevRead :=
  if off = 0 then .ok [] else s.devRead cxn i.gen (i.code + off) 3584 k

/-- R327: each part of the object is read once; RESOLVE issues only a read that faulted. -/
def Inst.readOnce (i : Inst) (k : Nat) (r : DevRead) : DevRead :=
  match aget? i.reads k with
  | some b => .ok b
  | none => r
/-- An instance with a part of its object. -/
def Inst.hasRead (i : Inst) (k : Nat) : DevRead → Inst
  | .ok b => { i with reads := aset i.reads k b }
  | _ => i
/-- R327: the reads of an admitted instance and their checks, the lowest cause first; then its loads (R328). -/
def State.readObject (s : State) (cxn h : Nat) : State :=
  match s.inst? cxn h with
  | none => s
  | some i =>
    let fail := fun (s : State) (low c va : Nat) (r : Option FaultRec) =>
      if low ≠ 0 ∧ low < c then s.faultInst cxn h low
      else match r with
        | some r => s.admissionFault cxn i r
        | none => (s.poisonMet cxn i.gen c va { src := 0, sev := 1, unit := 0, handle := h }).faultInst cxn h c
    let hold := fun (s : State) (dpa : Nat) => (s.modInst cxn h fun x => { x with readFault := true }).parkContext cxn dpa
    let head := i.readOnce 0 (s.devRead cxn i.gen i.code 128 accAdmission)
    match head with
    | .park d => hold s d
    | .fault c va r => fail s (lowest [(decide (i.code % 128 = 0), 24)]) c va r
    | .ok hd =>
      let low := lowest (headerConds hd i.lcnt i.code)
      let deps := i.readOnce 1 (if field hd 15 1 = 0 then .ok [] else s.devRead cxn i.gen (i.code + field hd 52 4) (8 * field hd 15 1) accAdmission)
      let image := i.readOnce 2 (s.readImage cxn i (field hd 48 4) accAdmission)
      if low ≠ 0 ∧ low < 16 then s.faultInst cxn h low
      else
        let s1 := s.modInst cxn h fun x => ((x.hasRead 0 head).hasRead 1 deps).hasRead 2 image
        match deps, image with
        | .park d, _ => hold s1 d
        | _, .park d => hold s1 d
        | .fault c va r, .fault c2 va2 r2 => if c2 < c then fail s1 low c2 va2 r2 else fail s1 low c va r
        | .fault c va r, .ok _ => fail s1 low c va r
        | .ok _, .fault c va r => fail s1 low c va r
        | .ok _, .ok img =>
          if low ≠ 0 then s.faultInst cxn h low
          else
            let c := s.ctx cxn
            let pw := if field hd 8 4 = 0 then c.partd else BitVec.ofNat 32 (field hd 8 4 % (partMask + 1))
            let coef := Mem.write [] 0 img
            let det := nbit (field hd 6 2) 0
            let s1 := i.cores.foldl (fun t n => t.modCore n (·.load pw coef)) s
            s1.modInst cxn h fun x =>
              { x with
                det := det, mode := if det then 1 else if c.trail.mode = 2 then 2 else 0
                counts := (usedLevels hd).map (lvlCount hd i.lcnt), kinds := (usedLevels hd).map (lvlKind hd), partw := pw
                codeOff := (List.range 4).map fun k => field hd (16 + 4 * k) 4
                coefOff := field hd 48 4, rssb := field hd 112 8, readFault := false, reads := [] }

/-- ADMISSION: the unit admits the instance it chooses, when the trail lets it, and reads its object. -/
def State.admitNext (s : State) (cxn : Nat) : State :=
  match s.toAdmit cxn with
  | none => s
  | some i =>
    let q := admissionRecord (s.ctx cxn) i.handle
    match s.gate cxn none q.1 q.2 with
    | .wait s1 => s1
    | .diverged s1 => s1
    | .go s1 _ =>
      let gs := (s1.ctx cxn).formGroups
      let s2 := (s1.modTrail cxn fun t => { t with admissions := t.admissions + 1 }).holdCores cxn i.handle gs
      (s2.modInst cxn i.handle fun x => { x with state := .admitted, groups := gs }).readObject cxn i.handle
def execAdmission (cxn : Nat) (s : State) : Out := .next (s.admitNext cxn)

/-- ADMISSION_LOADS_DONE: the instance is Walking and its groups are in Lockstep (Tables 12-4 and 13-4). -/
def State.loadsDone (s : State) (cxn h : Nat) : State :=
  match s.inst? cxn h with
  | none => s
  | some i =>
    if i.state = .admitted ∧ i.codeOff ≠ [] ∧ !i.readFault then
      let NG := i.groups.length
      let parked := ((s.queue cxn i.q).state == .parked)
      let gs := i.groups.map fun g =>
        let n := i.tuplesOf NG g.gidx
        let g1 := { g with state := if n = 0 then .draining else .lockstep, vcyc := 0, stand := false, tuples := n }
        if parked then g1.pause 2 else g1
      (i.cores.foldl (fun t n => t.modCore n fun c => { c with asking := true, ended := false }) s).modInst cxn h fun x => { x with state := .walking, groups := gs }
    else s
def execAdmissionLoadsDone (cxn h : Nat) (s : State) : Out := .next (s.loadsDone cxn h)

/-! Placement (R332, R333). -/

/-- Ordinals of a group whose cores ask, ascending. -/
def State.askers (s : State) (g : Group) : List Nat :=
  (List.range g.members.length).filter fun o => (s.core (g.members.getD o 0)).asking
/-- The record of a placement. -/
def State.placeRecord (s : State) (g : Group) (o : Nat) : Nat × Nat := (mkQ0 g.vcyc 0x04 (s.issJob (g.members.getD o 0) .S 0), g.nextJ)
/-- The walker of a record: the group of an iteration-placed record. -/
def placedBy (g : Nat) (r : Nat × Nat) : Bool := recType r.1 == 0x04 && !nbit (recIss r.1) 23 && bits (recIss r.1) 20 18 == g
/-- The ordinal the walker is to serve next, if any. -/
def State.placeWant (s : State) (cxn : Nat) (i : Inst) (g : Group) : Option Nat :=
  if !(i.state == .walking || i.state == .draining) || i.counts.isEmpty || g.state == .dissolved || (s.queue cxn i.q).stopped || !(s.ctx cxn).going then none
  else
    let as := s.askers g
    if g.tuples ≤ g.nextJ then as.head?
    else if i.mode = 1 then as.find? (· == g.nextJ % g.members.length)
    else if (s.ctx cxn).trail.mode = 2 then
      match s.findRecord cxn (placedBy g.gidx) with
      | some k => as.find? (· == bits (recIss (s.record cxn k).1) 17 11)
      | none => as.head?
    else as.head?
/-- The ordinal it serves, when the trail lets it say so. -/
def State.placeNext (s : State) (cxn : Nat) (i : Inst) (g : Group) : Option Nat :=
  (s.placeWant cxn i g).filter fun o => decide (g.tuples ≤ g.nextJ) || i.mode == 1 || s.gateOpen cxn (s.placeRecord g o).1 (s.placeRecord g o).2

/-- The group's state once its last tuple is handed out or its members have ended (Table 13-4). -/
def Group.settle (g : Group) (jobs : Bool) : Group :=
  let g1 := if g.tuples ≤ g.nextJ then
      (match g.state with
       | .lockstep => { g with state := .draining }
       | .paused => { g with ret := .draining }
       | _ => g)
    else g
  if g1.state = .draining ∧ !jobs ∧ (List.range g1.members.length).all (fun o => g1.endedMask.getLsbD o) then { g1 with state := .dissolved } else g1
/-- An instance whose walkers have all handed out their last iteration is Draining (Table 12-4); a group that has dissolved counts as arrived at the
open KBAR from then on (R358). -/
def State.settleInst (s : State) (cxn h g : Nat) : State :=
  let s1 := s.modGroup cxn h g fun x => x.settle (x.members.any fun n => (s.core n).job.isSome || (s.core n).placed.isSome)
  let s2 := s1.modInst cxn h fun i =>
    if (i.group? g).any (·.state == .dissolved) ∧ !i.kbarOrder.contains g then { i with kbarOrder := i.kbarOrder ++ [g] } else i
  s2.modInst cxn h fun i => if i.state = .walking ∧ i.groups.all (fun x => decide (x.tuples ≤ x.nextJ)) then { i with state := .draining } else i

/-- ITERATION_PLACED: the walker serves the core of an ordinal: an iteration, or the end of its part (R333). -/
def State.placeIter (s : State) (cxn h g o : Nat) : State :=
  match s.inst? cxn h, s.group? cxn h g with
  | some i, some gr =>
    if s.placeNext cxn i gr ≠ some o then s
    else
      let n := gr.members.getD o 0
      if gr.tuples ≤ gr.nextJ then
        ((s.modCore n fun c => { c with asking := false, ended := true }).modGroup cxn h g fun x => { x with endedMask := setBit x.endedMask o true }).settleInst cxn h g
      else
        let j := gr.nextJ
        let go := fun (s : State) =>
          ((s.modCore n fun c => { c with asking := false, placed := some ((i.tuple i.groups.length g j).2, j) }).modGroup cxn h g fun x => { x with nextJ := j + 1 }).settleInst cxn h g
        if i.mode = 1 then go s
        else
          match s.gate cxn none (s.placeRecord gr o).1 (s.placeRecord gr o).2 with
          | .go s1 _ => go s1
          | .wait s1 => s1
          | .diverged s1 => s1
  | _, _ => s
def execIterationPlaced (cxn h g ord : Nat) (s : State) : Out := .next (s.placeIter cxn h g ord)

/-! Jobs (R334, R335). -/

/-- R335. -/
def Inst.rsspOf (i : Inst) (g o m : Nat) : W64 := BitVec.ofNat 64 ((i.rssb + 2 ^ 19 * (4 * (128 * g + o) + m)) % 2 ^ 55 / 8 * 8)
/-- Registers s1 to s11 of Table 12-3, with taint. -/
def Inst.preload (i : Inst) (g j : Nat) : List (Nat × W64 × Bool) :=
  let t := i.tuple i.groups.length g j
  let free := i.mode != 1
  let lv := fun (l : Nat) => match i.kinds[l]? with
    | none => (0#64, false)
    | some k =>
      if isSpatial k then (BitVec.ofNat 64 (t.1.getD ((i.kinds.take l).filter isSpatial).length 0), free)
      else (BitVec.ofNat 64 (i.counts.getD l 0), false)
  ((List.range 6).map fun l => (l + 1, lv l)) ++
    [(7, BitVec.ofNat 64 j, free), (8, BitVec.ofNat 64 t.2, free), (9, i.argp, false), (10, BitVec.ofNat 64 i.handle, false),
     (11, BitVec.ofNat 64 i.code, false)]
/-- A stream as its job starts; its program counter is a multiple of 4 (R94). -/
def Stream.start (x : Stream) (pre : List (Nat × W64 × Bool)) (pc rssp : W64) (now : Nat) : Stream :=
  { pre.foldl (fun y r => y.ws r.1 r.2.1 r.2.2) x with
    pc := pc &&& ~~~3#64, rssp := rssp, rs := [], spilled := 0, loops := [], lbuf := [], redirect := none, slots := 0, hold := .none, nextIssue := now }
/-- What holds at the start of a job whether its predecessor ended at its rendezvous or with its instance: no channel is configured, no
guard slot resolved, every semaphore 0, MCNT 0, both preload tags invalid and the follow-on queue empty (R149, R153, R157, R166, R222). -/
def Core.fresh (c : Core) : Core :=
  { c with
    chans := c.chans.map Chan.drop, sems := Vector.replicate 32 0, gres := 1, gval := 1, gpend := [], order := .reset
    flagNow := (0, 0), m := { c.m with mcnt := 0, pta := (c.m.pta.1, false), ptb := (c.m.ptb.1, false), follow := [] } }
/-- JOB_START. -/
def State.startJob (s : State) (n : Nat) : State :=
  let c := s.core n
  match c.placed, c.member with
  | some (ti, j), some (cxn, h, g, o) =>
    match s.inst? cxn h with
    | none => s
    | some i =>
      let now := s.now n
      let pre := i.preload g j
      let up := fun (m : Nat) (x : Stream) => x.start pre (BitVec.ofNat 64 (i.code + i.codeOff.getD m 0)) (i.rsspOf g o m) now
      s.setCore n (({ c.fresh with
        placed := none, job := some { cxn := cxn, handle := h, gidx := g, ord := o, i := ti, j := j }
        strS := up 0 c.strS, strV := up 1 c.strV, strM := up 2 c.strM, strX := up 3 c.strX
        shape := shapeReset, ncsr := 0, dbw0 := 0, dbw1 := 0 } : Core).capture now)
  | _, _ => s

/-! The coefficient image after a stop (R293). -/

def accRestore : Access := { acc := 9, r := true }
/-- What an instance takes from its header after a restore: the walk, the code and the spill base, which no hamper holds (log 10). -/
def Inst.fromHeader (i : Inst) (hd : List Byte) : Inst :=
  { i with
    counts := (usedLevels hd).map (lvlCount hd i.lcnt), kinds := (usedLevels hd).map (lvlKind hd)
    codeOff := (List.range 4).map fun k => field hd (16 + 4 * k) 4, coefOff := field hd 48 4, rssb := field hd 112 8 }
/-- The core's image read again, through its instance's header: the state with it loaded, or the fault met. -/
def State.reloadCoef (s : State) (n : Nat) : State × Option (Nat × Nat × Option FaultRec) :=
  match (s.core n).member with
  | none => (s, none)
  | some (cxn, h, _, _) =>
    match s.inst? cxn h with
    | none => (s, none)
    | some i =>
      let lost := fun (s : State) => s.modCore n fun c => { c with coef := [], coefLost := true }
      match s.devRead cxn i.gen i.code 128 accRestore with
      | .fault c va r => (lost s, some (c, va, r))
      | .park d => ((lost s).parkContext cxn d, none)
      | .ok hd =>
        let s := s.modInst cxn h (·.fromHeader hd)
        match s.readImage cxn i (field hd 48 4) accRestore with
        | .ok img => (s.modCore n fun c => { c with coef := Mem.write [] 0 img, coefLost := false }, none)
        | .fault c va r => (lost s, some (c, va, r))
        | .park d => ((lost s).parkContext cxn d, none)

/-! The return from a handler (R169, R318, R443). -/

/-- A fault met before the job goes on is delivered, with the job where it stands (R293, R443). -/
def State.deliver (s : State) (n : Nat) (e : Engine) (f : Option (Nat × Nat × Option FaultRec)) : State :=
  match f with
  | none => s
  | some (c, va, r) => (s.poisonRecord (.job n e) c va).take (.job n e) c va r
/-- JOB_START, on a core whose coefficient image a restore could not read: the image is read again before the job issues. -/
def State.beginJob (s : State) (n : Nat) : State :=
  let s1 := s.startJob n
  if (s1.core n).coefLost && (s1.core n).job.isSome then
    let r := s1.reloadCoef n
    (r.1.deliver n .S r.2).modCore n fun c => { c with stop := c.stop.map fun (x : Stop) => ({ x with cycle := s1.now n - 1 } : Stop) }
  else s1
def execJobStart (core : Nat) (s : State) : Out := .next (s.beginJob core)

/-- Lines of a core's refetch set have still to leave its port. -/
def State.refetchWaits (s : State) (n : Nat) : Bool := s.unsentFor (.job n .X) (· == .refetch)
/-- R443: the refetch set performed before a retry, its group paused while its lines leave the port; a fault is delivered, and what is then
resolved is fetched again. -/
def State.refetchJob (s : State) (n : Nat) : State :=
  let r := s.refetchAll n (s.core n).refetch
  let t := (r.1.modCore n fun c => { c with refetching := r.2.isSome }).deliver n .X r.2
  if t.refetchWaits n then t.pauseCore n 5 else t
/-- A cause met while the job stood stopped is delivered now, before any stream issues (R440); behind another that has come first it waits for
the ERET after. -/
def State.lateMismatch (s : State) (n : Nat) : State :=
  match (s.core n).lateErr, (s.core n).stop with
  | some (c, e), none => (s.modCore n fun k => { k with lateErr := none }).cancelTrap n e c 0 (s.now n)
  | _, _ => s
/-- ERET: `target` is the address of ERET.at. -/
def State.eret (s : State) (target : Option W64) : State :=
  s.queueOnly fun cxn q => s.notInSlot fun s =>
    let k := s.queue cxn q
    match k.hnd, k.handling with
    | true, some n =>
      match (s.core n).stop with
      | none => s.cause 10
      | some st =>
        let s1 := match target with
          | some a => s.resumeAt n st.strm a
          | none => s
        let s2 := (s1.resumeJob n).leaveHandler cxn q
        let r1 := if (s.core n).coefLost then s2.reloadCoef n else (s2, none)
        let s3 := r1.1.deliver n .S r1.2
        if r1.2.isNone ∧ (st.cause = 28 ∨ st.cause = 32 ∨ st.cause = 33 ∨ st.cause = 34 ∨ (s.core n).refetching) then (s3.refetchJob n).lateMismatch n
        else s3.lateMismatch n
    | _, _ => s.cause 10
def execEret (s : State) : Out := .next (s.eret none)
def execEretAt (a : F6) (s : State) : Out := .next (s.eret (some (s.rs a)))

end Sys2Proof.Machine
end

