-- ==== Sys2Proof/Machine/Sync.lean ====
section
/-! DEFINITION. Guard slots, channels, semaphores, copy tags, waits, phases, fences, barriers and the hints (R98, R99, R149 to
R166, R270, R271, R357 to R363). -/
namespace Sys2Proof.Machine

/-- A job-only shared word that issues each cycle (R118). -/
def State.jobWord (s : State) (f : State → Nat → Engine → State) : Out := .next (s.jobOnly fun n e => f s n e)
def State.fin1 (s : State) : State := s.fin 4 1

/-! Guard slots (R149, R150). -/

/-- A resolution or clear joins those on their way: after those of earlier cycles, and of its own cycle after those of streams that do not
come later in the order S, V, M, X; bit 0 is ignored. -/
def Core.noteGuard (c : Core) (cycle : Nat) (e : Engine) (mask : BitVec 16) (res val : Bool) : Core :=
  let early := fun (y : GuardPend) => decide (y.cycle < cycle) || (y.cycle == cycle && decide (y.eng ≤ engNum e))
  { c with gpend := c.gpend.filter early ++ [⟨cycle, engNum e, mask &&& 0xFFFE, res, val⟩] ++ c.gpend.filter fun y => !early y }
/-- Resolutions or clears of slots hold from the next cycle, or from a later one. -/
def State.resolve (s : State) (n : Nat) (e : Engine) (mask : BitVec 16) (res val : Bool) (delay : Nat) : State :=
  s.modCore n fun c => c.noteGuard (s.now n + delay) e mask res val
def oneSlot (g : BitVec 4) : BitVec 16 := 1#16 <<< g.toNat

def execGres (g p : BitVec 4) (s : State) : Out := s.jobWord fun s n e => (s.resolve n e (oneSlot g) true (s.rp p) 1).fin1
def execGset (g : BitVec 4) (v : BitVec 1) (s : State) : Out := s.jobWord fun s n e => (s.resolve n e (oneSlot g) true (v == 1) 1).fin1
def execGmaskT (m : BitVec 16) (s : State) : Out := s.jobWord fun s n e => (s.resolve n e m true true 1).fin1
def execGmaskF (m : BitVec 16) (s : State) : Out := s.jobWord fun s n e => (s.resolve n e m true false 1).fin1
def execGclr (m : BitVec 16) (s : State) : Out := s.jobWord fun s n e => (s.resolve n e m false false 1).fin1

/-- One resolution or clear applied (Table 5-7). -/
def Core.applyGuard (c : Core) (x : GuardPend) : Core :=
  let m := x.mask
  if x.res then { c with gres := c.gres ||| m, gval := if x.val then c.gval ||| m else c.gval &&& ~~~ m }
  else { c with gres := c.gres &&& ~~~ m, gval := c.gval &&& ~~~ m }
/-- The resolutions and clears that hold from a cycle take effect, in their order. -/
def Core.applyGuards (c : Core) (now : Nat) : Core :=
  let c1 := (c.gpend.filter fun x => decide (x.cycle ≤ now)).foldl Core.applyGuard c
  { c1 with gpend := c.gpend.filter fun x => !decide (x.cycle ≤ now) }
/-- GUARD_RESOLUTION_EFFECT: resolutions and clears of earlier cycles take effect, in the order they were made (R150). -/
def execGuardResolutionEffect (core : Nat) (s : State) : Out := .next (s.modCore core (·.applyGuards (s.now core)))

/-! Channels (R153 to R156). -/

def execChcfg (c : BitVec 4) (a b : F6) (s : State) : Out :=
  s.jobWord fun s n _ =>
    let base := W64.f (s.rs a) 31 0
    let size := W64.f (s.rs b) 31 0
    let count := W64.f (s.rs b) 44 32
    let k := s.core n
    s.check [(decide (base % 16 = 0) && decide (size % 16 = 0) && decide (16 ≤ size) && decide (size ≤ 65536) && decide (1 ≤ count)
        && decide (count ≤ 4096) && decide (base + size * count ≤ k.spSize), 10)] fun s =>
      (s.setCore n (k.setChan c.toNat { Chan.reset with cfg := true, base := base, size := size, count := count, epoch := (k.chan c.toNat).epoch + 1 })).fin1

/-- A channel instruction on a configured channel (cause 11). -/
def State.chanWord (s : State) (c : BitVec 4) (f : State → Nat → Chan → State) : Out :=
  s.jobWord fun s n _ =>
    let ch := (s.core n).chan c.toNat
    if ch.cfg then f s n ch else s.cause 11
def State.putChan (s : State) (n : Nat) (c : BitVec 4) (x : Chan) : State := (s.modCore n fun k => k.setChan c.toNat x).fin1

def execChwaitFull (c : BitVec 4) (n : BitVec 12) (s : State) : Out :=
  s.chanWord c fun s _ ch => s.check [(decide (n.toNat ≤ ch.count), 10)] fun s => if n.toNat ≤ ch.avail then s.fin1 else s
def execChwaitFree (c : BitVec 4) (n : BitVec 12) (s : State) : Out :=
  s.chanWord c fun s _ ch => s.check [(decide (n.toNat ≤ ch.count), 10)] fun s => if n.toNat ≤ ch.free then s.fin1 else s
def execChadvCons (c : BitVec 4) (n : BitVec 12) (s : State) : Out :=
  s.chanWord c fun s k ch => s.check [(decide (n.toNat ≤ ch.avail), 45)] fun s =>
    s.putChan k c { ch with cidx := (ch.cidx + n.toNat) % ch.count, filled := ch.filled - n.toNat }
def execChadvProd (c : BitVec 4) (n : BitVec 12) (s : State) : Out :=
  s.chanWord c fun s k ch => s.check [(decide (n.toNat ≤ ch.free), 45)] fun s =>
    s.putChan k c { ch with pidx := (ch.pidx + n.toNat) % ch.count, filled := ch.filled + n.toNat }
def execChrst (c : BitVec 4) (s : State) : Out := s.chanWord c fun s k ch => s.putChan k c ch.clear

/-! Counted semaphores (R157, R158, Table 14-2). -/

def Core.sem (c : Core) (k : Nat) : Nat := (vget c.sems (k % 32) 0).toNat
def Core.setSem (c : Core) (k v : Nat) : Core := { c with sems := c.sems.setIfInBounds (k % 32) (BitVec.ofNat 12 v) }
/-- Another stream of the job waits on the semaphore. -/
def Core.contended (c : Core) (e : Engine) (k : Nat) : Bool :=
  engines.any fun f => f != e && (match (c.str f).hold with
    | .sem j _ => j == k
    | .semDue j _ => j == k
    | _ => false)
/-- A served wait on a semaphore waits for its record (R384). -/
def Core.semPending (c : Core) (k : Nat) : Bool :=
  engines.any fun e => match (c.str e).hold with
    | .semDue j _ => j == k
    | _ => false
/-- A SEMWAIT of stream e is satisfied, when the trail lets it: the count falls and the stream goes on; else it is served in a later clock
cycle, at the same virtual cycle (R384, R387). -/
def State.serveWait (s : State) (n : Nat) (e : Engine) (k m : Nat) : State :=
  let c := s.core n
  let go := fun (s : State) => (s.modCore n fun c => c.setSem k (c.sem k - m)).finish (.job n e) 4 1
  if c.contended e k ∧ !s.detCore n then
    match s.gate (s.cxnOf (.job n e)) (some (.job n e)) (mkQ0 (s.now n) 0x02 (s.issJob n e k)) (m + c.sem k * 65536) with
    | .go s1 _ => go s1
    | .wait s1 => ((s1.modStream (.job n e) fun x => { x with hold := .semDue k m }).standCore n).pauseCore n 0
    | .diverged s1 => (s1.modStream (.job n e) fun x => { x with hold := .semDue k m }).standCore n
  else go s
/-- Held waits that can now be served are, in the order S, V, M, X: none after one whose record waits, unless replay has its own order. -/
def State.serveHeld (s : State) (n k : Nat) : State :=
  engines.foldl (fun t e =>
    match ((t.core n).str e).hold with
    | .sem j m =>
      if j = k ∧ m ≤ (t.core n).sem k ∧ (!(t.core n).semPending k ∨ (t.ctx (t.cxnOf (.job n e))).trail.mode = 2) then t.serveWait n e k m else t
    | _ => t) s

/-- SEMSIG, and the held waits that it lets be served (Table 14-2). -/
def execSemsig (sr : BitVec 5) (n : BitVec 12) (s : State) : Out :=
  s.jobWord fun s k _ =>
    let c := s.core k
    s.check [(decide (c.sem sr.toNat + n.toNat ≤ 4095), 44)] fun s =>
      ((s.setCore k (c.setSem sr.toNat (c.sem sr.toNat + n.toNat))).fin1).serveHeld k sr.toNat
/-- SEMWAIT: served at once when the count suffices and no other stream waits; a held one is served by a SEMSIG (Table 14-2). -/
def execSemwait (sr : BitVec 5) (n : BitVec 12) (s : State) : Out :=
  s.jobWord fun s k e =>
    match (s.stream s.cur).hold with
    | .semDue _ _ => (s.serveWait k e sr.toNat n.toNat).serveHeld k sr.toNat
    | .sem _ _ => s
    | _ =>
      if n.toNat ≤ (s.core k).sem sr.toNat ∧ !(s.core k).contended e sr.toNat then s.serveWait k e sr.toNat n.toNat
      else s.modStream s.cur fun x => { x with hold := .sem sr.toNat n.toNat }

/-! Copy tags (R159 to R161, R270, R271, R363). -/

/-- A wait for every tag of a mask, which ends at its copies' due cycles in every kernel: no record is made of it (R351, Table 14-4). -/
def State.waitTags (s : State) (n : Nat) (mask : W64) : State :=
  if mask &&& ~~~ ((s.core n).tdone true) = 0 then s.fin1 else s
def execTwait (t : F6) (s : State) : Out := s.jobWord fun s n _ => s.waitTags n (1#64 <<< t.toNat)
def execCbwait (a : F6) (s : State) : Out := s.jobWord fun s n _ => s.waitTags n (s.rs a)
def execTtest (p : BitVec 4) (t : F6) (s : State) : Out :=
  s.jobWord fun s n e => s.observe n e 0 (1#64 <<< t.toNat) fun s v x => (s.putP s.cur p.toNat (v.getLsbD t.toNat) x 1).fin1
def execCbtest (p : BitVec 4) (a : F6) (s : State) : Out :=
  s.jobWord fun s n e =>
    let m := s.rs a
    let mt := s.rsT a
    s.observe n e 1 m fun s v x => (s.putP s.cur p.toNat (m &&& ~~~ v == 0) (x || mt) 1).fin1
/-- The lowest set bit, 64 for none. -/
def lowestBit (x : W64) : Nat := ((List.range 64).find? fun k => x.getLsbD k).getD 64
def execTffr (d a : F6) (s : State) : Out :=
  s.jobWord fun s n e =>
    let m := s.rs a
    let mt := s.rsT a
    s.observe n e 2 m fun s v x => s.scalar d (BitVec.ofNat 64 (lowestBit (m &&& v))) (x || mt) 1
/-- XTST (R270). -/
def execXtst (g : Guard) (d a : F6) (s : State) : Out :=
  .next (s.engineOnly fun n e => s.guarded g 4 fun s => s.check [(sOk d && sOk a, 10)] fun s =>
    let t := (s.rs a).toNat % 64
    let at_ := s.rsT a
    s.observe n e 3 (1#64 <<< t) fun s v x =>
      let tag := (s.core n).tag t
      let infl := !v.getLsbD t
      (s.putS s.cur d.toNat (BitVec.ofNat 64 (bitAt infl 0 + bitAt (!infl && tag.fb) 1 + bitAt (!infl && tag.abs) 2))
        (x || at_ || (!infl && tag.fb)) 2).fin1)
/-- A tag after XTCLR: FB and ABS cleared when the mask names it and it is ready. -/
def clearedTag (c : Core) (m : W64) (k : Fin 64) : Tag :=
  if m.getLsbD k.val && !(c.tag k.val).infl then { c.tag k.val with fb := false, abs := false } else c.tag k.val
/-- XTCLR (R271). -/
def execXtclr (g : Guard) (a : F6) (s : State) : Out :=
  .next (s.engineOnly fun n _ => s.guarded g 4 fun s => s.check [(sOk a, 10)] fun s =>
    let m := s.rs a
    (s.modCore n fun c => { c with tags := Vector.ofFn (clearedTag c m) }).fin1)

/-! Waits, phases and fences (R162 to R166). -/

/-- VCWAIT issues in the cycle its stream comes to it. A stream that it has held is free again in the cycle it waits for, and its next
word issues in that cycle (R162; the schedules of chapters 22 to 24). -/
def execVcwait (a : F6) (imm : BitVec 12) (s : State) : Out :=
  s.jobWord fun s n e =>
    if s.now n < (s.rs a + imm.signExtend 64).toNat then s.modStream s.cur fun x => { x with hold := .clock }
    else if (s.stream s.cur).hold = .clock then
      let s1 := s.fin 4 0
      { s1 with agenda := .issue (.job n e) :: s1.agenda }
    else s.fin1

/-- A stream reaches a PHASE of a scope (R63, R163). -/
def State.phase (s : State) (scope : Nat) : Out :=
  s.jobWord fun s n _ =>
    match (s.stream s.cur).hold with
    | .phase _ _ => s
    | _ => s.modStream s.cur fun x => { x with hold := .phase scope (s.now n) }
def execPhaseG (s : State) : Out := s.phase 1
def execPhaseK (s : State) : Out := s.phase 2
def execPhaseX (s : State) : Out := s.phase 3

/-- The stream that issued the access of a pending write (R71, R129). -/
def Core.lsEngine (c : Core) (p : Pend) : Engine :=
  match p.target with
  | .s e _ _ _ => e
  | .a e _ _ _ => e
  | .t e _ _ => e
  | .p e _ _ _ => e
  | .sp e _ _ => e
  | .ldsp e _ _ _ _ => e
  | .poison e _ _ => e
  | .done e => e
  | .await id => ((c.strong.find? fun x => x.id == id).map (·.e)).getD .S
  | _ => .V
/-- A stream's own accesses up to a point join what it comes after (R71, edge 1); X alone issues copies. -/
def Past.own (p : Past) (e : Engine) (seq cycle : Nat) : Past :=
  { ls := p.ls.setIfInBounds (engNum e) seq, cp := if e = .X then cycle else p.cp }
/-- What the next instruction of a stream comes after; of one that a FENCE holds, what that FENCE does. -/
def Core.pastOf (c : Core) (e : Engine) (now : Nat) : Past :=
  let p := vget c.order.known (engNum e) .reset
  match (c.str e).hold with
  | .fence q v => p.own e q v
  | _ => p.own e c.seq now
/-- Nothing on a path of `e` that is ordered before has still to be performed (R83). -/
def Core.fenced (c : Core) (p : Past) (e : BitVec 4) : Bool :=
  (!e.getLsbD 0 || c.pend.all fun x => !x.ls || decide (vget p.ls (engNum (c.lsEngine x)) 0 ≤ x.seq)) &&
    c.copies.all fun x => !e.getLsbD x.form.path || decide (p.cp ≤ x.issue)
/-- FENCE (R83, R164): `l` the later paths, `e` the earlier. -/
def State.fence (s : State) (l e : BitVec 4) : State :=
  if e = 0 ∨ l = 0 ∨ (e = 1 ∧ l = 1) then s.fin1
  else
    match s.cur with
    | .thread _ _ => s.fin1
    | .job n k =>
      let c := s.core n
      if c.fenced (c.pastOf k (s.now n)) e then
        (s.setCore n
          { c with
            snap := if e &&& 0xE ≠ 0 ∧ l.getLsbD 0 then [] else c.snap
            psb := if e.getLsbD 0 then c.psb.map (·.fence l) else c.psb }).fin1
      else s.modStream s.cur fun x => { x with hold := match x.hold with
        | .fence q v => .fence q v
        | _ => .fence c.seq (s.now n) }
def execFence (l e : BitVec 4) (s : State) : Out := .next (s.fence l e)

/-- RDV (R166): the stream's part of the job ends. -/
def execRdv (s : State) : Out :=
  s.jobWord fun s _ _ => s.notInSlot fun s => s.modStream s.cur fun x => { x with hold := .rdv }

/-- IFLUSH (R165): the loop buffer is emptied. The model fetches each other word as it issues, so no more is left to discard. -/
def execIflush (s : State) : Out := .next (s.fin1.modStream s.cur fun z => { z with lbuf := [] })
def execNop (s : State) : Out := .next s.fin1
/-- R98, R99. -/
def execHint (_k : BitVec 4) (_imm : BitVec 24) (s : State) : Out := .next s.fin1

/-! Barriers (R357 to R361). -/

/-- R358, R479: every strong access, atomic and contribution that the job issued before a sequence number has been acknowledged. -/
def Core.strongDone (c : Core) (now seq : Nat) : Bool :=
  c.strong.all fun x => decide (x.id < c.since) || decide (seq ≤ x.id) || (x.done && decide (x.due ≤ now))
/-- The member arrives once the accesses before its barrier are acknowledged. -/
def State.arriveBar (s : State) (n : Nat) (kernel : Bool) (seq : Nat) : State :=
  s.modStream s.cur fun x => { x with hold := if (s.core n).strongDone (s.now n) seq then .bar kernel (s.now n) else .barDue seq }
/-- BAR or KBAR: one that the cancelled attempt had completed completes at once (R360), else it waits for the accesses before it, and the
member arrives and is held. Its guard counts as it issues (R150). -/
def State.barrier (s : State) (g : Guard) (kernel : Bool) : State :=
  match (s.stream s.cur).hold with
  | .bar _ _ => s
  | .barDue q => s.jobOnly fun n _ => s.arriveBar n kernel q
  | _ =>
    s.guarded g 4 fun s => s.jobOnly fun n _ =>
      let c := s.core n
      if 0 < c.rb then (s.setCore n { c with rb := c.rb - 1, rbDone := c.rbDone + 1 }).fin1 else s.arriveBar n kernel c.seq
def execBar (g : Guard) (s : State) : Out := .next (s.barrier g false)
def execKbar (g : Guard) (s : State) : Out := .next (s.barrier g true)

end Sys2Proof.Machine
end

