-- ==== Sys2Proof/Machine/Landing.lean ====
section
/-! DEFINITION. What lands of a job's pending writes (R84, R129, R344, R449), and the end of a job (R166). -/
namespace Sys2Proof.Machine

/-- PENDING_WRITE_LAND: a write lands once its due cycle has come; a poisoned value raises its cause there. -/
def State.land (s : State) (n sq : Nat) : State :=
  let c := s.core n
  match c.pend.find? fun p => p.seq == sq with
  | none => s
  | some p =>
    if s.now n < p.due then s
    else
      let c1 := { c with pend := c.pend.filter fun q => q.seq != sq }
      match p.target with
      | .poison e cause a => (s.setCore n c1).raiseLanding n e cause a
      | .flags fl =>
        let old := if c.flagNow.1 = s.now n then c.flagNow.2 else 0
        s.setCore n { c1.landOne (.flags fl) with flagNow := (s.now n, old ||| BitVec.ofNat 32 fl) }
      | t => s.setCore n (c1.landOne t)
def execPendingWriteLand (core sq : Nat) (s : State) : Out := .next (s.land core sq)

/-! The rendezvous (R166). -/

/-- A pending write of a register, or of the flags, whose landing the rendezvous waits for; an access that writes none is not waited for. -/
def Core.writesRegister (c : Core) (t : PendTarget) : Bool :=
  match t with
  | .sp _ _ _ => false
  | .chan _ _ _ _ _ => false
  | .vldChan _ _ _ _ _ _ => false
  | .expert _ => false
  | .done _ => false
  | .await id => (c.strong.find? fun x => x.id == id).any fun x => x.dst.isSome || x.op == .fill
  | _ => true
/-- All four streams have issued RDV; every tag is ready, every pending register write has landed and the matrix engine has finished. -/
def Core.rdvDone (c : Core) : Bool :=
  c.job.isSome && c.stop.isNone && !c.loading && engines.all (fun e => (c.str e).hold == .rdv)
    && c.copies.isEmpty && !(c.tags.toList.any (·.infl)) && !(c.pend.any fun p => c.writesRegister p.target) && c.m.mmas.isEmpty

/-- The acknowledgement of an access that writes no register. -/
def PendTarget.isAck : PendTarget → Bool
  | .await _ => true
  | .done _ => true
  | _ => false
/-- The state changes that end a job. Its strong stores and contributions that are still on their way are performed after it, and its writes of
scratchpad land. -/
def Core.endJob (c : Core) : Core :=
  let up := fun (x : Stream) => { x with hold := .none, redirect := none, slots := 0, loops := [] }
  { c with
    job := none, asking := true, rp := none, refetch := [], chans := c.chans.map Chan.drop, sems := Vector.replicate 32 0
    gres := 1, gval := 1, gpend := [], order := .reset, m := { c.m with follow := [] }, aredN := [], rb := 0, rbDone := 0
    since := c.seq, strong := c.strong.filter fun x => !x.done, pend := c.pend.filter fun p => !p.target.isAck
    strS := up c.strS, strV := up c.strV, strM := up c.strM, strX := up c.strX }
/-- RENDEZVOUS. -/
def State.rendezvous (s : State) (n : Nat) : State :=
  if (s.core n).rdvDone then
    let s1 := s.modCore n (·.endJob)
    match (s.core n).member with
    | some (cxn, h, g, _) => s1.settleInst cxn h g
    | none => s1
  else s
def execRendezvous (core : Nat) (s : State) : Out := .next (s.rendezvous core)

end Sys2Proof.Machine
end

