-- ==== Sys2Proof/Machine/Matrix.lean ====
section
/-! DEFINITION. The M-private instructions and the array's events (R222 to R248). -/
namespace Sys2Proof.Machine

/-- How an M command ends its attempt to issue. -/
inductive MTry where
  | cause (c : Nat)
  | hold (s : State)
  | done (s : State) (interval : Nat)

/-- An M command in its own word of `len` bytes. -/
def State.mWord (s : State) (len : Nat) (t : MTry) : State :=
  match t with
  | .cause c => s.cause c
  | .hold s' => s'
  | .done s' i => s'.fin len i
/-- A command under its conditions. -/
def mCheck (l : List (Bool × Nat)) (k : MTry) : MTry := if lowest l = 0 then k else .cause (lowest l)
def State.modM (s : State) (n : Nat) (f : MEng → MEng) : State := s.modCore n fun c => { c with m := f c.m }

/-- The operand address of a preload (R232), mapped; a channel with no slot holds the word (R127, R154). -/
def State.preload (s : State) (n : Nat) (a : F6) (put : MEng → BitVec 32 → MEng) : MTry :=
  let c := s.core n
  let base := c.mmaBase a 0
  mCheck [(c.chanOk a, 11), (decide (base % 16 = 0), 24), ((c.window base 16).isSome, 24)]
    (if isChan a ∧ (c.chan (a.toNat - 48)).avail = 0 then .hold s else .done (s.modM n fun m => put m (BitVec.ofNat 32 ((c.window base 16).getD 0))) 1)
def State.tryMlda (s : State) (n : Nat) (a : F6) : MTry := s.preload n a fun m x => { m with pta := (x, true) }
def State.tryMldb (s : State) (n : Nat) (a : F6) : MTry := s.preload n a fun m x => { m with ptb := (x, true) }

/-- R226. -/
def State.tryMldas (s : State) (n : Nat) (a : F6) : MTry :=
  mCheck [(sOk a, 10), (decide ((s.rs a).toNat % 4 = 0), 24)] (.done (s.modM n fun m => { m with sca := (s.rs a).setWidth 32 }) 1)
def State.tryMldbs (s : State) (n : Nat) (a : F6) : MTry :=
  mCheck [(sOk a, 10), (decide ((s.rs a).toNat % 4 = 0), 24)] (.done (s.modM n fun m => { m with scb := (s.rs a).setWidth 32 }) 1)

/-- Bits of MCTL that hold a field (Table 8-2). -/
def mctlMask : W64 := 0x0000FFFFFFFF3FFF
/-- R223. -/
def State.tryMcfg (s : State) (n : Nat) (a : F6) : MTry :=
  mCheck [(sOk a, 10)] (.done (s.modM n fun m => { m with mctl := s.rs a &&& mctlMask }) 1)

/-- R227 to R231. -/
def State.tryMma (s : State) (n : Nat) (x : MmaWord) : MTry :=
  let c := s.core n
  mCheck (c.mmaCauses x) (if c.mmaReady x then .done (s.setCore n (c.mmaAccept x (s.now n))) 1 else .hold s)

/-- R235: a join waits, with the scalars it has read, until no MMA is accepted. -/
def State.join (s : State) (n : Nat) (x y : W64) (causes : W64 → W64 → List (Bool × Nat))
    (work : State → W64 → W64 → State × Nat) : MTry :=
  match (s.core n).strM.hold with
  | .join x y =>
    if (s.core n).m.mmas.isEmpty then
      let r := work s x y
      .done r.1 r.2
    else .hold s
  | _ =>
    mCheck (causes x y)
      (if (s.core n).m.mmas.isEmpty then
        let r := work s x y
        .done r.1 r.2
      else .hold (s.modStream (.job n .M) fun z => { z with hold := .join x y }))

/-- R236. -/
def State.tryMzero (s : State) (n : Nat) : MTry :=
  s.join n 0 0 (fun _ _ => []) fun s _ _ => (s.modM n fun m => { m with cells := [], cellT := [] }, 1)

/-- Pool offset of accumulator storage. -/
def Core.accBase (c : Core) : Nat := 65536 * c.vg
/-- R237: n rows to storage at o, and the rows below moved up. -/
def Core.shiftOut (c : Core) (o n : Nat) : Core :=
  let base := c.accBase + o
  { c with
    pool := c.pool.write base (c.m.cells.read 0 (512 * n))
    poolT := (List.range (128 * n)).foldl (fun z k => z.mk (base / 4 + k) (c.m.cellT.has k)) c.poolT
    m := { c.m with
      cells := (c.m.cells.filter fun x => decide (512 * n ≤ x.1)).map fun x => (x.1 - 512 * n, x.2)
      cellT := (c.m.cellT.filter fun k => decide (128 * n ≤ k)).map fun k => k - 128 * n } }
def State.tryMshift (s : State) (n : Nat) (d a : F6) : MTry :=
  s.join n (s.rs d) (s.rs a)
    (fun o k => [(sOk d && sOk a, 10), (decide (1 ≤ k.toNat) && decide (k.toNat ≤ 128), 10), (decide (o.toNat % 512 = 0), 24),
      (decide (o.toNat + 512 * k.toNat ≤ 65536 * (s.core n).ag), 10)])
    fun s o k => (s.modCore n (·.shiftOut o.toNat k.toNat), k.toNat)

/-- Bytes an MSPILL writes (R238), with taint. -/
def Core.spillBytes (c : Core) (d : W64) (now : Nat) : List (Byte × Bool) :=
  if d.getLsbD 63 then
    let rows := W64.f d 55 48 + 1
    let a0 := c.accBase + 512 * W64.f d 47 32
    (List.range (512 * rows)).map fun k => (c.pool.get (a0 + k), c.poolT.has ((a0 + k) / 4))
  else
    let img := c.m.image now false
    (List.range 67712).zip img |>.map fun x => (x.2, decide (128 ≤ x.1) && decide (x.1 < 65664) && c.m.cellT.has ((x.1 - 128) / 4))
/-- Bytes and cycles of an MSPILL (Table 8-4). -/
def spillSize (d : W64) : Nat × Nat :=
  if d.getLsbD 63 then (512 * (W64.f d 55 48 + 1), cdiv (W64.f d 55 48 + 1) 2) else (67712, 67)
/-- The address in bits 31 to 0 of a scalar, mapped for an access of n bytes (R167). -/
def Core.mapped (c : Core) (x : W64) (n : Nat) : W64 := BitVec.ofNat 64 ((c.window (W64.f x 31 0) n).getD 0)
/-- A write of scratchpad on its way without the bytes that n bytes at a cover. -/
def PendTarget.without (t : PendTarget) (a n : Nat) : PendTarget :=
  let cut := fun (b : Nat) (bs : List (Byte × Bool)) =>
    if a + n ≤ b ∨ b + bs.length ≤ a then (b, bs) else if b < a then (b, bs.take (a - b)) else (max b (a + n), bs.drop (a + n - b))
  match t with
  | .sp e b bs => let x := cut b bs; .sp e x.1 x.2
  | .chan k sq ep b bs => let x := cut b bs; .chan k sq ep x.1 x.2
  | t => t
/-- MSPILL's bytes, which no write of a stream from before it lands over (R84). -/
def Core.spill (c : Core) (a : Nat) (bs : List (Byte × Bool)) : Core :=
  { c.spWrite a bs with pend := c.pend.map fun p => { p with target := p.target.without a bs.length } }
/-- R238. The address is mapped at issue (R167). The bytes are written at x, the first cycle of the D in which R238 lets them be
written, by the model's choice (log 37). -/
def State.tryMspill (s : State) (n : Nat) (d : F6) : MTry :=
  let c := s.core n
  s.join n (s.rs d) (c.mapped (s.rs d) (spillSize (s.rs d)).1)
    (fun x _ => [(sOk d, 10), (decide (W64.f x 31 0 % 16 = 0), 24), ((c.window (W64.f x 31 0) (spillSize x).1).isSome, 24),
      (!x.getLsbD 63 || decide ((W64.f x 47 32 + W64.f x 55 48 + 1) * 512 ≤ 65536 * c.ag), 10)])
    fun s x y => (s.modCore n fun c => c.spill y.toNat (c.spillBytes x (s.now n)), (spillSize x).2)

/-- The image at a mapped address, with the writes of streams on their way (R84). -/
def Core.fillImage (c : Core) (y : W64) : List Byte := bytesOf (c.spAhead.spRead y.toNat 67712)
/-- D of an MFILL (Table 8-4). Where descriptor 0 waits for its first step and none runs, the form for a running MMA is taken, as for every NMMA of
1 and more (DESIGN CHOICE, log 37). -/
def fillTime (bs : List Byte) : Nat :=
  match imageMmas bs 0 fun _ => 0 with
  | [] => 67
  | m :: _ => 72 + m.tau * (m.fstep - (m.fstep + 1 - groupOf m.prof m.ku / m.ku)) + m.fph
/-- R244. The address is mapped at issue (R167). The image is checked as it stands at issue and loaded as it stands at x, by the
model's choice (log 37). -/
def State.tryMfill (s : State) (n : Nat) (a : F6) : MTry :=
  let c := s.core n
  s.join n (s.rs a) (c.mapped (s.rs a) 67712)
    (fun x y =>
      let there := decide (W64.f x 31 0 % 16 = 0) && (c.window (W64.f x 31 0) 67712).isSome
      [(sOk a, 10), (there, 24), (!there || c.imageOk (c.fillImage y), 10)])
    fun s _ y =>
      let bs := (s.core n).fillImage y
      let at_ := s.now n + fillTime bs
      (s.modM n fun m => { m.load bs with mmas := (imageMmas bs at_ fun _ => 0).map fun y => { y with ach := none, bch := none } }, fillTime bs)

/-- R239. -/
def State.tryMstat (s : State) (n : Nat) (d : F6) : MTry :=
  s.join n 0 0 (fun _ _ => [(sOk d, 10)]) fun s _ _ =>
    let m := (s.core n).m
    (s.addPend n 1 false (.s .M d.toNat (BitVec.ofNat 64 (m.mcnt.toNat + bitAt (!m.cellT.isEmpty) 16)) false), 1)

/-- An M word: of an engine only, guarded. -/
def State.mExec (s : State) (g : Guard) (len : Nat) (t : State → Nat → MTry) : Out :=
  .next (s.engineOnly fun n _ => s.guarded g len fun s => s.mWord len (t s n))

def execMlda (g : Guard) (a : F6) (_p : BitVec 1) (s : State) : Out := s.mExec g 4 fun s n => s.tryMlda n a
def execMldb (g : Guard) (a : F6) (_p : BitVec 1) (s : State) : Out := s.mExec g 4 fun s n => s.tryMldb n a
def execMldas (g : Guard) (a : F6) (s : State) : Out := s.mExec g 4 fun s n => s.tryMldas n a
def execMldbs (g : Guard) (a : F6) (s : State) : Out := s.mExec g 4 fun s n => s.tryMldbs n a
def execMma (g : Guard) (a b : F6) (p z : BitVec 1) (prof : BitVec 4) (fa fb : BitVec 5) (km1 : BitVec 14) (s : State) : Out :=
  s.mExec g 8 fun s n => s.tryMma n ⟨s.wordD (.job n .M), a, b, p, z, prof, fa, fb, km1⟩
def execMzero (g : Guard) (s : State) : Out := s.mExec g 4 fun s n => s.tryMzero n
def execMshift (g : Guard) (d a : F6) (s : State) : Out := s.mExec g 4 fun s n => s.tryMshift n d a
def execMspill (g : Guard) (d : F6) (s : State) : Out := s.mExec g 4 fun s n => s.tryMspill n d
def execMfill (g : Guard) (a : F6) (s : State) : Out := s.mExec g 4 fun s n => s.tryMfill n a
def execMcfg (g : Guard) (a : F6) (s : State) : Out := s.mExec g 4 fun s n => s.tryMcfg n a
def execMstat (g : Guard) (d : F6) (s : State) : Out := s.mExec g 4 fun s n => s.tryMstat n d

/-! Follow-on commands (R240). -/

/-- A posted command's guard and what it does; another kind raises cause 10. -/
def State.followCmd (s : State) (n : Nat) (w p : W32) : Guard × MTry :=
  match decodeM w p with
  | .ok (.mlda g a _) => (g, s.tryMlda n a)
  | .ok (.mldb g a _) => (g, s.tryMldb n a)
  | .ok (.mldas g a) => (g, s.tryMldas n a)
  | .ok (.mldbs g a) => (g, s.tryMldbs n a)
  | .ok (.mcfg g a) => (g, s.tryMcfg n a)
  | .ok (.mzero g) => (g, s.tryMzero n)
  | .ok (.mma g a b p z prof fa fb km1) => (g, s.tryMma n ⟨fld w 14 6, a, b, p, z, prof, fa, fb, km1⟩)
  | .ok _ => (0, .cause 10)
  | .error r => (r.guard, .cause r.cause)

/-- The oldest command leaves the queue. -/
def State.popFollow (s : State) (n : Nat) : State := s.modM n fun m => { m with follow := m.follow.drop 1 }

/-- R240: MWAITF executes the oldest posted command in its own place. A posted join that has issued and waits is past its guard (R150). -/
def State.mwaitf (s : State) (n : Nat) : State :=
  match (s.core n).m.follow with
  | [] => s
  | (w, p, posted) :: _ =>
    if s.now n ≤ posted then s
    else
    let r := s.followCmd n w p
    let go := match r.2 with
      | .cause c => s.cause c
      | .hold s' => s'
      | .done s' i => (s'.popFollow n).fin 4 i
    let waits : Bool := match (s.core n).strM.hold with
      | .join _ _ => true
      | _ => false
    if r.1 == 0 || r.1 == 16 || waits then go
    else
      let c := s.core n
      if !c.gres.getLsbD (r.1.toNat % 16) then s
      else if c.gval.getLsbD (r.1.toNat % 16) = decide (16 ≤ r.1.toNat) then go
      else (s.popFollow n).fin 4 1
def execMwaitf (g : Guard) (s : State) : Out :=
  .next (s.engineOnly fun n _ => s.guarded g 4 fun s => s.mwaitf n)

/-! The array's events (R231, R235, R344). -/

/-- MMA_START: step 0 of every accepted MMA whose cycle has come. -/
def execMmaStart (core : Nat) (s : State) : Out :=
  .next (s.modM core fun m => { m with mmas := m.mmas.map fun x => if x.start ≤ s.now core then { x with started := true } else x })
/-- ARRAY_STEP: the array advances by one virtual cycle (R231), unless the cycle has come to stand. -/
def execArrayStep (core : Nat) (s : State) : Out :=
  .next (if ((s.groupOf core).map (·.stand)).getD false then s
    else (s.setCore core ((s.core core).arrayCycle (s.now core))).perf (s.cxnOf (.job core .M)) 2 ((s.core core).stepsAt (s.now core)))
/-- MMA_FIN: the oldest MMA finishes (R228, R231). -/
def execMmaFin (core : Nat) (s : State) : Out := .next (s.setCore core ((s.core core).mmaFin (s.now core)))

/-- The join at the head of a core's M stream goes on. -/
def State.joinHead (s : State) (n : Nat) : State :=
  let s1 := { s with cur := .job n .M }
  match s1.headAt s1.cur (s1.stream s1.cur).pc.toNat with
  | .instr (.mzero _) _ => s1.mWord 4 (s1.tryMzero n)
  | .instr (.mshift _ d a) _ => s1.mWord 4 (s1.tryMshift n d a)
  | .instr (.mspill _ d) _ => s1.mWord 4 (s1.tryMspill n d)
  | .instr (.mfill _ a) _ => s1.mWord 4 (s1.tryMfill n a)
  | .instr (.mstat _ d) _ => s1.mWord 4 (s1.tryMstat n d)
  | .instr (.mwaitf _) _ => s1.mwaitf n
  | _ => s
/-- JOIN_START: a join that waited for the array begins once the last MMA has finished (R235). -/
def execJoinStart (core : Nat) (s : State) : Out :=
  .next (match (s.core core).strM.hold with
    | .join _ _ => if (s.core core).m.mmas.isEmpty then s.joinHead core else s
    | _ => s)

end Sys2Proof.Machine
end

