-- ==== Sys2Proof/Machine/Group.lean ====
section
/-! DEFINITION. Groups: commits (R64, R65, R74, R87, R406), phase boundaries (R63, R64, R350), barriers (R357 to R361), the virtual
cycle (R343 to R346) and the completion of an instance (R339). -/
namespace Sys2Proof.Machine

/-! Commits. -/

/-- One buffered byte with what R406 and R74 need of it: byte, core, virtual address, engine, and its place in the core's order. -/
structure Buffered where
  byte : Byte
  core : Nat
  va : Nat
  eng : Engine
  seq : Nat
deriving DecidableEq, Repr
/-- A line as it is committed: buffered bytes by offset, taint of each part (R59), whether its page is deterministic. -/
structure CommitLine where
  loc : Phys
  bytes : List (Nat × Buffered)
  taint : BitVec 4
  det : Bool
deriving DecidableEq, Repr

/-- The same place, whichever leaf it was reached through. -/
def Phys.same (p q : Phys) : Bool :=
  match p, q with
  | .hbm d _, .hbm e _ => d == e
  | p, q => p == q
/-- Order of commit: local lines, then peers, then the host, each by address (R87). -/
def Phys.key : Phys → Nat × Nat × Nat
  | .hbm d _ => (0, 0, d)
  | .view d => (0, 1, d)
  | .peer dev a => (1, dev, a)
  | .host a => (2, 0, a)
def Phys.before (p q : Phys) : Bool :=
  decide (p.key.1 < q.key.1) || (p.key.1 == q.key.1 && (decide (p.key.2.1 < q.key.2.1) || (p.key.2.1 == q.key.2.1 && decide (p.key.2.2 ≤ q.key.2.2))))
def Phys.isLocal : Phys → Bool
  | .hbm _ _ => true
  | .view _ => true
  | _ => false

/-- A line of a core, ready to merge. -/
def PsbLine.toCommit (n : Nat) (l : PsbLine) : CommitLine :=
  { loc := l.loc, taint := l.taint, det := l.det
    bytes := (List.range 64).filterMap fun k =>
      if l.mask.getLsbD k then some (k, ⟨l.byte k, n, l.va + k, ((aget? l.writer k).getD (.S, 0)).1, ((aget? l.writer k).getD (.S, 0)).2⟩) else none }
/-- R74, R59: a line of a member of higher rank joins, whose bytes win, or one of the same core by another address, of which the later byte
wins; the parts' taints are ORed. -/
def mergeLine (acc : List CommitLine) (x : CommitLine) : List CommitLine :=
  if acc.any fun y => y.loc.same x.loc then
    acc.map fun y => if y.loc.same x.loc then
      { x with bytes := x.bytes.foldl (fun l b => if (aget? l b.1).any fun o => o.core == b.2.core && decide (b.2.seq < o.seq) then l else aset l b.1 b.2) y.bytes, taint := y.taint ||| x.taint, det := y.det || x.det } else y
  else acc ++ [x]
/-- Runs of consecutive offsets. -/
def runsOf : List (Nat × Byte) → List (Nat × List Byte)
  | [] => []
  | (o, b) :: l =>
    match runsOf l with
    | (o2, bs) :: rest => if o + 1 = o2 then (o, b :: bs) :: rest else (o, [b]) :: (o2, bs) :: rest
    | [] => [(o, [b])]

/-- A part refused to a core (R406): its lowest virtual address there, and the engine whose byte the commit took. -/
structure RefusedPart where
  core : Nat
  va : Nat
  eng : Engine
deriving DecidableEq, Repr

/-- The bytes of one part of a line committed, or refused by a peer. The part's mixed-size tag is cleared (R80). -/
def State.commitPart (s : State) (cxn h : Nat) (x : CommitLine) (k : Nat) : State × List RefusedPart :=
  let bs := x.bytes.filter fun b => b.1 / 16 == k
  match bs with
  | [] => (s, [])
  | _ =>
    if s.refused cxn (x.loc.add (16 * k)) true false then
      (s, ((bs.map (·.2.core)).eraseDups).filterMap fun n => (bs.find? fun b => b.2.core == n).map fun b => ⟨n, b.2.va, b.2.eng⟩)
    else
      let t := x.taint.getLsbD k
      let s1 := (runsOf (bs.map fun y => (y.1, y.2.byte))).foldl (fun z r => (z.physWrite cxn (x.loc.add r.1) (tainted t r.2)).plainWrote cxn (x.loc.add r.1) r.2.length) s
      let s2 := match (x.loc.add (16 * k)).part with
        | some part => s1.dropMix part
        | none => s1
      (if t && x.det then s2.modInst cxn h fun i => { i with tnt := true } else s2, [])
def State.commitLine (s : State) (cxn h : Nat) (x : CommitLine) : State × List RefusedPart :=
  (List.range 4).foldl (fun a k =>
    let r := a.1.commitPart cxn h x k
    (r.1, a.2 ++ r.2)) (s, [])
/-- R64, R87: the buffered stores of cores given in rank order; those to peers and the host only when `far`. -/
def State.commitAll (s : State) (cxn h : Nat) (cores : List Nat) (far : Bool) : State × List RefusedPart :=
  let ls := cores.foldl (fun acc n => ((s.core n).psb.filter fun l => l.loc.isLocal || far).foldl (fun acc l => mergeLine acc (l.toCommit n)) acc) []
  let s1 := cores.foldl (fun t n => ((s.core n).psb).foldl (fun t l => match l.loc with
    | .hbm _ leaf => t.setDirty cxn leaf
    | _ => t) t) s
  let s1 := cores.foldl (fun t n => ((t.core n).psb.filter fun l => l.loc.isLocal || far).foldl (fun t l => t.requests (.job n .S) 0 [] (.value (t.now n)) [(1, l.loc.dest)] [(l.loc, 64, true)]) t) s1
  (ls.mergeSort fun x y => x.loc.before y.loc).foldl (fun a x =>
    let r := a.1.commitLine cxn h x
    (r.1, a.2 ++ r.2)) (s1, [])

/-- R204: a core's increments are committed. -/
def Ctx.addExpert (c : Ctx) (incs : List (Nat × Bool × Nat)) : Ctx :=
  { c with
    ectr := incs.foldl (fun l x => aset l x.1 (((aget? l x.1).getD 0) + BitVec.ofNat 64 x.2.2)) c.ectr
    ectrT := incs.foldl (fun l x => if x.2.1 then l.add x.1 else l) c.ectrT }
/-- A core's increments of its phase, those on their way among them (R204). -/
def Core.increments (c : Core) : List (Nat × Bool × Nat) :=
  c.epend ++ c.pend.flatMap fun p => match p.target with
    | .expert incs => incs
    | _ => []
/-- A core as a boundary releases it: committed lines and the snapshot are gone, the increments committed. -/
def State.clearPhase (s : State) (cxn : Nat) (far : Bool) (n : Nat) : State :=
  let c := s.core n
  (s.modCtx cxn (·.addExpert c.increments)).setCore n
    { c with
      pend := c.pend.filter fun p => match p.target with
        | .expert _ => false
        | _ => true
      psb := if far then [] else c.psb.filter fun l => !l.loc.isLocal, psbFull := false, snap := [], epend := [] }

/-! Boundaries (R63, R64, R350, R479). -/

/-- The next virtual cycle to proceed. -/
def Group.nxt (g : Group) : Nat := if g.stand then g.vcyc else g.vcyc + 1

def Hold.scope : Hold → Nat
  | .phase k _ => k
  | _ => 0
/-- The widest scope of the boundary at which a core has arrived; 0 for a core that has ended its part; none otherwise. -/
def State.arrival (s : State) (n : Nat) : Option Nat :=
  let c := s.core n
  if c.job.isNone then (if c.ended && c.placed.isNone then some 0 else none)
  else
    let k := engines.foldl (fun m e => max m (c.str e).hold.scope) 0
    if c.stop.isNone && !c.loading && decide (0 < k) && engines.all (fun e => (c.str e).hold == .rdv || decide (0 < (c.str e).hold.scope))
      && c.pend.all (fun p => !p.ls || decide (p.seq < c.since)) && c.strongDone (s.now n) c.seq then some k else none
/-- The scope at which every member of a group has arrived; none while the cycle of an arrival has still to be gone through again (R350). -/
def State.groupArrival (s : State) (g : Group) : Option Nat :=
  if g.state = .dissolved then some 0
  else if g.redo then none
  else g.members.foldl (fun a n => match a, s.arrival n with
    | some k, some m => some (max k m)
    | _, _ => none) (some 0)
/-- A group that may release: it counts, or stands only for what has not arrived or for other groups. -/
def Group.mayRelease (g : Group) : Bool :=
  match g.state with
  | .lockstep => true
  | .draining => true
  | .paused => g.prsn &&& 0xF6 == 0
  | .dissolved => true
  | .forming => false
/-- Every buffered store of a core can reach its place (R435). -/
def State.storesLinked (s : State) (n : Nat) : Bool := (s.core n).psb.all fun l => s.linked l.loc
/-- The groups that a boundary of group g releases now, with its scope; none while arrivals are missing. -/
def State.boundary (s : State) (i : Inst) (g : Group) : Option (List Group × Nat) :=
  match s.groupArrival g with
  | none => none
  | some 0 => none
  | some 1 => if g.mayRelease then some ([g], 1) else none
  | some k =>
    let as := i.groups.map s.groupArrival
    let scope := as.foldl (fun m a => max m (a.getD 0)) k
    if as.all (fun a => match a with
        | some m => m != 1
        | none => false) && i.groups.all (·.mayRelease) && (scope != 3 || i.cores.all s.storesLinked) then
      some (i.groups.filter (·.state != .dissolved), scope)
    else none

/-- R167: CUR of an enabled window changes sides. -/
def dbwSwap (w : W64) : W64 := if w.getLsbD 63 then w ^^^ 0x4000000000000000 else w
/-- A stream whose PHASE, BAR or KBAR completes at cycle w. -/
def Stream.complete (x : Stream) (w : Nat) : Stream := { x.advance 4 with hold := .none, nextIssue := w + 1 }
/-- PHST.PCNT counts a boundary (R64). -/
def Core.countPhase (c : Core) : Core := { c with phst := (c.phst &&& 0xFFFF0000) ||| BitVec.ofNat 32 ((c.phst.toNat + 1) % 65536) }
/-- The job of a core passes its boundary at cycle w: PCNT, the swap, the PHASE instructions, the restart point (R64, R167, R441), and every stream after it
comes after all that stood before it (R71). -/
def Core.passPhase (c : Core) (w : Nat) : Core :=
  let up := fun (x : Stream) => if 0 < x.hold.scope then x.complete w else x
  let c1 := { c.countPhase with
    dbw0 := dbwSwap c.dbw0, dbw1 := dbwSwap c.dbw1
    order := { c.order with known := Vector.replicate 4 { ls := Vector.replicate 4 c.seq, cp := w + 1 } }
    strS := up c.strS, strV := up c.strV, strM := up c.strM, strX := up c.strX }
  (c1.noteRefetch).capture w
def State.passGroup (s : State) (cxn h : Nat) (g : Group) : State :=
  let b := (s.ctx cxn).state == .quiescing && (s.ctx cxn).cls == 1
  (g.members.foldl (fun t n =>
    if (t.core n).job.isSome then
      t.modCore n fun c => let c1 := c.passPhase g.nxt; if b then { c1 with stopClass := max c1.stopClass 1 } else c1
    else t.modCore n (·.countPhase)) s).modGroup cxn h g.gidx (·.unpause 3)

/-- PHASE_RELEASE: everything a release does in one step; a class B stop takes each job here (R283). A refused store raises cause 19 once its PHASE has completed (R406). -/
def State.releasePhase (s : State) (cxn h g : Nat) : State :=
  match s.inst? cxn h, s.group? cxn h g with
  | some i, some gr =>
    match s.boundary i gr with
    | none => s
    | some (gs, scope) =>
      let far := scope == 3
      let cores := if scope = 1 then gr.members else i.cores
      let r := s.commitAll cxn h cores far
      let s1 := if scope = 1 then r.1 else r.1.closeSlots cxn h
      let s2 := gs.foldl (fun t x => t.passGroup cxn h x) ((cores.foldl (fun t n => t.clearPhase cxn far n) s1).joinMarks cxn cores)
      (r.2.mergeSort fun x y => decide (x.va ≤ y.va)).foldl (fun t x => if (t.core x.core).job.isSome then t.trapJob x.core x.eng 19 (x.va / 16 * 16) else t) s2
  | _, _ => s
def execPhaseRelease (cxn h g : Nat) (s : State) : Out := .next (s.releasePhase cxn h g)

/-! Barriers (R357 to R361, R375). -/

/-- A member has arrived at the open generation of a BAR or KBAR: some true with its stream held there, some false when it has
ended its part. -/
def State.barArrival (s : State) (kernel : Bool) (n : Nat) : Option Bool :=
  let c := s.core n
  if c.job.isNone then (if c.ended && c.placed.isNone then some false else none)
  else
    match c.strS.hold with
    | .bar k _ => if k == kernel && c.stop.isNone && !c.loading then some true else none
    | _ => none
def State.groupAtBar (s : State) (kernel : Bool) (g : Group) : Option Bool :=
  if g.state = .dissolved then some false
  else if g.redo then none
  else g.members.foldl (fun a n => match a, s.barArrival kernel n with
    | some k, some m => some (k || m)
    | _, _ => none) (some false)
/-- The barrier that releases for group g: its groups, and whether it is a KBAR. -/
def State.barrierReady (s : State) (i : Inst) (g : Group) : Option (List Group × Bool) :=
  if s.groupAtBar false g = some true ∧ g.mayRelease then some ([g], false)
  else if s.groupAtBar true g = some true ∧ i.groups.all (fun x => (s.groupAtBar true x).isSome && x.mayRelease) then
    some (i.groups.filter (·.state != .dissolved), true)
  else none
def Core.passBar (c : Core) (w : Nat) : Core :=
  match c.strS.hold with
  | .bar _ _ => { c with strS := c.strS.complete w, rbDone := c.rbDone + 1 }
  | _ => c
/-- A release of groups, of whose instance `cores` have taken part (R358, R359). -/
def State.passBarriers (s : State) (cxn h : Nat) (gs : List Group) (cores : List Nat) : State :=
  gs.foldl (fun t g => (g.members.foldl (fun t n => t.modCore n (·.passBar g.nxt)) t).modGroup cxn h g.gidx (·.unpause 3)) (s.joinMarks cxn cores)
/-- The record of a KBAR release: every group of the instance (R330), in the order in which they completed their arrivals (Table 14-4). -/
def Inst.kbarRecord (i : Inst) : Nat × Nat :=
  let late := (i.groups.map (·.gidx)).filter fun g => !i.kbarOrder.contains g
  let order := i.kbarOrder ++ late
  (mkQ0 i.kbarGen 0x03 (issUnit 1 0),
   i.handle * 2 ^ 32 + i.groups.length * 2 ^ 24 + ((List.range order.length).zip order).foldl (fun a x => a + x.2 % 8 * 2 ^ (3 * x.1)) 0)
/-- BARRIER_RELEASE: a KBAR's release waits for space for its record while the trail records (R384); replay skips the record. -/
def State.releaseBarrier (s : State) (cxn h g : Nat) : State :=
  match s.inst? cxn h, s.group? cxn h g with
  | some i, some gr =>
    match s.barrierReady i gr with
    | none => s
    | some (gs, false) => s.passBarriers cxn h gs gr.members
    | some (gs, true) =>
      let t := (s.ctx cxn).trail
      let q := i.kbarRecord
      if t.mode = 1 ∧ (t.full ∨ t.held ≠ []) then s.trailStall cxn q.1 q.2
      else
        let s1 := if t.mode = 1 then (s.writeRecord cxn q.1 q.2).modTrail cxn (·.dropWait q.1 q.2) else s
        (s1.passBarriers cxn h gs i.cores).modInst cxn h fun x =>
          { x with kbarGen := x.kbarGen + 1, kbarOrder := (x.groups.filter (·.state == .dissolved)).map (·.gidx) }
  | _, _ => s
def execBarrierRelease (cxn h g : Nat) (s : State) : Out := .next (s.releaseBarrier cxn h g)

/-! The virtual cycle (R343, R344). -/

/-- A strong access of a core that has not been performed and is due by cycle w. -/
def Core.owes (c : Core) (w : Nat) : Bool := c.strong.any fun x => !x.done && decide (x.due ≤ w)
/-- R344: what is due at cycle w is not all present (PRSN bit 0). -/
def State.notPresent (s : State) (cxn : Nat) (g : Group) (w : Nat) : Bool :=
  !(s.ctx cxn).trail.held.isEmpty || g.members.any fun n => (s.core n).owes w || (s.core n).stop.any (·.waitsCancel)
    || (s.unsentFor (.job n .S) fun k => match k with
      | .value d => decide (d ≤ w)
      | _ => false)
    || (s.core n).copies.any fun x => s.copyBlocks n x w
/-- An instruction that accesses context memory as it issues, or translates its footprint (R196, R272, R348). -/
def translates : Instr → Bool
  | .ld _ _ _ _ | .ldu _ _ _ _ | .st _ _ _ _ | .call _ | .ret | .vldm _ _ _ | .vstm _ _ _ _ | .ldS _ _ _ _ _ | .stS _ _ _ _ | .aredOrd _ _ _
  | .atadd _ _ _ _ _ | .atand _ _ _ _ _ | .ator _ _ _ _ _ | .atxor _ _ _ _ _ | .atmin _ _ _ _ _ | .atmax _ _ _ _ _ | .atminu _ _ _ _ _
  | .atmaxu _ _ _ _ _ | .atswp _ _ _ _ _ | .atcas _ _ _ _ _ | .atcas16 _ _ _ _ | .atfadd _ _ _ _ | .xcopy _ _ _ _ _ _ _ _ _
  | .xfill _ _ _ _ _ _ _ _ _ | .xdrain _ _ _ _ _ _ _ _ _ | .xgath _ _ _ _ | .xscat _ _ _ _ | .xallred _ _ _ _ _ _ _ _
  | .xallgath _ _ _ _ _ _ _ _ | .xredscat _ _ _ _ _ _ _ _ | .xall2all _ _ _ _ _ _ _ _ | .xfetch _ _ _ _ _ _ | .xfetchTry _ _ _ _ _ _
  | .xpref _ _ _ => true
  | _ => false
/-- A stream of a core that comes to its turn at cycle w. -/
def State.issuesAt (s : State) (n w : Nat) (e : Engine) : Bool :=
  let c := s.core n
  c.job.isSome && c.stop.isNone && !c.loading && !c.retrans && decide ((c.str e).nextIssue ≤ w) && (match (c.str e).hold with
    | .phase _ _ => false
    | .rdv => false
    | _ => true)
/-- A value of memory that is due at cycle w, or an instruction word, may have still to arrive. -/
def State.mayBeLate (s : State) (g : Group) (w : Nat) : Bool :=
  g.members.any fun n => (s.core n).pend.any (fun p => p.ls && decide (p.due ≤ w)) || engines.any (s.issuesAt n w)
/-- An access that issues at cycle w may have its walk to wait for. -/
def State.mayWalk (s : State) (g : Group) (w : Nat) : Bool :=
  g.members.any fun n => engines.any fun e => s.issuesAt n w e && (match s.headAt (.job n e) ((s.core n).str e).pc.toNat with
    | .instr i _ => translates i
    | _ => false)
/-- R344, R345, R348, R401: the reason for which the group's clock stands at cycle w, as the wall clock has it (log 4): a value or a word that
has not arrived, a walk, the load of a job that follows. -/
def State.wallLate (s : State) (g : Group) (w : Nat) : Option Nat :=
  if s.mayBeLate g w && Config.freeBit s.free then some 0
  else if (g.members.any fun n => engines.any (s.issuesAt n w)) && Config.freeBit (s.free + 1) && s.mayWalk g w then some 1
  else if (g.members.any fun n => (s.core n).placed.isSome) && Config.freeBit (s.free + 2) then some 5
  else none
/-- R350: every member of a group has arrived, and the release has not occurred (PRSN bit 3). -/
def State.awaitsOthers (s : State) (g : Group) : Bool :=
  (match s.groupArrival g with
   | some k => decide (1 < k)
   | none => false) || s.groupAtBar true g == some true
/-- The group completes its arrivals at an open KBAR (R375). -/
def State.noteKbar (s : State) (cxn h : Nat) (g : Group) : State :=
  if s.groupAtBar true g == some true then
    s.modInst cxn h fun i => { i with kbarOrder := if i.kbarOrder.contains g.gidx then i.kbarOrder else i.kbarOrder ++ [g.gidx] }
  else s

/-- The streams of a core that issue at cycle w, and what its engines do at it, in the order of R344. -/
def State.coreLands (s : State) (n w : Nat) : List Act :=
  (((s.core n).landOrder w).map fun q => Act.ev (.pendingWriteLand n q)) ++ [.ev (.guardResolutionEffect n)]
def State.copyActs (s : State) (n : Nat) (x : Copy) (w : Nat) : List Act :=
  if x.form.isSlot then
    (if x.form = .xfill then (List.replicate x.slots.length (.ev (.xfillSlotFilled n x.tag)) : List Act)
     else List.replicate (x.slots.length + 1) (.ev (.xdrainSlotRelease n x.tag)))
  else if x.due ≤ w then [.ev (.copyWritePerformed n x.tag (s.sentElts n x))] else []
def copyEnds (n : Nat) (x : Copy) : List Act :=
  [.ev (.copyLateCause n x.tag)] ++ (if x.form = .xfetchTry then [.ev (.xfetchTryFallback n x.tag)] else []) ++ [.ev (.copyComplete n x.tag)]
/-- Copies by tag. -/
def Core.byTag (c : Core) : List Copy := c.copies.mergeSort fun x y => decide (x.tag ≤ y.tag)
def State.coreCopies (s : State) (n w : Nat) : List Act :=
  let l := (s.core n).byTag
  l.flatMap (fun x => s.copyActs n x w) ++ l.flatMap (copyEnds n)
def State.coreIssues (s : State) (n w : Nat) : List Act :=
  let c := s.core n
  let turn := fun (e : Engine) =>
    if (c.str e).nextIssue ≤ w || c.placed.isSome || c.loading then
      (match e, (c.str e).hold with
       | .M, .join _ _ => [Act.ev (.joinStart n)]
       | _, _ => [Act.issue (.job n e)])
    else []
  turn .S ++ turn .V ++ turn .M
    ++ (c.byTag.filterMap fun x => match x.form with
      | .xfill => some (.ev (.xfillSlotReserve n x.tag))
      | .xdrain => some (.ev (.xdrainSlotTake n x.tag))
      | _ => none)
    ++ turn .X
/-- A job that starts or restarts at this cycle. -/
def State.coreStarts (s : State) (n : Nat) : List Act :=
  if (s.core n).placed.isSome then [.auto (.jobStart n)] else []
def State.coreArray (s : State) (n : Nat) : List Act :=
  if (s.core n).m.mmas.isEmpty then [] else [.ev (.mmaFin n), .ev (.mmaFin n), .ev (.mmaStart n)]

/-- What replay enforces in a cycle before the streams issue, or after (R387). -/
def replayActs (on : Bool) (g : Group) (late : Bool) : List Act := if on then g.members.map fun n => .auto (.replayPhaseRestart n late) else []
/-- The acts of cycle w of a group. -/
def State.cycleActs (s : State) (cxn h : Nat) (g : Group) (w : Nat) : List Act :=
  let on := (s.ctx cxn).trail.mode == 2
  (if on then [.auto (.replayClassAPoint cxn h g.gidx)] else [])
    ++ g.members.flatMap (fun n => s.coreLands n w) ++ g.members.flatMap (fun n => s.coreCopies n w)
    ++ g.members.flatMap (fun n => s.coreArray n) ++ g.members.flatMap (fun n => s.coreStarts n) ++ replayActs on g false
    ++ g.members.flatMap (fun n => s.coreIssues n w)
    ++ (g.members.flatMap fun n => if (s.core n).m.mmas.isEmpty then [] else [.ev (.arrayStep n)]) ++ replayActs on g true

/-- The group's clock stands at w (R344); a copy or an MMA may still be waited for. -/
def Group.standAt (g : Group) (w bit : Nat) : Group := ({ g with vcyc := w, stand := true } : Group).pause bit

/-- The lines of local HBM that a core fetches code from in a cycle: at most two for each stream whose code stands there; what it holds
of them the wall clock settles (R430, R473, log 4). The next cycle waits for them. -/
def State.fetchLines (s : State) (n : Nat) : State :=
  let near := engines.filter fun e =>
    match s.translate (s.cxnOf (.job n e)) (s.genOf (.job n e)) ((s.core n).str e).pc.toNat accFetch with
    | .ok p _ _ _ => p.isLocal
    | _ => false
  let k := Config.freeCount s.free % (2 * near.length + 1)
  if k = 0 then s.tick 1
  else (s.tick 1).requests (.job n .S) (s.genOf (.job n .S)) (near.map fun e => ((s.core n).str e).pc.toNat) (.value (s.now n)) [(k, .hbm)] []
/-- The fetches of a group that the trail holds back (R384). -/
def State.noteTries (s : State) (g : Group) (w : Nat) : State :=
  g.members.foldl (fun t n => (t.core n).copies.foldl (fun t x => t.noteTry n w x) t) s
/-- VIRTUAL_CYCLE: the next cycle of a group proceeds when all it needs is present, else the group pauses. -/
def State.virtualCycle (s : State) (cxn h g : Nat) : State :=
  match s.group? cxn h g with
  | none => s
  | some gr =>
    let w := gr.nxt
    let counts := (gr.state == .lockstep || gr.state == .draining || (gr.state == .paused && gr.prsn == 1))
    if !counts then s
    else if s.awaitsOthers gr then (s.noteKbar cxn h gr).modGroup cxn h g (·.standAt w 3)
    else if s.notPresent cxn gr w then (s.noteTries gr w).modGroup cxn h g (·.standAt w 0)
    else match s.wallLate gr w with
    | some bit => (s.modGroup cxn h g (·.standAt w bit)).tick 3
    | none =>
      let s1 := (s.modGroup cxn h g fun x => ({ x with vcyc := w, stand := false, redo := false } : Group).unpause 0).tick 3
      let s2 := gr.members.foldl (fun t n => (t.restartJob n).fetchLines n) s1
      { s2 with agenda := s2.cycleActs cxn h gr w ++ s2.agenda }
def execVirtualCycle (cxn h g : Nat) (s : State) : Out := .next (s.virtualCycle cxn h g)

/-- GROUP_UNPAUSE: the reasons of a group that no longer hold end (Table 13-2), but for bit 0 and bit 1, which the cycle and the
translation themselves end. -/
def State.unpauseGroup (s : State) (cxn h g : Nat) : State :=
  match s.inst? cxn h, s.group? cxn h g with
  | some i, some gr =>
    let stopped := s.memberStopped gr || (s.queue cxn i.q).state == .parked
    let up := fun (s : State) (bit : Nat) (on : Bool) => if on then s else s.modGroup cxn h g (·.unpause bit)
    let s1 := up (up s 2 stopped) 3 (s.awaitsOthers gr)
    up (up s1 4 (!(s.ctx cxn).going)) 5 (gr.members.any fun n => ((s.core n).coefLost && (s.core n).job.isSome) || (s.core n).retrans || s.unsentFor (.job n .X) (· == .refetch))
  | _, _ => s
def execGroupUnpause (cxn h g : Nat) (s : State) : Out := .next (s.unpauseGroup cxn h g)

/-! Completion (R93, R339, R340, R406). -/

/-- Every core of an instance has ended its part, the accesses of its jobs have been performed, and its stores can reach their places (R339). -/
def State.instEnds (s : State) (i : Inst) : Bool :=
  i.state == .draining && i.groups.all (fun g => g.state == .dissolved) && i.cores.all fun n => s.storesLinked n && (s.core n).strong.all (·.done)
/-- INSTANCE_COMPLETE: every group has dissolved; what is buffered is published at context scope, and the instance is Complete, or
Faulted with cause 19 when a peer refused a store. -/
def State.completeInst (s : State) (cxn h : Nat) : State :=
  match s.inst? cxn h with
  | none => s
  | some i =>
    if !s.instEnds i then s
    else
      let r := s.commitAll cxn h i.cores true
      let s1 := (i.cores.foldl (fun t n => t.clearPhase cxn true n) r.1).closeSlots cxn h
      let s2 := i.cores.foldl (fun t n => t.modCore n fun c => c.landRest.release) s1
      let bad := !r.2.isEmpty
      let s3 := s2.modCtx cxn fun c =>
        let c1 := { c with
          insts := c.insts.map fun x => if x.handle = h then
            { x with state := if bad then .faulted else .complete, cause := if bad then 19 else 0, groups := [], kbarOrder := [] } else x
          mix := if bad then c.mix else c.mix.filter fun m => m.2.2.2 != h
          marks := if bad then c.marks else c.marks.complete h i.deps }
        if bad then c1.failDeps c1.insts.length else c1
      (s3.wake cxn).genNotices cxn (s.ctx cxn).heldGens
def execInstanceComplete (cxn h : Nat) (s : State) : Out := .next (s.completeInst cxn h)

end Sys2Proof.Machine
end

