-- ==== Sys2Proof/Machine/TrailForms.lean ====
section
/-! DEFINITION. The trail's registers and forms (R376 to R378), the entry of a handler (R317), and what replay enforces by itself
(R384, R386, R387, R390). -/
namespace Sys2Proof.Machine

/-! Registers (Table 15-1). -/

def Trail.ctl (t : Trail) : Nat := t.wmf.toNat * 2 ^ 28 + bitAt t.ven 27 + t.vec.toNat * 2 ^ 16 + t.sz.toNat * 2 ^ 3 + t.mode.toNat
def Trail.sts (t : Trail) : Nat := bitAt t.lost 4 + bitAt t.div 3 + bitAt t.fev 2 + bitAt t.wev 1 + bitAt t.stalled 0
def Trail.reg (t : Trail) (idx : Nat) : Option W64 :=
  match idx with
  | 0 => some (BitVec.ofNat 64 (t.base.toNat * 2 ^ 16))
  | 1 => some (BitVec.ofNat 64 t.ctl)
  | 2 => some t.widx
  | 3 => some t.ridx
  | 4 => some (BitVec.ofNat 64 t.sts)
  | 5 => some t.dseq
  | 6 => some t.dexp0
  | 7 => some t.dexp1
  | 8 => some t.dact0
  | 9 => some t.dact1
  | _ => none
/-- Fields that a write sets, but for MODE (R5). -/
def Trail.write (t : Trail) (idx : Nat) (v : W64) : Trail :=
  match idx with
  | 0 => { t with base := BitVec.ofNat 39 (W64.f v 54 16) }
  | 1 => { t with wmf := BitVec.ofNat 4 (W64.f v 31 28), ven := v.getLsbD 27, vec := BitVec.ofNat 11 (W64.f v 26 16), sz := BitVec.ofNat 5 (W64.f v 7 3) }
  | 2 => { t with widx := v }
  | 3 => { t with ridx := v }
  | 4 => { t with lost := t.lost && !v.getLsbD 4, fev := t.fev && !v.getLsbD 2, wev := t.wev && !v.getLsbD 1 }
  | _ => t
/-- R377: the conditions of a write, MODE's own apart. -/
def Trail.writeConds (t : Trail) (idx : Nat) (v : W64) : List (Bool × Nat) :=
  match idx with
  | 0 => [(t.mode == 0 || W64.f v 54 16 == t.base.toNat, 10)]
  | 1 => [(decide (16 ≤ W64.f v 7 3) && decide (W64.f v 7 3 ≤ 30) && decide (W64.f v 1 0 ≠ 3), 10),
          (t.mode == 0 || W64.f v 7 3 == t.sz.toNat, 10)]
  | 2 => [(t.mode != 1, 10), (decide (t.ridx.toNat ≤ v.toNat) && decide (v.toNat ≤ t.ridx.toNat + t.cap), 10)]
  | 3 => [(t.mode != 2, 10), (decide (t.widx.toNat ≤ v.toNat + t.cap) && decide (v.toNat ≤ t.widx.toNat), 10)]
  | _ => []

/-! MODE (R378). -/

/-- Whether MODE may change from one value to another. -/
def modeStep (a b : Nat) : Bool := (a == 0 && (b == 1 || b == 2)) || (b == 0 && (a == 1 || a == 2))
/-- How the translation of the ring ends. -/
inductive RingTr where
  | ok (pages : List (Nat × Nat))
  | fault (cause va : Nat) (rec : Option FaultRec)
  | park (dpa : Nat)
deriving DecidableEq, Repr
/-- The page of an address is mapped, and not to local HBM. -/
def State.foreign (s : State) (cxn gen va acc : Nat) : Bool :=
  match s.s1 cxn gen va acc with
  | .ok ipa _ _ _ => (match s.s2 cxn gen ipa with
    | .leaf l => l.tgt != 0 || !inHbm l.out
    | _ => false)
  | _ => false
/-- One page of the ring: local HBM, or cause 10, which is below those of its translation (R11). -/
def State.ringPage (s : State) (cxn va : Nat) (write : Bool) : RingTr :=
  let gen := (s.ctx cxn).cg
  match s.translate cxn gen va (accRing write) with
  | .ok (.hbm d lf) _ _ _ => .ok [(d, lf)]
  | .ok _ _ _ _ => .fault 10 0 none
  | .fault c r => if c ≠ 16 ∧ s.foreign cxn gen va 8 then .fault 10 0 none else .fault c va r
  | .poison d => .park d
/-- Every page of the ring; the lowest cause, and for it the lowest page, is delivered (R11). -/
def State.ringPages (s : State) (cxn : Nat) (write : Bool) (vas : List Nat) : RingTr :=
  vas.foldr (fun va acc =>
    match s.ringPage cxn va write, acc with
    | .park d, _ => .park d
    | _, .park d => .park d
    | .ok d, .ok ds => .ok (d ++ ds)
    | .ok _, f => f
    | .fault c a r, .fault c2 a2 r2 => if c2 < c then .fault c2 a2 r2 else .fault c a r
    | f, .ok _ => f) (.ok [])
/-- The pages of a ring. -/
def Trail.vas (t : Trail) : List Nat := (List.range (2 ^ t.sz.toNat / 65536)).map fun k => t.base.toNat * 2 ^ 16 + 65536 * k
/-- What is left of a mode as MODE returns to 0 (R378). -/
def Trail.off (t : Trail) : Trail :=
  { t with mode := 0, pages := [], matched := [], waits := [], idle := 0, div := false, divOwner := none, divId := 0 }

/-- Bytes that a host request covers. -/
def HostReq.size : HostReq → Nat
  | .write bs => bs.length
  | .atomic _ n _ _ => n
/-- The leaf of a host request, when it grants what the request needs: local HBM, W, and R for an AtomicOp (R407, R423). -/
def State.hostDpa (s : State) (cxn ipa : Nat) (r : HostReq) : Option Leaf :=
  match s.s2 cxn (s.ctx cxn).cg ipa with
  | .leaf l =>
    let rd : Bool := match r with
      | .write _ => true
      | .atomic _ n _ _ => l.r && s.physPoison (.hbm l.out 0) n == 0
    if l.tgt = 0 ∧ inHbm l.out ∧ l.w ∧ rd then some l else none
  | _ => none
/-- Whether a walk ends at a directory entry of kind 0b00. -/
def State.dirInvalid (s : State) (gen ipa : Nat) : Nat → Nat → Bool
  | 0, _ => false
  | n + 1, t =>
    let lvl := 2 - n
    match s.desc (t + 8 * (ipa / 2 ^ levelShift lvl % (if lvl = 0 then 1024 else 8192))) with
    | some (e, _) =>
      if e % 4 = 3 then (match s.desc (bits e 51 16 * 2 ^ 16 + 8 * gen) with
        | some (e2, _) => e2 % 4 == 0
        | none => false)
      else if e % 4 = 2 then s.dirInvalid gen ipa n (bits e 51 16 * 2 ^ 16)
      else false
    | none => false
/-- R407: Unsupported Request where the walk ends at a descriptor of kind 0b00, Completer Abort in every other case. -/
def State.hostError (s : State) (cxn ipa : Nat) : State :=
  let c := s.ctx cxn
  match s.s2 cxn c.cg ipa with
  | .fault 0 _ => s.send (.unsupported c.vf)
  | .fault 2 _ => if s.dirInvalid c.cg ipa 3 c.s2root then s.send (.unsupported c.vf) else s.send (.abort c.vf)
  | _ => s.send (.abort c.vf)
/-- R449: a host request that meets a poisoned descriptor parks the context. -/
def State.hostPark (s : State) (cxn ipa : Nat) : State :=
  match s.s2 cxn (s.ctx cxn).cg ipa with
  | .poison d => s.parkContext cxn d
  | _ => s
/-- A request that is not granted: a write is discarded, an AtomicOp completes in error. -/
def State.hostFail (s : State) (cxn ipa : Nat) : HostReq → State
  | .write _ => s.hostPark cxn ipa
  | .atomic _ _ _ _ => (s.hostPark cxn ipa).hostError cxn ipa
/-- The value an AtomicOp writes, none for a CAS that does not (R423). -/
def hostAtomicValue (op : HostAtomic) (size old x y : Nat) : Option Nat :=
  let w := 8 * size
  match op with
  | .fetchAdd => some ((old + x) % 2 ^ w)
  | .swap => some (x % 2 ^ w)
  | .cas => if old = x % 2 ^ w then some (y % 2 ^ w) else none
/-- A part written by an AtomicOp, or through the aperture, is untainted (R408, R423). -/
def State.untaint (s : State) (dpa n : Nat) : State :=
  (partOffsets dpa n).foldl (fun t k => { t with hbmT := t.hbmT.del ((dpa + k) / 16) }) s
/-- An AtomicOp at local bytes, performed in one step; its completion carries the old value. -/
def State.hostAtomic (s : State) (cxn fn dpa leaf : Nat) (op : HostAtomic) (size : Nat) (x y : BitVec 128) : State :=
  let us := s.outsideOpen dpa size
  let s0 := s.undefine us
  let old := leNat (s0.hbm.read dpa size)
  let v := hostAtomicValue op size old x.toNat y.toNat
  let s1 := match v with
    | some v => (s0.physWrite cxn (.hbm dpa leaf) (tainted false (leBytes size v))).untaint dpa size
    | none => s0
  ((s1.undefine us).outsideDone dpa size (some old) v).send (.completion fn (leBytes size old))
/-- A granted request performed. -/
def State.hostDo (s : State) (cxn : Nat) (l : Leaf) : HostReq → State
  | .write bs => (s.physWrite cxn (.hbm l.out l.addr) (tainted false bs)).plainWrote cxn (.hbm l.out l.addr) bs.length
  | .atomic op n x y => s.hostAtomic cxn (s.ctx cxn).vf l.out l.addr op n x y
/-- Host requests that replay held for their turn are performed in order of arrival when replay ends. -/
def State.flushHost (s : State) (cxn : Nat) : State :=
  ((s.ctx cxn).trail.hostq.foldl (fun t x =>
    match t.hostDpa cxn x.2.1 x.2.2 with
    | some l => t.hostDo cxn l x.2.2
    | none => t.hostFail cxn x.2.1 x.2.2) s).modTrail cxn fun t => { t with hostq := [] }
/-- A change of MODE on a queue thread, and what follows it; `t` is the trail with its other fields written. -/
def State.setMode (s : State) (cxn mode : Nat) (t : Trail) (go : State → State) : State :=
  let c := s.ctx cxn
  let ok := modeStep c.trail.mode.toNat mode && !(c.insts.any fun i => i.state.holds)
    && (mode != 2 || (decide (t.ridx.toNat ≤ t.widx.toNat) && decide (t.widx.toNat ≤ t.ridx.toNat + t.cap)))
  s.check [(ok, 10)] fun s =>
    if mode = 0 then go ((s.flushHost cxn).modTrail cxn fun u => { t with hostq := u.hostq }.off)
    else
      match s.ringPages cxn (mode == 1) t.vas with
      | .park d => s.parkContext cxn d
      | .fault c va r => s.take s.cur c va r
      | .ok ps =>
        let s1 := s.modTrail cxn fun _ => { t with mode := BitVec.ofNat 2 mode, pages := ps, matched := [], waits := [], idle := 0 }
        go (if mode = 2 then s1.settleRidx cxn (t.widx.toNat - t.ridx.toNat) else s1)
/-- TRAIL_MODE_CHANGE: the queue's thread turns record or replay on or off, its other fields as they stand. -/
def execTrailModeChange (cxn q mode : Nat) (s : State) : Out :=
  let s1 := { s with cur := .thread cxn q }
  .next (s1.setMode cxn (mode % 4) (s1.ctx cxn).trail id)

def execTrrd (g : Guard) (d a : F6) (s : State) : Out :=
  s.qWord g [(sOk d && sOk a, 10)] fun s cxn _ =>
    match (s.ctx cxn).trail.reg (W64.f (s.rs a) 15 0) with
    | some v => s.qPut d v false
    | none => s.cause 10
/-- The record watermark after a write of RIDX (R385). -/
def State.recordMark (s : State) (cxn before : Nat) : State :=
  let t := (s.ctx cxn).trail
  let level := t.wmf.toNat * t.cap / 16
  if t.wmf ≠ 0 ∧ before < level ∧ level ≤ t.widx.toNat - t.ridx.toNat then (s.modTrail cxn fun t => { t with wev := true }).trailEvent cxn else s
/-- TRWR; records supplied in replay may let operations go on (R384), and a mark that an index crosses is reported (R385). -/
def execTrwr (g : Guard) (a b : F6) (s : State) : Out :=
  s.qWord g [(sOk a && sOk b, 10)] fun s cxn _ =>
    let t := (s.ctx cxn).trail
    let idx := W64.f (s.rs a) 15 0
    let v := s.rs b
    if (t.reg idx).isNone then s.cause 10
    else s.check (t.writeConds idx v) fun s =>
      let t1 := t.write idx v
      if idx = 1 ∧ W64.f v 1 0 ≠ t.mode.toNat then s.setMode cxn (W64.f v 1 0) t1 fun s => s.fin 4 1
      else
        let s1 := s.modTrail cxn fun _ => t1
        let s2 := if idx = 2 ∧ t.mode = 2 then s1.settleRidx cxn (max (v.toNat - t.ridx.toNat) (t.widx.toNat - t.ridx.toNat))
          else if idx = 3 ∧ t.mode = 1 then s1.recordMark cxn (t.widx.toNat - t.ridx.toNat) else s1
        s2.fin 4 1

/-! The entry of a handler (R317). -/

/-- The trapped jobs that wait for a queue's handler, by (HANDLE, GIDX, ORD). -/
def State.pendingTraps (s : State) (cxn q : Nat) : List Nat :=
  let key := fun (n : Nat) => match (s.core n).member with
    | some (_, h, g, o) => h * 2 ^ 16 + g * 2 ^ 8 + o
    | none => 0
  ((s.coresOfQueue cxn q).filter fun n => match (s.core n).stop with
    | some st => !st.held && !st.parked
    | none => false).mergeSort fun a b => decide (key a ≤ key b)
/-- A queue's thread stands where a handler may be entered. -/
def Queue.canEnter (k : Queue) : Bool :=
  !k.hnd && k.thread.redirect.isNone && (k.state == .running || k.state == .waiting) && k.strong.isEmpty
/-- The record of a handler entry for a core's job (Table 15-4). -/
def State.entryRecord (s : State) (cxn q n : Nat) : Nat × Nat :=
  match (s.core n).stop, (s.core n).member with
  | some st, some (_, h, g, o) =>
    (mkQ0 (s.queue cxn q).icount 0x0C (issUnit 0 q), h * 2 ^ 32 + g * 2 ^ 16 + o * 2 ^ 9 + engNum st.strm * 2 ^ 6 + st.cause)
  | _, _ => (0, 0)
/-- In replay, the index of the record that stands next for a queue's thread. -/
def State.nextOf (s : State) (cxn q : Nat) : Option Nat := s.findRecord cxn (sameIssuer (mkQ0 0 0x0C (issUnit 0 q), 0))
/-- It, where it is that of a handler's entry. -/
def State.nextEntry (s : State) (cxn q : Nat) : Option (Nat × Nat) :=
  match s.nextOf cxn q with
  | some k => if recType (s.record cxn k).1 = 0x0C then some (s.record cxn k) else none
  | none => none
/-- The job whose trap the thread takes now, if any: the lowest, or in replay the recorded one at the recorded clock. -/
def State.entryFor (s : State) (cxn q : Nat) : Option Nat :=
  if !(s.queue cxn q).canEnter ∨ !(s.ctx cxn).going then none
  else
    let l := s.pendingTraps cxn q
    if (s.ctx cxn).trail.mode = 2 then
      match s.nextEntry cxn q with
      | some r => l.find? fun n => (s.entryRecord cxn q n).1 == r.1 && (s.entryRecord cxn q n).2 / 2 ^ 9 == r.2 / 2 ^ 9
      | none => none
    else l.head?
/-- In replay, a handler could be entered, and no record of the thread has been supplied: the entry waits, with the thread (R384). -/
def State.entryWaits (s : State) (cxn q : Nat) : Option Nat :=
  if (s.ctx cxn).trail.mode = 2 ∧ (s.queue cxn q).canEnter ∧ (s.ctx cxn).going ∧ (s.queue cxn q).qhnd ≠ 0 ∧ (s.nextOf cxn q).isNone then (s.pendingTraps cxn q).head?
  else none
/-- HANDLER_ENTRY: with no handler the queue becomes Faulted, and the job stays stopped. -/
def State.handlerEntry (s : State) (cxn q : Nat) : State :=
  match s.entryFor cxn q with
  | none =>
    (match s.entryWaits cxn q with
     | some n => let r := s.entryRecord cxn q n; s.trailStall cxn r.1 r.2
     | none => s)
  | some n =>
    if (s.queue cxn q).qhnd = 0 then s.endQueue cxn q .faulted (((s.core n).stop.map (·.cause)).getD 0)
    else
      let r := s.entryRecord cxn q n
      match s.gate cxn (some (.thread cxn q)) r.1 r.2 with
      | .go s1 _ => s1.enterHandler cxn q n
      | .wait s1 => s1
      | .diverged s1 => s1
def execHandlerEntry (cxn q : Nat) (s : State) : Out := .next (s.handlerEntry cxn q)
/-- R387, R384: in replay the thread issues nothing while its recorded handler entry is due, nor while the entry waits for its record. -/
def State.entryDue (s : State) (cxn q : Nat) : Bool :=
  decide ((s.ctx cxn).trail.mode = 2) && ((s.entryWaits cxn q).isSome || (match s.nextEntry cxn q with
    | some r => recClk r.1 == (s.queue cxn q).icount
    | none => false))

/-! Waits that may end (R384). -/

/-- Agents of a context with a strong access still to be performed. -/
def State.waitingAgents (s : State) (cxn : Nat) : List Agent :=
  (((s.ctx cxn).insts.flatMap (·.cores)).flatMap fun n => (engines.map fun e => Agent.job n e).filter fun a => (s.nextStrong a).isSome)
    ++ ((List.range 16).map fun q => Agent.thread cxn q).filter fun a => (s.nextStrong a).isSome
/-- Pre-emption-point records that a stop held are written as space frees (R384). -/
def State.writeHeld (s : State) (cxn : Nat) : List (W64 × W64) → State
  | [] => s.modTrail cxn fun t => { t with held := [] }
  | (a, b) :: l =>
    if (s.ctx cxn).trail.full then s.modTrail cxn fun t => { t with held := (a, b) :: l }
    else (s.writeRecord cxn a.toNat b.toNat).writeHeld cxn l

/-- The record of a host write of one part (Table 15-4): byte mask and part. -/
def hostRecord (ipa n slice : Nat) : Nat × Nat :=
  let off := ipa % 16
  (mkQ0 ((2 ^ n - 1) * 2 ^ off) 0x09 (issUnit 3 slice), partField (ipa / 16 * 16))
/-- Where a host request is queued, and whether one of its home slice is queued there already. -/
def State.hostBehind (s : State) (cxn slice : Nat) : Bool := (s.ctx cxn).trail.hostq.any fun y => y.1 == slice
def State.hostQueue (s : State) (cxn slice ipa : Nat) (r : HostReq) : State :=
  s.modTrail cxn fun t => { t with hostq := t.hostq ++ [(slice, ipa, r)] }
/-- The head request of a slice at the trail: one whose part no record of the window names, while another part of the slice is recorded
next, differs from its record (R387). -/
def State.hostGate (s : State) (cxn slice q0 q1 : Nat) : Gate :=
  let t := (s.ctx cxn).trail
  let here := fun (r : Nat × Nat) => recType r.1 == 0x09 && (match s.recordPart cxn r with
    | (0, p) => homeSlice (16 * p) == slice
    | _ => false)
  match if t.mode = 2 ∧ !t.div ∧ (s.findRecord cxn (sameIssuer (q0, q1))).isNone then s.findRecord cxn here else none with
  | some k => .diverged (s.diverge cxn k (s.record cxn k) (q0, q1) none)
  | none => s.gate cxn none q0 q1
/-- R281: a context whose stop is complete. -/
def Ctx.stopped (c : Ctx) : Bool :=
  match c.state, c.mig with
  | .saved, _ => true
  | .migIn, _ => true
  | .migOut, some m => m.saved
  | _, _ => false
/-- One host request of at most a part at its home slice (R89, R423); what its leaf does not grant is not performed (R407). That of a
context that is stopped is performed at once (R281). A request stands behind the ones of its slice that wait for their turn (R387). -/
def State.hostPart (s : State) (cxn ipa : Nat) (r : HostReq) : State :=
  match s.hostDpa cxn ipa r with
  | none => s.hostFail cxn ipa r
  | some l =>
    let slice := homeSlice l.out
    if (s.ctx cxn).stopped then s.hostDo cxn l r
    else if (s.ctx cxn).ringLost ∨ s.hostBehind cxn slice then s.hostQueue cxn slice ipa r
    else
      let q := hostRecord ipa r.size slice
      match s.hostGate cxn slice q.1 q.2 with
      | .go s1 _ => s1.hostDo cxn l r
      | .wait s1 => s1.hostQueue cxn slice ipa r
      | .diverged s1 => s1.hostQueue cxn slice ipa r
/-- Host requests of the queue tried again, in order of arrival. -/
def State.retryHost (s : State) (cxn : Nat) : State :=
  (s.ctx cxn).trail.hostq.foldl (fun t x => t.hostPart cxn x.2.1 x.2.2) (s.modTrail cxn fun t => { t with hostq := [] })

/-- A cancel that waited for the ring takes place (R384). -/
def State.retryCancel (s : State) (n : Nat) : State :=
  match (s.core n).stop with
  | some st => if st.waitsCancel then s.cancelTrap n st.strm st.cause st.faddr (st.cycle + 1) else s
  | none => s

/-- TRAIL_WAIT_RELEASE: what waited for the ring proceeds where it now can. -/
def State.trailRelease (s : State) (cxn : Nat) : State :=
  let s1 := if (s.ctx cxn).trail.mode = 1 then s.writeHeld cxn (s.ctx cxn).trail.held else s.modTrail cxn fun t => { t with held := [] }
  let s2 := s1.retryHost cxn
  let s3 := ((s2.ctx cxn).insts.flatMap (·.cores)).foldl (fun t n => t.retryCancel n) s2
  (s3.waitingAgents cxn).foldl (fun t a => t.atomicStep a) s3
def execTrailWaitRelease (cxn : Nat) (s : State) : Out := .next (s.trailRelease cxn)

/-! What replay enforces by itself (R386, R387, R390). -/

/-- The group of the instance that is walking, by index. -/
def Ctx.groupNow (c : Ctx) (g : Nat) : Option (Nat × Group) :=
  (c.insts.find? fun i => i.state == .walking || i.state == .draining).bind fun i => (i.group? g).map fun x => (i.handle, x)
/-- The core of an ordinal of a running group. -/
def Ctx.coreNow (c : Ctx) (g o : Nat) : Option Nat := (c.groupNow g).bind fun x => x.2.members[o]?
/-- The clock of a record's issuer, when the issuer has one now. -/
def State.clockOf (s : State) (cxn iss : Nat) : Option Nat :=
  let c := s.ctx cxn
  if !nbit iss 23 then (c.groupNow (bits iss 20 18)).map fun x => x.2.vcyc
  else if bits iss 22 20 = 0 then some (c.queue (bits iss 3 0)).icount
  else if bits iss 22 20 = 4 then (c.groupNow (bits iss 2 0)).map fun x => x.2.vcyc
  else none
/-- The operation of a record has been issued and only its performance or outcome is awaited. -/
def State.produced (s : State) (cxn : Nat) (r : Nat × Nat) : Bool :=
  let iss := recIss r.1
  if nbit iss 23 then (s.queue cxn (bits iss 3 0)).strong.any fun x => x.clk % 2 ^ 32 == recClk r.1
  else
    match (s.ctx cxn).coreNow (bits iss 20 18) (bits iss 17 11) with
    | some n =>
      let c := s.core n
      (c.strong.any fun x => !x.done && x.clk % 2 ^ 32 == recClk r.1 && x.e == engOf (bits iss 22 21))
        || c.copies.any fun x => x.form == .xfetchTry && x.issue % 2 ^ 32 == recClk r.1
    | none => false
/-- A record of a queue's thread, and the thread has matched a later one since its queue started: it is of a later start (R386, log 26). -/
def State.laterStart (s : State) (cxn : Nat) (r : Nat × Nat) : Bool :=
  let iss := recIss r.1
  nbit iss 23 && decide (bits iss 22 20 = 0) && decide (recClk r.1 < (s.queue cxn (bits iss 3 0)).matchedAt)
/-- The first record whose issuer's clock has passed it; `seen` are issuers with an earlier record. A record of a job counts up to the next
admission, and one of a thread wherever it stands. -/
def State.passed (s : State) (cxn : Nat) : List Nat → List Nat → Option (Nat × Nat × Nat)
  | _, [] => none
  | seen, k :: ks =>
    let r := s.record cxn k
    let iss := issuerOf (recIss r.1)
    let mine := (nbit (recIss r.1) 23 && decide (bits (recIss r.1) 22 20 = 0)) || (s.windowNow cxn).contains k
    if !s.openRecord cxn k || !mine || seen.contains iss || s.laterStart cxn r then s.passed cxn seen ks
    else
      match s.clockOf cxn (recIss r.1) with
      | some clk => if recClk r.1 < clk % 2 ^ 32 ∧ !s.produced cxn r then some (k, recIss r.1, clk) else s.passed cxn (iss :: seen) ks
      | none => s.passed cxn (iss :: seen) ks
/-- REPLAY_CLOCK_PASSED (R386). -/
def State.clockPassed (s : State) (cxn : Nat) : State :=
  if (s.ctx cxn).trail.mode ≠ 2 ∨ (s.ctx cxn).trail.div then s
  else
    match s.passed cxn [] (s.window cxn) with
    | some (k, iss, clk) => s.diverge cxn k (s.record cxn k) (mkQ0 clk 0 iss, 0) none
    | none => s
def execReplayClockPassed (cxn : Nat) (s : State) : Out := .next (s.clockPassed cxn)

/-- A record of a test has been supplied and is not yet matched. -/
def State.supplied (s : State) (cxn : Nat) (p : Nat × Nat → Bool) : Bool := (s.findRecord cxn p).isSome || s.beyond cxn p
/-- Records on which a walker, or the admission unit, waits while others ask it whose own records have been supplied (R387, R390). -/
def State.unitsOn (s : State) (cxn : Nat) : List Nat :=
  let c := s.ctx cxn
  let walks := c.insts.flatMap fun i => if i.state = .walking ∧ i.mode ≠ 1 then i.groups.filterMap fun g =>
      let l := s.askers g
      match s.findRecord cxn (placedBy g.gidx) with
      | some k =>
        if g.nextJ < g.tuples ∧ !l.contains (bits (recIss (s.record cxn k).1) 17 11) ∧
            s.supplied cxn (fun r => placedBy g.gidx r && l.contains (bits (recIss r.1) 17 11)) then some k else none
      | none => none
    else []
  let admits := if c.candidates = [] ∨ c.insts.any (·.state.holds) then []
    else match s.findRecord cxn (sameIssuer (admissionRecord c 0)) with
      | some k =>
        let named := fun (r : Nat × Nat) => recType r.1 == 0x07 && c.candidates.any fun i => i.handle == bits r.2 31 0
        if recType (s.record cxn k).1 = 0x07 ∧ !named (s.record cxn k) ∧ s.supplied cxn named then [k] else []
      | none => []
  walks ++ admits
/-- Records on which operations that are held for their turn wait (R390): earlier ones of their part, semaphore or walker, or, beyond the
lookahead, the one at RIDX. -/
def State.heldOn (s : State) (cxn : Nat) : List Nat :=
  ((s.ctx cxn).trail.waits.filter (·.turn)).filterMap (fun w =>
    let q := (w.q0, w.q1)
    match s.findRecord cxn (sameIssuer q), s.findRecord cxn (s.sameOrder cxn q) with
    | some k, some k2 => if k2 < k then some k2 else none
    | none, _ => s.findRecord cxn fun _ => true
    | _, _ => none) ++ s.unitsOn cxn
/-- R390: 2^24 cycles. -/
def stallLimit : Nat := 2 ^ 24
/-- REPLAY_STALL_TIMEOUT (R390). -/
def State.stallTimeout (s : State) (cxn : Nat) : State :=
  let t := (s.ctx cxn).trail
  if t.mode ≠ 2 ∨ t.div ∨ s.heldOn cxn = [] ∨ t.idle < stallLimit then s
  else
    let l := s.heldOn cxn
    let k := match l with
      | [] => (s.findRecord cxn fun _ => true).getD t.ridx.toNat
      | x :: xs => xs.foldl min x
    s.diverge cxn k (s.record cxn k) (0, 0) none
def execReplayStallTimeout (cxn : Nat) (s : State) : Out := .next (s.stallTimeout cxn)

/-- The phase-restart record that stands next for a stream of a core at its group's cycle. -/
def State.restartRecord (s : State) (n : Nat) (e : Engine) : Option Nat :=
  let cxn := s.cxnOf (.job n e)
  if (s.ctx cxn).trail.mode ≠ 2 then none
  else
    match s.findNow cxn (sameIssuer (mkQ0 0 0x0B (s.issJob n e 0), 0)) with
    | some k =>
      let r := s.record cxn k
      if recType r.1 = 0x0B ∧ recClk r.1 = s.now n % 2 ^ 32 then some k else none
    | none => none
/-- REPLAY_PHASE_RESTART (R387): the recorded cancel happens, and the recorded cause is delivered. -/
def State.phaseRestart (s : State) (n : Nat) : State :=
  if (s.core n).job.isNone ∨ (s.core n).stop.isSome then s
  else
    match engines.find? fun e => (s.restartRecord n e).isSome with
    | none => s
    | some e =>
      match s.restartRecord n e with
      | some k =>
        let cxn := s.cxnOf (.job n e)
        if s.recordPoison cxn k then s.parkRecord cxn k else
        let cause := bits (s.record cxn k).2 5 0
        let s1 := (s.matchRecord cxn k).cancelTrap n e cause 0 (s.now n)
        -- an error of an instruction that issued leaves the cycle done; one met at a landing leaves it to be done (R440)
        if cause = 28 then s1
        else (s1.modCore n fun c => { c with stop := c.stop.map fun x => { x with cycle := s.now n - 1 } }).standCore n
      | none => s
def execReplayPhaseRestart (core : Nat) (s : State) : Out := .next (s.phaseRestart core)

/-- PHST.RSM set to a cause (R70). -/
def Core.setRsm (c : Core) (k : Nat) : Core := { c with phst := (c.phst &&& 0xFFC0FFFF) ||| BitVec.ofNat 32 (k % 64 * 2 ^ 16) }
/-- R285, R287: a job is halted and its phase cancelled as class A does, and stands at its restart point. -/
def State.classAJob (s : State) (n : Nat) : State :=
  if (s.core n).job.isSome then (((s.flushStrong n).abandonCopies n).cancelPhase n).modCore n (·.restore) else s
/-- The class A record that stands next for a group at its cycle (R387). -/
def State.classARecord (s : State) (cxn g now : Nat) : Option Nat :=
  if (s.ctx cxn).trail.mode ≠ 2 then none
  else
    match s.findNow cxn (sameIssuer (mkQ0 0 0x08 (issUnit 4 g), 0)) with
    | some k =>
      let r := s.record cxn k
      if recType r.1 = 0x08 ∧ recClk r.1 = now % 2 ^ 32 then some k else none
    | none => none
/-- REPLAY_CLASS_A_POINT: the group's jobs are halted and cancelled, and resume at once (R387). A record of a stop that met no
running instance only counts as reached. -/
def State.classAPoint (s : State) (cxn h g : Nat) : State :=
  match s.group? cxn h g with
  | some gr =>
    match s.classARecord cxn g gr.vcyc with
    | some k =>
      if s.recordPoison cxn k then s.parkRecord cxn k else
      (gr.members.filter fun n => (s.core n).stop.isNone).foldl (fun t n => if (t.core n).job.isSome then (t.classAJob n).modCore n (·.setRsm 54) else t)
        ((s.matchRecord cxn k).modGroup cxn h g fun x => { x with stand := true })
    | none => s
  | none =>
    match s.classARecord cxn g 0 with
    | some k => if s.recordPoison cxn k then s.parkRecord cxn k else if bits (s.record cxn k).2 63 32 = 0 then s.matchRecord cxn k else s
    | none => s
def execReplayClassAPoint (cxn h g : Nat) (s : State) : Out := .next (s.classAPoint cxn h g)

end Sys2Proof.Machine
end

