-- ==== Sys2Proof/Machine/Shares.lean ====
section
/-! DEFINITION. Quality of service: the timetable (R427 to R429), the HBM token buckets (R430, R431), congestion marks and rate
controllers (R433, R434), and the quantum, the stretches and the watchdog (R321, R322). -/
namespace Sys2Proof.Machine

/-! The timetable (R427, R429). -/

/-- A context number is in use. -/
def CxState.held : CxState → Bool
  | .free => false
  | _ => true
/-- Contexts that hold a number. -/
def State.live (s : State) : List Nat := (List.range 32).filter fun n => (s.ctx n).state.held
/-- The timetable that the contexts' slot masks make. -/
def State.tableOf (s : State) : List (BitVec 6) :=
  (List.range 256).map fun k =>
    match (List.range 32).find? fun n => (s.ctx n).state.held && (s.ctx n).slotMask.getLsbD k with
    | some n => BitVec.ofNat 6 (n + 1)
    | none => 0
/-- R429: a change of slots takes effect at the second slot-0 cycle from now. -/
def State.changeTable (s : State) : State := s.modGuide fun g => { g with tables := g.tables ++ [(s.tableOf, 2)] }
/-- TIMETABLE_CHANGE, at a slot-0 cycle: tables whose wait ends come into force, the latest last. -/
def execTimetableChange (s : State) : Out :=
  .next (if s.pcyc % 256 ≠ 0 then s
  else s.modGuide fun g =>
    let l := g.tables.map fun x => (x.1, x.2 - 1)
    { g with timetable := (l.filter (·.2 == 0)).foldl (fun _ x => x.1) g.timetable, tables := l.filter (·.2 != 0) })

/-! Ports and buckets (R428, R430, R431). -/

/-- Job cores of a context in ascending device core number. -/
def Ctx.ports (c : Ctx) : List Nat := c.clusters.flatMap clusterCores
/-- R431. -/
def share (P k x : Nat) : Nat := x / P + if k < x % P then 1 else 0
/-- R431: every bucket holds share(k, T), and the controllers start at Rmax (R434). -/
def Ctx.fillBuckets (c : Ctx) : Ctx :=
  let l := c.ports
  { c with
    buckets := ((List.range l.length).zip l).map fun x => (x.2, share l.length x.1 c.tok)
    active := false, requests := [], paced := (0, 0, 0), rateFab := 5104, rateHost := 257, markFab := false, markHost := false }
/-- The bucket of a port holds no token for the line that its port has ready (R430; R474: a request goes line by line). Cluster control cores
have no bucket. -/
def Ctx.throttled (c : Ctx) (core : Nat) : Bool :=
  match (aget? c.requests core).getD [] with
  | r :: _ => r.dest == .hbm && decide (core < 1024) && (aget? c.buckets core).getD 0 == 0
  | _ => false
/-- R434: the bytes that a context's copies may inject in a window of 64 cycles, and those of each kind that they have injected in one. -/
def Ctx.pacedIn (c : Ctx) (win : Nat) : Nat × Nat := if c.paced.1 = win then c.paced.2 else (0, 0)
def Need.isCopy : Need → Bool
  | .copy _ => true
  | _ => false
/-- A copy's line of payload still fits what the rate controller lets through in a window; each counts 64 bytes. -/
def Ctx.paces (c : Ctx) (win : Nat) (r : Req) : Bool :=
  !r.need.isCopy || (match r.dest with
    | .hbm => true
    | .peer _ => decide ((c.pacedIn win).1 + 64 ≤ 64 * c.rateFab)
    | .host => decide ((c.pacedIn win).2 + 64 ≤ 64 * c.rateHost))
/-- A line of a request can leave: its link carries traffic (R435), and the host gives it credit, which the wall clock settles (log 4). -/
def State.canLeave (s : State) (r : Req) : Bool :=
  match r.dest with
  | .hbm => true
  | .peer d => s.routed d
  | .host => s.portUp 24 && Config.freeBit s.free
/-- A line of request r, the first of a port, leaves in window `win` at cycle `now`: a token goes with each line for local HBM, and a request that
has waited more than 2,048 cycles for the host's credits is marked (R433). -/
def Ctx.leave (c : Ctx) (core win now : Nat) (r : Req) (rest : List Req) : Ctx :=
  let left := if r.lines ≤ 1 then rest else { r with lines := r.lines - 1, stuck := none } :: rest
  let tok := decide (r.dest = .hbm) && decide (core < 1024)
  let p := c.pacedIn win
  { c with
    requests := if left.isEmpty then c.requests.filter (·.1 != core) else aset c.requests core left
    buckets := if tok then aset c.buckets core ((aget? c.buckets core).getD 0 - 1) else c.buckets
    active := c.active || tok, markHost := c.markHost || (r.stuck.any fun t => decide (t + 2048 < now))
    paced := if !r.need.isCopy then c.paced else match r.dest with
      | .hbm => c.paced
      | .peer _ => (win, p.1 + 64, p.2)
      | .host => (win, p.1, p.2 + 64) }
/-- One flit of a port leaves in an owned slot, when it can. The state, and the tokens taken. -/
def State.inject (s : State) (cxn core : Nat) : State × Nat :=
  let c := s.ctx cxn
  let win := s.pcyc / 64
  if c.throttled core then (s, 0)
  else
    match (aget? c.requests core).getD [] with
    | [] => (s, 0)
    | r :: rest =>
      if !c.paces win r then (s, 0)
      else if s.canLeave r then ((s.modCtx cxn fun c => c.leave core win s.pcyc r rest).tick 1, bitAt (decide (r.dest = .hbm) && decide (core < 1024)) 0)
      else ((s.modCtx cxn fun c => { c with requests := aset c.requests core ({ r with stuck := if r.dest = .host then some (r.stuck.getD s.pcyc) else none } :: rest) }).tick 1, 0)
/-- TIMETABLE_SLOT: a cycle in which a port is throttled is counted once (R474); each port of the context that owns the slot injects at most one flit. -/
def State.slotCycle (s : State) : State :=
  let s1 := (List.range 32).foldl (fun t n =>
    match (t.ctx n).requests with
    | [] => t
    | l => t.perf n 5 (bitAt (l.any fun x => (t.ctx n).throttled x.1) 0)) s
  let own := (s.guide.timetable.getD (s.pcyc % 256) 0).toNat
  if own = 0 then s1
  else
    let r := ((s1.ctx (own - 1)).requests.map (·.1)).foldl (fun (a : State × Nat) p => let x := a.1.inject (own - 1) p; (x.1, a.2 + x.2)) (s1, 0)
    r.1.perf (own - 1) 4 r.2
def execTimetableSlot (s : State) : Out := .next s.slotCycle

/-- R434. -/
def nextRate (rate frw rmax : Nat) (mark : Bool) : Nat := if mark then max (4 * frw) (rate - rate / 8) else min rmax (rate + 2 * frw)
/-- A context at a refill; `b` is what it is lent. One that has no port has no bucket to fill. -/
def Ctx.refill (c : Ctx) (b : Nat) : Ctx :=
  let l := c.ports
  let P := l.length
  if c.clmask = 0 then c
  else { c with
    buckets := ((List.range P).zip l).map fun x =>
      let depth := 2 * share P x.1 c.tok
      (x.2, min ((aget? c.buckets x.2).getD 0 + share P x.1 c.tok + share P x.1 b) depth)
    active := false
    rateFab := nextRate c.rateFab c.frw 5104 c.markFab, rateHost := nextRate c.rateHost c.frw 257 c.markHost
    markFab := false, markHost := false }
/-- TOKEN_REFILL (R431, R434): every context that holds shares counts, a Saved one, which holds no port, as one that is not active. -/
def State.refillAll (s : State) : State :=
  let l := s.live
  let sum := fun (on : Bool) => (l.filter fun n => (s.ctx n).active == on).foldl (fun a n => a + (s.ctx n).tok) 0
  l.foldl (fun t n =>
    t.modCtx n fun c => c.refill (if c.active && decide (0 < sum true) then c.tok * sum false / sum true else 0)) s
def execTokenRefill (s : State) : Out := .next (if s.pcyc % 1024 = 0 then s.refillAll else s)

/-- CONGESTION_MARK (R433): a mark echoed to a context's fabric or host controller. -/
def execCongestionMark (cxn : Nat) (fabric : Bool) (s : State) : Out :=
  .next (s.modCtx cxn fun c => if fabric then { c with markFab := true } else { c with markHost := true })

/-! Stretches and the quantum (R321, R322). -/

/-- NP_BOUND_EXPIRED. -/
def execNpBoundExpired (cxn q : Nat) (s : State) : Out :=
  .next (s.modQueue cxn q fun k => if k.np && decide (k.bound.toNat ≤ k.elapsed) then { k with npovr := true } else k)
/-- Eight quanta, in cycles. -/
def Ctx.watchLimit (c : Ctx) : Nat := 8 * c.quant.toNat * 1024
/-- WATCHDOG: cause 48 to the Guide and the host, once a stretch (Table 19-7). -/
def execWatchdog (cxn q : Nat) (s : State) : Out :=
  .next (
    let k := s.queue cxn q
    if k.np && !k.watched && decide ((s.ctx cxn).watchLimit ≤ k.elapsed) then
      (s.modQueue cxn q fun k => { k with watched := true }).event 4 (cxn + 1) 0 (q + k.elapsed * 2 ^ 64)
    else s)
/-- QUANTUM_EXPIRY: the next quantum begins, shortened by the largest debt, and every debt is zero again. Whether the Guide
pre-empts is its own policy; it then does so by PREEMPT (R321). -/
def execQuantumExpiry (cxn : Nat) (s : State) : Out :=
  .next (s.modCtx cxn fun c =>
    if c.quant.toNat = 0 ∨ 1 < c.slice then c
    else c.newQuantum)

end Sys2Proof.Machine
end

