-- ==== Sys2Proof/Machine/Mailbox.lean ====
section
/-! DEFINITION. The Guide's mailbox as every command uses it: operands, checks, completion (R456, R457, R460), and the commands that
only read or set one thing (Table 19-5). -/
namespace Sys2Proof.Machine

/-- A little-endian operand field: offset from OPER byte 0, and bytes. -/
def opF (op : BitVec 496) (o n : Nat) : Nat := op.toNat / 2 ^ (8 * o) % 2 ^ (8 * n)
/-- The context number a command names. -/
def opCx (op : BitVec 496) : Nat := opF op 0 1

/-- A command completes: RESULT, REASON, BUSY clear, and PF MSI-X vector 0 (R456). -/
def State.mbEnd (s : State) (result reason : Nat) : State :=
  (s.modGuide fun g => { g with busy := false, waitInv := none, result := BitVec.ofNat 4 result, reason := BitVec.ofNat 32 reason }).msix 0 0
/-- R457: a command is checked completely, then acts; the first check that fails gives its REASON. The Guide must be running,
and no earlier command under way. `k` completes the command itself. -/
def State.commandBy (s : State) (conds : List (Bool × Nat)) (k : State → State) : Out :=
  .next (if !s.guide.rdy || s.guide.waitInv.isSome then s
  else match conds.find? fun c => !c.1 with
    | some c => s.mbEnd 1 c.2
    | none => k s)
/-- The same for a command that completes as it acts. -/
def State.command (s : State) (conds : List (Bool × Nat)) (k : State → State) : Out := s.commandBy conds fun s => (k s).mbEnd 0 0

/-- The context number is in range, and its state is one of a list (REASON 1). -/
def State.cxIn (s : State) (cxn : Nat) (l : List CxState) : Bool × Nat := (decide (cxn < 32) && l.contains (s.ctx cxn).state, 1)
/-- The context number is that of a context that is not Free. -/
def State.cxHeld (s : State) (cxn : Nat) : Bool × Nat := (decide (cxn < 32) && (s.ctx cxn).state.held, 1)
/-- A block of the region of some context, or of a named one. -/
def Ctx.ownsBlock (c : Ctx) (b : Nat) : Bool := c.state.held && c.runs.any fun r => decide (r.1 ≤ b) && decide (b < r.1 + r.2)
/-- R458: n bytes in local HBM outside every context's region. -/
def State.spare (s : State) (dpa n : Nat) : Bool :=
  decide (dpa + n ≤ hbmTop) && (List.range ((dpa + n - 1) / 2 ^ 29 - dpa / 2 ^ 29 + 1)).all fun k =>
    (List.range 32).all fun c => !(s.ctx c).ownsBlock (dpa / 2 ^ 29 + k)
/-- REASON 11: an address of n bytes that a command names (R458). -/
def State.addrOk (s : State) (a n align : Nat) : Bool × Nat := (s.spare a n && decide (a % align = 0), 11)
/-- Data for MBRES. -/
def State.mbData (s : State) (v : Nat) : State := s.modGuide fun g => { g with mbres := BitVec.ofNat 512 v }

/-- UNKNOWN_COMMAND: RESULT 2. -/
def execUnknownCommand (_code : BitVec 16) (s : State) : Out := .next (if !s.guide.rdy || s.guide.waitInv.isSome then s else s.mbEnd 2 0)

/-! Settings (R458). -/

def execSetquant (op : BitVec 496) (s : State) : Out :=
  s.command [s.cxHeld (opCx op)] fun s => s.modCtx (opCx op) fun c => { c with quant := BitVec.ofNat 32 (opF op 1 4) }
def execSetpcal (op : BitVec 496) (s : State) : Out :=
  s.command [s.cxHeld (opCx op)] fun s => s.modCtx (opCx op) fun c => { c with pcal := BitVec.ofNat 32 (opF op 1 4) }
def execPcread (op : BitVec 496) (s : State) : Out :=
  s.command [s.cxHeld (opCx op), (decide (opF op 1 1 < 32), 11)] fun s => s.mbData (vget (s.ctx (opCx op)).perf (opF op 1 1) 0).toNat
def execDevnum (op : BitVec 496) (s : State) : Out :=
  s.command [(decide (opF op 0 2 ≤ 16383), 11), ((List.range 32).all fun n => !(s.ctx n).state.held, 18)] fun s =>
    s.modGuide fun g => { g with devnum := opF op 0 2 }

/-! SHARES (R432, R458), and what attests a context's resources (R426). -/

/-- Measurement block 17 of a context as it stands: SHA-512 of DCN, CLMASK, HRGN and SHR, 8 bytes each. -/
def State.attestation (s : State) (cxn : Nat) : BitVec 512 :=
  digestOf (sha512 (leBytes 8 (s.ctx cxn).dcn.toNat ++ leBytes 8 (s.ctx cxn).clmask.toNat ++ leBytes 8 (((s.cxReg cxn 5).map fun v => v.1.toNat).getD 0)
    ++ leBytes 8 (((s.cxReg cxn 6).map fun v => v.1.toNat).getD 0)))
/-- The block recomputed, at a BIND, a RESUME, a REBIND and a change of shares. -/
def State.attest (s : State) (cxn : Nat) : State := s.modCtx cxn fun c => { c with block17 := s.attestation cxn }

/-- R432. Staged slots and the slots of contexts that are not Free are held. -/
def State.sharesOk (s : State) (cxn tok frw : Nat) (mask : BitVec 256) : Bool :=
  let others := (List.range 32).filter fun n => n != cxn
  decide (1 ≤ tok) && decide (tok + (others.filter fun n => (s.ctx n).state.held).foldl (fun a n => a + (s.ctx n).tok) 0 ≤ 1003520)
    && mask != 0 && decide (mask.toNat < 2 ^ 248) && decide (1 ≤ frw)
    && others.all fun n =>
        (!(s.ctx n).state.held || (s.ctx n).slotMask &&& mask == 0) && (match (s.ctx n).stagedSlots with
          | some x => x.2.1 &&& mask == 0
          | none => true)
def execShares (op : BitVec 496) (s : State) : Out :=
  let n := opCx op
  let frw := opF op 1 1
  let tok := opF op 2 4
  let mask := BitVec.ofNat 256 (opF op 6 32)
  s.command [(decide (n < 32), 1), (s.sharesOk n tok frw mask, 4)] fun s =>
    if (s.ctx n).state.held then ((s.modCtx n fun c => { c with tok := tok, slotMask := mask, frw := frw }).changeTable).attest n
    else s.modCtx n fun c => { c with stagedSlots := some (tok, mask, frw) }

/-! Events (R459). -/

/-- EVREAD: the oldest event; a record that waited for room enters. -/
def execEvread (_op : BitVec 496) (s : State) : Out :=
  s.command [(!s.guide.events.isEmpty, 17)] fun s =>
    match s.guide.events with
    | [] => s
    | e :: rest =>
      s.modGuide fun g =>
        let g1 := { g with mbres := e, events := rest }
        match g1.backlog with
        | [] => g1
        | b :: bs => ({ g1 with backlog := bs } : Guide).post b true

end Sys2Proof.Machine
end

