-- ==== Sys2Proof/Machine/Paging.lean ====
section
/-! DEFINITION. Translation as events and commands change it: invalidations (R400 to R403), windows, tracking and generations (R404,
R413 to R415), format ranges (R416), tier fetches (R409, R410) and accesses from peers (R405). -/
namespace Sys2Proof.Machine

/-! Invalidations (R402). -/

/-- What an invalidation covers. -/
inductive InvScope where
  | s1All
  | s1Page (va : Nat)
  | s2All
  | s2Page (ipa : Nat)
  | win (k : Nat)
deriving DecidableEq, Repr

/-- What a translation has used is what an invalidation drops. A page of stage 2 is used by the walk of stage 1 too. -/
def InvScope.drops : InvScope → Used → Bool
  | .s1All, .s1 _ _ _ => true
  | .s1Page p, .s1 g _ sh => 65536 * g / 2 ^ sh == p / 2 ^ sh
  | .s2All, .s2 _ _ _ _ => true
  | .s2Page p, .s2 _ _ l _ => l.any fun x => x.1 / 2 ^ x.2 == p / 2 ^ x.2
  | .win w, .s2 _ _ _ k => k == some w
  | _, _ => false
/-- A translation of a page under a generation. -/
def Used.of (page gen : Nat) : Used → Bool
  | .s1 p g _ => p == page && g == gen
  | .s2 p g _ _ => p == page && g == gen
/-- An access at an address may have been translated with what is being dropped. -/
def State.invCovers (s : State) (cxn : Nat) (k : InvScope) (gen va : Nat) : Bool :=
  match k with
  | .s1All => true
  | .s2All => true
  | k => ((s.ctx cxn).used ++ s.usedNow cxn gen va).any fun u => u.of (va / 65536) gen && k.drops u
/-- A cached descriptor that an invalidation drops. -/
def State.descDropped (s : State) (k : InvScope) (d : Desc) : Bool :=
  match k with
  | .s2All => true
  | .s2Page p => p / 2 ^ d.shift * 2 ^ d.shift == d.base
  | .win w => (match s.desc d.addr with
    | some (e, _) => decide (e % 4 = 1) && decide (bits e 3 2 ≠ 0) && bits e 63 58 == w
    | none => true)
  | _ => false
/-- An XFETCH waits for a page whose tier fetch has failed (R410): it is to be translated again (R412) and is not in flight. -/
def State.fetchFailed (s : State) (cxn : Nat) (x : Copy) : Bool :=
  decide (x.form = .xfetch) && x.waitTier.any fun f => (aget? (s.ctx cxn).tiers f).isNone
/-- What of a core's job may have used a translation. -/
def State.coreWatch (s : State) (cxn : Nat) (k : InvScope) (gen n : Nat) : List Watch :=
  let c := s.core n
  ((c.psb.filter fun l => s.invCovers cxn k gen l.va).map fun l => Watch.line n l.va c.allocs)
    ++ ((c.copies.filter fun x => !s.fetchFailed cxn x && ((if x.matched then [] else x.srcs) ++ x.moves ++ x.slots.flatMap (·.moves)).any fun m => [m.dst, m.src].any fun e => match e with
        | .cm va _ _ => s.invCovers cxn k x.gen va
        | _ => false).map fun x => Watch.copy n x.tag x.issue)
    ++ ((c.strong.filter fun x => !x.done && s.invCovers cxn k gen x.va).map fun x => Watch.strong n x.id)
/-- A tier fetch under way was translated with what is being dropped (R402, R409). -/
def State.tierCovered (s : State) (cxn : Nat) (k : InvScope) (t : Nat × Nat × W64 × Nat × Nat) : Bool :=
  let u := (s.ctx cxn).used
  let pages := u.filterMap fun x => match x with
    | .s2 p g l _ => if l.any fun y => y.1 / 65536 == t.2.2.2.1 then some (p, g) else none
    | .s1 _ _ _ => none
  u.any fun x => k.drops x && pages.any fun y => x.of y.1 y.2
/-- Everything an invalidation of a context must wait for. -/
def State.watches (s : State) (cxn : Nat) (k : InvScope) : List Watch :=
  let c := s.ctx cxn
  (c.insts.flatMap fun i =>
    (i.cores.flatMap fun n => s.coreWatch cxn k i.gen n) ++ ((i.slots.filter fun z => s.invCovers cxn k i.gen z.ea).map fun z => Watch.slot i.handle z.ea))
    ++ ((List.range 16).flatMap fun q => ((c.queue q).strong.filter fun x => s.invCovers cxn k c.cg x.va).map fun x => Watch.thread q x.clk)
    ++ ((c.tiers.filter fun t => s.tierCovered cxn k t).map fun t => Watch.tier t.1)
/-- It is still there. -/
def State.watchLeft (s : State) (cxn : Nat) : Watch → Bool
  | .line n va k => (s.core n).psb.any fun l => l.va == va && decide (l.born < k)
  | .copy n t i => (s.core n).copies.any fun x => x.tag == t && x.issue == i && !s.fetchFailed cxn x
  | .strong n id => (s.core n).strong.any fun x => x.id == id && !x.done
  | .thread q clk => (s.queue cxn q).strong.any (·.clk == clk)
  | .slot h ea => ((s.inst? cxn h).map fun i => i.slots.any (·.ea == ea)).getD false
  | .tier key => (aget? (s.ctx cxn).tiers key).isSome
/-- Nothing is left of what an invalidation waits for. -/
def State.invDone (s : State) (cxn : Nat) (l : List Watch) : Bool := l.all fun w => !s.watchLeft cxn w

/-- A stage-1 invalidation begins (R400). -/
def State.startS1Inv (s : State) (cxn : Nat) (k : InvScope) : State :=
  s.modCtx cxn fun c => { c with s1inv := some (s.watches cxn k), used := c.used.filter fun u => !k.drops u }
/-- A stage-2 invalidation begins; one that is under way goes on too. -/
def State.startS2Inv (s : State) (cxn : Nat) (k : InvScope) : State :=
  s.modCtx cxn fun c =>
    { c with s2inv := some (c.s2inv.getD [] ++ s.watches cxn k), used := c.used.filter (fun u => !k.drops u), descs := c.descs.filter fun d => !s.descDropped k d }
/-- A command that completes when the context's invalidation does. -/
def State.awaitInv (s : State) (cxn : Nat) (k : InvScope) : State := (s.startS2Inv cxn k).modGuide fun g => { g with waitInv := some cxn }

/-- S1INV_COMPLETE: BUSY clears. -/
def execS1invComplete (cxn : Nat) (s : State) : Out :=
  .next (match (s.ctx cxn).s1inv with
    | some l => if s.invDone cxn l then s.modCtx cxn fun c => { c with s1inv := none } else s
    | none => s)
/-- INVALIDATION_COMPLETE: a stage-2 invalidation completes, and with it the command that awaits it. -/
def execInvalidationComplete (cxn : Nat) (s : State) : Out :=
  .next (match (s.ctx cxn).s2inv with
    | some l =>
      if s.invDone cxn l then
        let s1 := s.modCtx cxn fun c => { c with s2inv := none }
        if s.guide.waitInv = some cxn then s1.mbEnd 0 0 else s1
      else s
    | none => s)
/-- TRANSLATION_COMPLETE (R348): the walk a group waited for has ended; the reason of PRSN bit 1 ends. -/
def execTranslationComplete (cxn : Nat) (s : State) : Out :=
  .next ((s.ctx cxn).insts.foldl (fun t i => i.groups.foldl (fun t g => t.modGroup cxn i.handle g.gidx (·.unpause 1)) t) s)

/-! Commands (Table 16-5). -/

def execS2root (op : BitVec 496) (s : State) : Out :=
  s.commandBy [s.cxHeld (opCx op), s.addrOk (opF op 1 8) 65536 65536] fun s =>
    (s.awaitInv (opCx op) .s2All).modCtx (opCx op) fun c => { c with s2root := opF op 1 8 }
def execS2inv (op : BitVec 496) (s : State) : Out :=
  s.commandBy [s.cxHeld (opCx op), (decide (opF op 1 1 < 2), 11)] fun s =>
    s.awaitInv (opCx op) (if opF op 1 1 = 0 then .s2Page (opF op 2 8) else .s2All)
def execWinset (op : BitVec 496) (s : State) : Out :=
  s.commandBy [s.cxHeld (opCx op), (decide (opF op 1 1 < 64), 11)] fun s =>
    (s.awaitInv (opCx op) (.win (opF op 1 1))).modCtx (opCx op) fun c =>
      { c with wins := aset c.wins (opF op 1 1) (BitVec.ofNat 128 (opF op 2 16 / 2 ^ 64 * 2 ^ 64 + opF op 2 16 % 2 ^ 16)) }
def execTrack (op : BitVec 496) (s : State) : Out :=
  s.command [s.cxHeld (opCx op)] fun s => s.modCtx (opCx op) fun c => { c with track := op.getLsbD 8 }
/-- SETGEN (R413, R414). -/
def execSetgen (op : BitVec 496) (s : State) : Out :=
  let n := opCx op
  let g := opF op 1 1
  s.command [s.cxHeld n, (g == (s.ctx n).cg || !(s.ctx n).heldGens.contains g, 8)] fun s =>
    if g = (s.ctx n).cg then s
    else (s.modCtx n fun c => { c with cg := g }).genNotices n [(s.ctx n).cg]

/-! Format ranges (R416). -/

/-- The bytes of a QC4 range's scale records. -/
def scaleBytes (size : Nat) : Nat := (size * 2 + 16383) / 16384 * 260
def State.rangeOk (s : State) (k fmt base size sc : Nat) : Bool :=
  decide (fmt ≤ 4) && decide (base + size ≤ hbmTop) && (fmt == 0 ||
    (decide (base + fmtX fmt * size ≤ 2 ^ 51)
      && (List.range 64).all fun j =>
          let r := vget s.guide.ranges j .reset
          j == k || r.fmt == 0 || decide (base + fmtX fmt * size ≤ r.base) || decide (r.base + fmtX r.fmt * r.size ≤ base)))
    && (decide (fmt ≠ 1 ∧ fmt ≠ 2) || decide (sc + scaleBytes size ≤ hbmTop))
def execFrset (op : BitVec 496) (s : State) : Out :=
  let k := opF op 0 1
  let base := opF op 2 8 / 65536 * 65536
  let size := opF op 10 8 / 65536 * 65536
  let sc := opF op 18 8 / 4 * 4
  s.command [(decide (k < 64), 11), (s.rangeOk k (opF op 1 1) base size sc, 9)] fun s =>
    s.modGuide fun g => { g with ranges := g.ranges.setIfInBounds k { base := base, size := size, scale := sc, fmt := opF op 1 1 } }
def execFrclr (op : BitVec 496) (s : State) : Out :=
  let k := opF op 0 1
  s.command [(decide (k < 64), 11)] fun s =>
    s.modGuide fun g => { g with ranges := g.ranges.setIfInBounds k { vget g.ranges k .reset with fmt := 0 } }

/-! Tier fetches (R409, R410). -/

/-- The tier fetch under way for the page of an IPA: key, leaf address, leaf value. -/
def Ctx.tierAt (c : Ctx) (ipa : Nat) : Option (Nat × Nat × Nat) :=
  (c.tiers.find? fun x => x.2.2.2.1 == ipa / 65536).map fun x => (x.1, x.2.1, x.2.2.1.toNat)
/-- Where the page's bytes come from (R404). -/
def State.tierSource (s : State) (cxn ipa leaf : Nat) : Phys :=
  let w := (s.ctx cxn).window (bits leaf 63 58)
  let a := (w.2.2.2 + ipa / 65536 * 65536) % 2 ^ 64
  if w.2.1 = 0 then .peer w.2.2.1 a else .host a
/-- The source serves every byte of the page. -/
def State.tierServed (s : State) (cxn ipa leaf : Nat) : Bool :=
  ((s.ctx cxn).window (bits leaf 63 58)).1 && (List.range 4096).all fun k => !s.refused cxn ((s.tierSource cxn ipa leaf).add (16 * k)) false true
/-- A page is no longer waited for. -/
def Copy.tierDone (x : Copy) (key : Nat) : Copy := { x with waitTier := x.waitTier.filter (· != key) }
def Ctx.runCores (c : Ctx) : List Nat := c.insts.flatMap (·.cores)
/-- TIER_FETCH_COMPLETE: the frame's bytes have landed; the leaf's TGT becomes local when the leaf is as the fetch read it, D apart. -/
def State.tierLand (s : State) (cxn ipa : Nat) : State :=
  match (s.ctx cxn).tierAt ipa with
  | none => s
  | some (key, la, lv) =>
    if !s.tierServed cxn ipa lv then s
    else
      let src := s.tierSource cxn ipa lv
      let cur := leNat (s.hbm.read la 8)
      let same := cur / 256 = lv / 256 ∧ cur % 128 = lv % 128
      let s1 := s.physWrite cxn (.hbm (tierFrame key * 65536) (if same then la else 0))
        (((List.range 65536).map fun k => (s.physByte (src.add k), s.physTaint1 (src.add k))))
      let s2 := if same then ({ s1 with hbm := s1.hbm.set la (s1.hbm.get la &&& 0xF3) } : State).llcWrite la 1 else s1
      ((s2.ctx cxn).runCores.foldl (fun t n => t.modCore n fun c => { c with copies := c.copies.map (·.tierDone key) }) s2).modCtx cxn fun c =>
        { c with tiers := c.tiers.filter (·.1 != key) }
def execTierFetchComplete (cxn ipa : Nat) (s : State) : Out := .next (s.tierLand cxn ipa)

/-- The first source byte of a copy on an absent page, with the IPA it translated to and the leaf's level. -/
def Copy.tierByte (x : Copy) (key : Nat) : Option (Nat × Nat × Nat) :=
  match x.moves.find? (fun m => match m.src with
    | .cm _ (.hbm d l) _ => d / 65536 == tierFrame key && l == key / 2 ^ 40
    | _ => false), aget? x.tierAs key with
  | some m, some p => some (m.src.va, 65536 * p.1 + m.src.va % 65536, p.2)
  | _, _ => none
/-- TIER_FETCH_FAILED: the source refuses or the link fails; a waiting XFETCH raises cause 17 with reason 5. -/
def State.tierFail (s : State) (cxn ipa : Nat) : State :=
  match (s.ctx cxn).tierAt ipa with
  | none => s
  | some (key, _, _) =>
    let s1 := s.modCtx cxn fun c => { c with tiers := c.tiers.filter (·.1 != key) }
    (s1.ctx cxn).runCores.foldl (fun t n =>
      match (t.core n).copies.find? fun x => x.form == .xfetch && x.waitTier.contains key with
      | none => t
      | some x =>
        match x.tierByte key with
        | some (va, ia, lvl) => t.take (.job n .X) 17 va (some (mkRec va ia 4 lvl false 5 x.gen))
        | none => t) s1
def execTierFetchFailed (cxn ipa : Nat) (s : State) : Out := .next (s.tierFail cxn ipa)
/-- The pages that a core's XFETCH waits for and whose fetch has failed while its job stood stopped: the cause is met once it goes on. -/
def State.raiseFailed (s : State) (cxn n : Nat) : State :=
  if (s.core n).retrans then s
  else
    ((s.core n).copies.filter (s.fetchFailed cxn)).foldl (fun t x =>
      (x.waitTier.filter fun k => (aget? (s.ctx cxn).tiers k).isNone).foldl (fun t k =>
        match x.tierByte k with
        | some (va, ia, lvl) => t.take (.job n .X) 17 va (some (mkRec va ia 4 lvl false 5 x.gen))
        | none => t) t) s
/-! Accesses from peers (R405). -/

/-- The operation of an OPC of 1 to 12 (Table 15-4). -/
def atomicOf (opc : Nat) : StrongOp :=
  match opc with
  | 10 => .cas
  | 11 => .cas16
  | 12 => .fadd
  | k => .rmw k
/-- An answer to a peer; whether the access came with a congestion mark, which the answer echoes, is not known here: a free value (log 5). -/
def State.answerPeer (s : State) (dcn kind : Nat) (bytes : List (Byte × Bool)) : State :=
  (s.send (.peerAnswer dcn kind (Config.freeBit s.free) bytes)).tick 1
/-- R367: a peer's atomic is performed at its line's home slice here, in one step; the old value goes back. The message holds the operand and
then, for a compare, the value to compare with. Whether it comes of a kernel with DET = 1, which raises no taint event (R374), is not known here: a
free value (log 5). -/
def State.peerAtomic (s : State) (dcn dpa opc : Nat) (bytes : List Byte) : State :=
  let op := atomicOf opc
  let size := if opc = 10 ∨ opc = 11 then bytes.length / 2 else bytes.length
  let us := s.outsideOpen dpa size
  let s0 := s.undefine us
  let old := s0.physRead (.hbm dpa 0) size
  let oldT := s0.physTaint (.hbm dpa 0) size
  let r := strongValue op size (leNat old) (leNat (bytes.take size)) (leNat (bytes.drop size))
  let t := op.taint oldT (Config.freeBit s0.free)
  let s1 := s0.tick 1
  let s2 := match r.1 with
    | some v => s1.physWrite 0 (.hbm dpa noLeaf) (tainted t (leBytes size v))
    | none => s1
  let s3 := (s2.undefine us).outsideDone dpa size (if op.reads then some (leNat old) else none) r.1
  (if op = .fadd ∧ !Config.freeBit (s0.free + 1) then (s3.tick 1).lineAdded dpa else s3).answerPeer dcn 3 (tainted t old)
/-- PEER_REQUEST: performed where the Guide has opened a window to the requester, refused elsewhere (log 5). An atomic's offset carries its OPC
in bits 58:55, above every context address. -/
def State.fromPeer (s : State) (dcn off : Nat) (write : Bool) (bytes : List Byte) : State :=
  let opc := bits off 58 55
  let off := off % 2 ^ 55
  match Config.openWindow dcn off write with
  | some dpa =>
    if decide (dpa + bytes.length ≤ hbmTop) then
      (if write ∧ 1 ≤ opc ∧ opc ≤ 12 then s.peerAtomic dcn dpa opc bytes
       else if write then (((s.tick 1).physWrite 0 (.hbm dpa noLeaf) (tainted (Config.freeBit s.free) bytes)).plainWrote (s.ctxAt dpa) (.hbm dpa noLeaf) bytes.length).answerPeer dcn 2 []
       else s.answerPeer dcn 3 ((List.range bytes.length).map fun k => (s.physByte (.hbm (dpa + k) 0), s.physTaint1 (.hbm (dpa + k) 0))))
    else s.answerPeer dcn 4 []
  | none => s.answerPeer dcn 4 []
/-- A fabric port carries traffic (R420). -/
def State.fabricLive (s : State) : Bool := (List.range 24).any s.portLive
/-- PEER_REQUEST: one that no port carries does not arrive. -/
def execPeerRequest (dcn off : Nat) (write : Bool) (bytes : List Byte) (s : State) : Out :=
  .next (if s.fabricLive then s.fromPeer dcn off write bytes else s)

end Sys2Proof.Machine
end

