-- ==== Sys2Proof/Machine/HostPort.lean ====
section
/-! DEFINITION. What the host does to the device: BAR0 of a virtual function (R302, R305, R400, R422), BAR2 (R89, R407, R423) and the
physical aperture (R408). -/
namespace Sys2Proof.Machine

/-- The context bound to a virtual function. -/
def State.byVf (s : State) (vf : Nat) : Option Nat :=
  if vf = 0 then none else (List.range 32).find? fun n => (s.ctx n).state.held && (s.ctx n).vf == vf

/-! Starting a queue (R302, R305). -/

/-- The cluster of a queue's thread, if the slice has one at its position. -/
def Ctx.threadCluster (c : Ctx) (q : Nat) : Option Nat := c.clusters[q / 4]?
/-- The queue's instances that have not ended become Faulted with CAUSE 0 (R319). -/
def State.endInstances (s : State) (cxn q : Nat) : State :=
  (((s.ctx cxn).insts.filter fun i => i.q == q && i.state.live).map (·.handle)).foldl (fun t h => t.faultInst cxn h 0) s
/-- A queue as it starts at an entry address. -/
def Queue.start (k : Queue) (entry : W64) : Queue :=
  { Queue.reset with state := .running, launched := k.launched, thread := { Stream.reset with pc := entry } }
def State.qstart (s : State) (cxn q : Nat) (v : W64) : State :=
  let c := s.ctx cxn
  let k := c.queue q
  if !(k.state == .idle || k.state == .halted || k.state == .faulted) || !(c.state == .bound || c.state == .running) then s
  else if (c.threadCluster q).isNone then s.modQueue cxn q fun k => { k with lastCause := 10 }
  else
    let s1 := (s.endInstances cxn q).modQueue cxn q (·.start (BitVec.ofNat 64 (W64.f v 54 2 * 4)))
    if c.state = .bound then s1.cxGoto cxn .running else s1
/-- QSTART_WRITE. -/
def execQstartWrite (vf q : Nat) (val : W64) (s : State) : Out :=
  .next (match s.byVf vf with
    | some n => if q < 16 then s.qstart n q val else s
    | none => s)

/-! Stage 1 (R400). -/

/-- Bits of S1ROOT that are not reserved. -/
def s1rootMask : W64 := 0x000FFFFFFFFF0001
/-- S1ROOT_WRITE: acts as an S1INV of scope 1. -/
def execS1rootWrite (vf : Nat) (val : W64) (s : State) : Out :=
  .next (match s.byVf vf with
    | some n => (s.startS1Inv n .s1All).modCtx n fun c => { c with s1root := val &&& s1rootMask }
    | none => s)
/-- S1INV_WRITE: ignored while BUSY. -/
def execS1invWrite (vf : Nat) (val : W64) (s : State) : Out :=
  .next (match s.byVf vf with
    | some n =>
      if (s.ctx n).s1inv.isSome then s
      else s.startS1Inv n (if val.getLsbD 0 then .s1All else .s1Page (W64.f val 54 16 * 65536))
    | none => s)

/-! BAR2 (R89, R407, R423). -/

/-- First address past what BAR2 reaches (R422). -/
def bar2Top : Nat := 2 ^ 40
/-- HOST_WRITE: part by part, in ascending address. -/
def execHostWrite (vf off : Nat) (bytes : List Byte) (s : State) : Out :=
  .next (match s.byVf vf with
    | some n =>
      if bar2Top < off + bytes.length then s
      else (pieces off bytes.length).foldl (fun t p => t.hostPart n p.1 (.write ((bytes.drop (p.1 - off)).take p.2))) s
    | none => s)
/-- Where a host read of a part is served (R407): local bytes that the leaf lets be read, a decoded view included. -/
def State.hostReadAt (s : State) (cxn ipa : Nat) : Option Phys :=
  match s.s2 cxn (s.ctx cxn).cg ipa with
  | .leaf l =>
    if l.tgt ≠ 0 ∨ !l.r then none
    else if inHbm l.out then (if s.physPoison1 (.hbm l.out 0) = 0 then some (.hbm l.out l.addr) else none)
    else if inView l.out ∧ (s.rangeAt l.out).isSome ∧ s.physPoison1 (.view l.out) = 0 then some (.view l.out)
    else none
  | _ => none
/-- HOST_READ. -/
def execHostRead (vf off len : Nat) (s : State) : Out :=
  .next (match s.byVf vf with
    | some n =>
      if bar2Top < off + len then s.send (.unsupported vf)
      else
        match (pieces off len).find? fun p => (s.hostReadAt n p.1).isNone with
        | some p => (s.hostPark n p.1).hostError n p.1
        | none =>
          s.send (.completion vf ((pieces off len).flatMap fun p => match s.hostReadAt n p.1 with
            | some ph => s.physRead ph p.2
            | none => []))
    | none => s.send (.unsupported vf))
/-- Device Capabilities 2 as it reports the AtomicOp completer of Table 17-3 (R422): 32 bits, 64 bits, and a CAS of 128 bits. -/
def deviceCaps2 : Nat := packed [(1, 7), (1, 8), (1, 9)]
/-- The AtomicOps of Table 17-3: size in bytes and natural alignment. -/
def hostAtomicOk (op : HostAtomic) (size off : Nat) : Bool :=
  ((size == 4 && nbit deviceCaps2 7) || (size == 8 && nbit deviceCaps2 8) || (size == 16 && op == .cas && nbit deviceCaps2 9)) && decide (off % size = 0)
/-- HOST_ATOMICOP. -/
def execHostAtomicop (vf off : Nat) (op : HostAtomic) (size : Nat) (x y : BitVec 128) (s : State) : Out :=
  .next (match s.byVf vf with
    | some n =>
      if bar2Top < off + size ∨ !hostAtomicOk op size off then s.send (.unsupported vf)
      else s.hostPart n off (.atomic op size x y)
    | none => s.send (.unsupported vf))

/-! The physical aperture (R408). -/

/-- PF_BAR2_ACCESS. -/
def execPfBar2Access (off : Nat) (acc : ApertureAccess) (s : State) : Out :=
  .next (match acc with
    | .read len =>
      if hbmTop < off + len then s.send (.unsupported 0)
      else if s.physPoison (.hbm off 0) len ≠ 0 then s.send (.abort 0)
      else s.send (.completion 0 (s.physRead (.hbm off 0) len))
    | .write bytes => if hbmTop < off + bytes.length then s else ((s.physWrite 0 (.hbm off noLeaf) (tainted false bytes)).plainWrote (s.ctxAt off) (.hbm off noLeaf) bytes.length).untaint off bytes.length
    | .atomic op size x y =>
      if hbmTop < off + size ∨ !hostAtomicOk op size off then s.send (.unsupported 0)
      else if s.physPoison (.hbm off 0) size ≠ 0 then s.send (.abort 0)
      else s.hostAtomic 0 0 off noLeaf op size x y)

/-! What a host read of BAR0 of a virtual function returns (R422). -/

/-- QSTATEq (Table 11-1). -/
def Queue.qstate (k : Queue) : W64 := BitVec.ofNat 64 (k.lastCause.toNat * 2 ^ 26 + min k.faults.length 255 * 2 ^ 8 + k.state.code)
/-- 8 bytes of a function's MSI-X table of n vectors or of its pending bits. -/
def Guide.msixReg (g : Guide) (fn n off : Nat) : W64 :=
  if 0x1000 ≤ off ∧ off + 8 ≤ 0x1000 + 16 * n then BitVec.ofNat 64 (leNat ((List.range 8).map fun k => g.msixByte fn (off + k)))
  else if off = 0x2000 then BitVec.ofNat 64 ((g.msixPend.filter (·.1 == fn)).foldl (fun a x => a + 2 ^ x.2) 0)
  else 0
/-- An 8-byte register of a virtual function's BAR0; what is write-only, or is no register, reads zero. -/
def State.vfReg (s : State) (vf off : Nat) : W64 :=
  match s.byVf vf with
  | none => 0
  | some n =>
    let c := s.ctx n
    if off < 0x100 then (if off % 16 = 8 then (c.queue (off / 16)).qstate else 0)
    else if off = 0x200 then c.s1root
    else if off = 0x210 then BitVec.ofNat 64 (bitAt c.s1inv.isSome 0)
    else if off = 0x218 then BitVec.ofNat 64 c.cg
    else s.guide.msixReg vf 64 off

end Sys2Proof.Machine
end

