-- ==== Sys2Proof/Machine/Links.lean ====
section
/-! DEFINITION. The host port and the fabric ports (R420, R421, R435). -/
namespace Sys2Proof.Machine

def PortState.code : PortState → Nat
  | .down => 0 | .training => 1 | .up => 2 | .degraded => 3 | .draining => 4 | .failed => 5
/-- PORTSTSn (Table 17-2). -/
def Port.sts (p : Port) : Nat := p.replays.toNat * 2 ^ 32 + p.width.toNat * 2 ^ 8 + p.state.code
def State.port (s : State) (k : Nat) : Port := vget s.guide.ports k .reset
def State.setPort (s : State) (k : Nat) (p : Port) : State := s.modGuide fun g => { g with ports := g.ports.setIfInBounds k p }
/-- The event of a port state change (Table 19-7). -/
def State.portEvent (s : State) (k : Nat) : State := s.event 6 0 0 (k + (s.port k).sts * 2 ^ 64)
/-- A row of Table 17-1: from one of some states, to a port, with an event. -/
def State.portRow (s : State) (k : Nat) (l : List PortState) (f : Port → Port) : State :=
  if k < 25 ∧ l.contains (s.port k).state then (s.setPort k (f (s.port k))).portEvent k else s

/-- TRAINING_COMPLETE. -/
def execTrainingComplete (port width : Nat) (full : Bool) (s : State) : Out :=
  .next (s.portRow port [.training] fun p => { p with state := if full then .up else .degraded, width := BitVec.ofNat 8 width })
/-- TRAINING_FAILED. -/
def execTrainingFailed (port : Nat) (s : State) : Out := .next (s.portRow port [.training] fun p => { p with state := .failed })
/-- LANES_LOST. -/
def execLanesLost (port width : Nat) (s : State) : Out :=
  .next (s.portRow port [.up] fun p => { p with state := .degraded, width := BitVec.ofNat 8 width })
/-- LINK_LEVEL_REPLAY: REPLAYS counts, saturating. -/
def execLinkLevelReplay (port : Nat) (s : State) : Out :=
  .next (if port < 25 then s.setPort port { s.port port with replays := BitVec.ofNat 32 (min ((s.port port).replays.toNat + 1) (2 ^ 32 - 1)) } else s)

/-- Transactions of this device with a peer are under way. -/
def State.busyWith (s : State) (dev : Nat) : Bool :=
  let there := fun (p : Phys) => match p with
    | .peer d _ => d == dev
    | _ => false
  (s.cores.any fun x =>
    (x.2.copies.any fun y => ((y.moves ++ y.srcs ++ y.slots.flatMap (·.moves)).any fun m => [m.dst, m.src].any fun l => ((l.phys?).map there).getD false)
        || (y.form.isColl && !y.matched && y.ranks.any fun k => !s.localRank k && bits k 13 0 == dev))
      || (x.2.strong.any fun y => !y.done && there y.loc) || x.2.psb.any fun y => there y.loc)
    || s.live.any fun n =>
      let c := s.ctx n
      (c.queues.toList.any fun k => k.strong.any fun y => there y.loc)
        || c.tiers.any fun t => there (s.tierSource n (65536 * t.2.2.2.1) t.2.2.1.toNat)
/-- A place that only a draining port k still reaches. -/
def State.onlyBy (s : State) (k : Nat) (p : Phys) : Bool :=
  match p with
  | .peer d _ => decide (k < 24) && nbit ((aget? s.guide.routes d).getD 0) k && !s.routed d
  | .host _ => k == 24
  | _ => false
/-- Transactions that have set out through a port, and can go on through no other, are in flight: strong accesses not yet performed, and
copies whose lines have left. -/
def State.inFlight (s : State) (k : Nat) : Bool :=
  let there := fun (m : Move) => [m.dst, m.src].any fun l => ((l.phys?).map (s.onlyBy k)).getD false
  (s.cores.any fun x =>
    (x.2.strong.any fun y => !y.done && s.sent (.job x.1 y.e) y && s.onlyBy k y.loc)
      || x.2.copies.any fun y => y.fell.isNone && s.unsent x.1 y.tag == 0 && (y.moves ++ y.slots.flatMap (·.moves)).any there)
    || s.live.any fun n => (List.range 16).any fun q => (s.queue n q).strong.any fun y => s.sent (.thread n q) y && s.onlyBy k y.loc
/-- DRAIN_COMPLETE, once the last transaction is complete. -/
def execDrainComplete (port : Nat) (s : State) : Out :=
  .next (if s.inFlight port then s else s.portRow port [.draining] fun p => { p with state := .down })
/-- LINK_REPLAY_EXHAUSTED: the port fails. Transactions go again by another port of their route; where none is left they wait, and
the Guide is told (R435). -/
def execLinkReplayExhausted (port : Nat) (s : State) : Out :=
  .next (if port < 25 ∧ (s.port port).carries then
    let s1 := s.portRow port [.up, .degraded] fun p => { p with state := .failed }
    ((s.guide.routes.filter fun r => nbit r.2 port).map (·.1)).foldl (fun t dev =>
      if t.routed dev ∨ !t.busyWith dev then t else t.event 10 0 0 dev) s1
  else s)

/-! Commands (Table 19-5). -/

def execPortup (op : BitVec 496) (s : State) : Out :=
  let k := opF op 0 1
  s.command [(decide (k < 25), 11), ((s.port k).state == .down, 16)] fun s => s.setPort k { state := .training, replays := 0, width := (s.port k).width }
def execPortdrain (op : BitVec 496) (s : State) : Out :=
  let k := opF op 0 1
  s.command [(decide (k < 25), 11), ((s.port k).carries, 16)] fun s => s.setPort k { s.port k with state := .draining }
def execPortdown (op : BitVec 496) (s : State) : Out :=
  let k := opF op 0 1
  s.command [(decide (k < 25), 11), ((s.port k).state == .failed || (s.port k).state == .down, 16)] fun s => s.setPort k { s.port k with state := .down }
def execPortsts (op : BitVec 496) (s : State) : Out :=
  s.command [(decide (opF op 0 1 < 25), 11)] fun s => s.mbData (s.port (opF op 0 1)).sts
def execRouteset (op : BitVec 496) (s : State) : Out :=
  s.command [(decide (opF op 0 2 ≤ 16383), 11)] fun s => s.modGuide fun g => { g with routes := aset g.routes (opF op 0 2) (opF op 2 4 % 2 ^ 24) }

end Sys2Proof.Machine
end

