-- ==== Sys2Proof/Machine/Reliability.lean ====
section
/-! DEFINITION. Errors (R438 to R451), their banks and records, measurement registers (R424), and the module's thermal limits (R463). -/
namespace Sys2Proof.Machine

/-- Base die of a core (R14). -/
def coreDie (n : Nat) : Nat := n / 128

/-! Checkers (R438 to R440). -/

/-- A mismatch on a stream of a running job: the result is written nowhere, and the phase is cancelled (R439). One more in the cycle of such a
stop makes no other, and STRM names the first stream in order, the trail's record the first to arrive (DESIGN CHOICE, log 39). -/
def State.streamError (s : State) (n : Nat) (e : Engine) : State :=
  let t := s.report (coreDie n) (s.jobRec n e 0 1 28)
  match (s.core n).job, (s.core n).stop with
  | none, _ => s
  | some _, none => t.cancelTrap n e 28 0 (s.now n)
  | some _, some st =>
    if st.cause = 28 ∧ !st.held ∧ st.cycle = s.now n - 1 then
      t.modCore n fun c => { c with stop := some { st with strm := if engNum e < engNum st.strm then e else st.strm } }
    else s
/-- A cause met while a job stands stopped is kept, the lowest of several (R440, R11). -/
def Core.late (c : Core) (cause : Nat) (e : Engine) : Core :=
  { c with lateErr := match c.lateErr with
      | some (k, f) => if k ≤ cause then some (k, f) else some (cause, e)
      | none => some (cause, e) }
/-- A mismatch in what a stream of a job has set going: at once while the job runs, at its next ERET while it stands stopped. -/
def State.jobError (s : State) (n : Nat) (e : Engine) : State :=
  if (s.core n).stop.isSome then (s.report (coreDie n) (s.jobRec n e 0 1 28)).modCore n (·.late 28 e) else s.streamError n e
/-- A mismatch on a queue thread (R440). -/
def State.threadError (s : State) (cxn q : Nat) : State :=
  if (s.queue cxn q).state = .running then
    (s.report (((s.ctx cxn).threadCluster q).getD 0 / 8) { src := 0, sev := 1, unit := 0, cause := 28, cx := cxn + 1 }).endQueue cxn q .faulted 28
  else s
/-- A mismatch in an atomic at its home slice: memory is unchanged, and its issuer receives cause 28. -/
def State.atomicError (s : State) (ag : Agent) : State :=
  match s.nextStrong ag with
  | none => s
  | some x =>
    match ag with
    | .job n e =>
      let s1 := s.modCore n fun c => { c with pend := replaceAwait x.id x.e [] c.pend, strong := c.strong.filter (fun (y : Strong) => y.id != x.id) }
      -- of an access whose job has ended no job is left to stop
      if x.id < (s.core n).since ∨ (s.core n).job.isNone then s1.report (coreDie n) (s.jobRec n e 0 1 28) else s1.jobError n e
    | .thread cxn q => (s.modQueue cxn q fun k => { k with strong := k.strong.drop 1 }).threadError cxn q
/-- A mismatch at the close of a slot: the close will leave memory unchanged and poison the part. -/
def State.closeError (s : State) (part : Nat) : State :=
  let hit := (List.range 32).any fun c => (s.ctx c).insts.any fun i => i.slots.any fun z => z.dpa / 16 == part
  if hit then
    let s1 := (List.range 32).foldl (fun t c => t.modCtx c fun x =>
      { x with insts := x.insts.map fun (i : Inst) =>
          ({ i with slots := i.slots.map fun (z : Slot) => if z.dpa / 16 = part then { z with bad := true } else z } : Inst) }) s
    s1.report (dieOf (16 * part)) { src := 0, sev := 2, unit := homeSlice (16 * part), dpa := 16 * part }
  else s
/-- An element whose result is written nowhere (R438). -/
def Move.void (m : Move) : Move := { m with dst := .data [] 0 }
def voidFirst : List Move → List Move
  | [] => []
  | m :: ms => m.void :: ms
/-- The same of the slot of a fill or a drain that is under way. -/
def voidSlots : List CopySlot → List CopySlot
  | [] => []
  | z :: zs => if z.released || z.moves.isEmpty then z :: voidSlots zs else { z with moves := voidFirst z.moves } :: zs
/-- A copy whose next element has failed. -/
def Copy.spoil (x : Copy) : Copy := if x.form.isSlot then { x with slots := voidSlots x.slots } else { x with moves := voidFirst x.moves }
/-- A mismatch in a copy in flight: its element is not written. -/
def State.copyError (s : State) (n tag : Nat) : State :=
  match (s.core n).copy? tag with
  | none => s
  | some x => (s.modCore n (·.setCopy x.spoil)).jobError n .X
/-- PIPELINE_ERROR. -/
def execPipelineError (site : ErrSite) (s : State) : Out :=
  .next (match site with
    | .stream n e => s.streamError n e
    | .thread cxn q => s.threadError cxn q
    | .homeAtomic ag => s.atomicError ag
    | .homeClose p => s.closeError p
    | .copy n t => s.copyError n t)

/-! Memories (R445 to R448). -/

/-- SRAM_ECC_ERROR: corrected and recorded, or cause 34 in the job that reads the part. -/
def execSramEccError (core : Nat) (e : Engine) (double : Bool) (s : State) : Out :=
  .next (if !double then s.report (coreDie core) (s.jobRec core e 1 0 0)
  else if (s.core core).job.isNone then s
  -- what reads it of a stopped job is a copy in flight: the cause waits as in R440
  else if (s.core core).stop.isSome then (s.report (coreDie core) (s.jobRec core e 1 1 34)).modCore core (·.late 34 e)
  else (s.report (coreDie core) (s.jobRec core e 1 1 34)).cancelTrap core e 34 0 (s.now core))
/-- LLC_ECC_ERROR; `double` is an error that the code in force detects and cannot correct (two bits, or three under DEC-TED). -/
def execLlcEccError (part : Nat) (double dirty : Bool) (s : State) : Out :=
  .next (
    let r : ErrRec := { src := 2, sev := 0, unit := homeSlice (16 * part), dpa := 16 * part }
    if !inHbm (16 * part) then s
    -- an error of a dirty word is one of a part that the cache holds dirty
    else if double ∧ dirty ∧ s.llcDirty part then ({ s with llcP := s.llcP.add part }).report (dieOf (16 * part)) { r with sev := 2 }
    else s.report (dieOf (16 * part)) r)
/-- An HBM part found wrong: corrected, or poisoned and recorded (R448). -/
def State.hbmError (s : State) (part : Nat) (bad : Bool) : State :=
  let r : ErrRec := { src := 3, sev := 0, unit := stackOf (16 * part), dpa := 16 * part }
  if !inHbm (16 * part) then s
  else if bad then ({ s with hbmP := s.hbmP.add part }).report (dieOf (16 * part)) { r with sev := 2 }
  else s.report (dieOf (16 * part)) r
/-- HBM_ECC_ERROR, at a demand read. -/
def execHbmEccError (part : Nat) (uncorrectable : Bool) (s : State) : Out := .next (s.hbmError part uncorrectable)
/-- PATROL_SCRUB. -/
def execPatrolScrub (part : Nat) (uncorrectable : Bool) (s : State) : Out := .next (s.hbmError part uncorrectable)

/-- RAIL_BELOW_THRESHOLD: the die begins to convert. -/
def execRailBelowThreshold (die : Nat) (s : State) : Out := .next (s.modGuide fun g => { g with railLow := g.railLow.setIfInBounds die true })
/-- DECTED_SWITCH_COMPLETE: every set has switched, ways 14 and 15 are written back and invalidated; EBSTS.DECTED and its record. -/
def execDectedSwitchComplete (die : Nat) (s : State) : Out :=
  .next (if vget s.guide.railLow die false ∧ !(vget s.guide.banks die .reset).dected then
    ((s.llcDrop fun x => dieOf (64 * x.line) == die && decide (14 ≤ x.way)).modGuide fun g =>
      { g with banks := g.banks.setIfInBounds die { vget g.banks die .reset with dected := true } }).report die { src := 4, sev := 0, unit := die }
  else s)

/-! The module (R463). -/

/-- THERMAL_WARNING: an event, and nothing else. -/
def execThermalWarning (die : Nat) (s : State) : Out := .next (s.event 9 0 0 (die + s.pcyc % 2 ^ 64 * 2 ^ 64))
/-- THERMAL_SHUTDOWN: power is removed; only a cold reset, which may stand among the inputs that follow, restarts the device. -/
def execThermalShutdown (_die : Nat) (s : State) : Out := .next { s with guide := { s.guide with powered := false }, agenda := [] }

/-! Commands. -/

/-- EBSTSn (Table 18-2). -/
def Bank.sts (b : Bank) : Nat := b.cecnt.toNat * 2 ^ 32 + min b.records.length 64 * 2 ^ 8 + bitAt b.dected 1 + bitAt b.ovf 0
def execEbread (op : BitVec 496) (s : State) : Out :=
  let k := opF op 0 1
  s.command [(decide (k < 9), 11)] fun s =>
    let b := vget s.guide.banks k .reset
    let rest := b.records.drop 1
    (s.mbData (packed [((b.records.headD 0).toNat, 0), (rest.length, 256), (b.sts, 320)])).modGuide fun g =>
      { g with banks := g.banks.setIfInBounds k { b with records := rest, cecnt := 0 } }
/-- ECCNORM: fails while the rail is below the threshold; whether a rail that fell has risen again the wall clock settles (log 4). -/
def execEccnorm (op : BitVec 496) (s : State) : Out :=
  let k := opF op 0 1
  let low := vget s.guide.railLow k false && Config.freeBit s.free
  s.command [(decide (k < 8), 11), (!low, 14)] fun s =>
    (s.tick 1).modGuide fun g =>
      { g with railLow := g.railLow.setIfInBounds k false, banks := g.banks.setIfInBounds k { vget g.banks k .reset with dected := false } }
def execScrubper (op : BitVec 496) (s : State) : Out :=
  s.command [(decide (1 ≤ opF op 0 2) && decide (opF op 0 2 ≤ 168), 11)] fun s => s.modGuide fun g => { g with scrubPeriod := opF op 0 2 }

/-- R424: MRi := SHA-512(MRi ‖ v). -/
def Guide.extend (g : Guide) (i : Nat) (v : List Byte) : Guide :=
  { g with mrs := g.mrs.setIfInBounds i (digestOf (sha512 (leBytes 64 (vget g.mrs i 0).toNat ++ v))) }
def execMext (op : BitVec 496) (s : State) : Out :=
  let i := opF op 0 1
  let a := opF op 1 8
  s.command [(decide (8 ≤ i) && decide (i ≤ 15), 15), (s.spare a 64, 11)] fun s => s.modGuide fun g => g.extend i (s.hbm.read a 64)

end Sys2Proof.Machine
end

