-- ==== Sys2Proof/Machine/Parking.lean ====
section
/-! DEFINITION. RESOLVE and DENY of stage-2 faults and of divergences (R320, R391, R412), and what a restore translates again
(R273, R293, R419). -/
namespace Sys2Proof.Machine

/-! A copy by its words. -/

/-- Fields of the words of a copy. -/
def Copy.dF (x : Copy) : Nat := bits x.word0.toNat 19 14
def Copy.aF (x : Copy) : Nat := bits x.word0.toNat 13 8
def Copy.nd (x : Copy) : Nat := bits x.word1.toNat 21 20 + 1
def Copy.es (x : Copy) : Nat := [1, 2, 4, 16].getD (bits x.word1.toNat 19 18) 1
/-- Bytes of an affine form. -/
def Copy.total (x : Copy) : Nat := affTotal x.desc x.nd x.es
/-- Bytes of a collective's element. -/
def Copy.collWidth (x : Copy) : Nat := ((ElTy.ofCode (bits x.word1.toNat 19 15)).map (·.width)).getD 8 / 8
/-- Bytes of a collective's block, source and destination. -/
def Copy.collSizes (x : Copy) (cop : Nat) : Nat × Nat :=
  let bk := descNat x.desc 16 4 * x.collWidth
  let nr := descNat x.desc 8 4
  (if cop = 0 ∨ cop = 1 then bk else nr * bk, if cop = 0 ∨ cop = 2 then bk else nr * bk)
/-- Latencies of the ends of elements that have been translated; an absent page's is that of its tier (R266). -/
def Loc.class (tier : Bool) : Loc → Nat
  | .cm _ p _ => if tier then 4096 else copyClass p
  | _ => 4
/-- R251, R258, R259: the latency a copy was issued with, by its words and where its elements lie. -/
def Copy.latOf (x : Copy) (src dst : Nat) : Nat :=
  let due := bits x.word1.toNat 15 0
  match x.form with
  | .xcopy => max due (max src dst + cdiv x.total 64)
  | .xfill => max due (src + cdiv x.slotSize 64)
  | .xdrain => max due (dst + cdiv x.slotSize 64)
  | .xcoll cop => max (16 * bits x.word1.toNat 11 0) (4096 * max 1 (clog2 (descNat x.desc 8 4)) + cdiv (x.collSizes cop).2 64)
  | .xfetch => max (bits x.word1.toNat 19 0) (max src dst + cdiv (W64.f x.bOp 31 0) 64)
  | .xfetchTry => max (bits x.word1.toNat 19 0) (max src dst + cdiv (W64.f x.bOp 31 0) 64)
  | _ => max (descNat x.desc 20 4) (max (max src dst) 4 + cdiv (descNat x.desc 4 4) 16 + cdiv (descNat x.desc 4 4 * descNat x.desc 8 4) 64)
/-- The issue cycle and slot latency of a copy that a hamper has given, whose elements have been translated. -/
def Copy.relat (x : Copy) : Copy :=
  let ms := x.moves ++ x.slots.flatMap (·.moves)
  let tier := !x.waitTier.isEmpty
  let l := x.latOf (ms.foldl (fun a m => max a (m.src.class tier)) 4) (ms.foldl (fun a m => max a (m.dst.class false)) 4)
  if x.issue < x.due then x
  else { x with slotLat := if x.form.isSlot then l else 0, issue := if x.form = .xfetchTry ∧ tier then x.due else x.due - l }

/-! Translating again after a restore (R419). -/

def accRetrans (w : Bool) : Access := { acc := 9, s1w := w, r := !w, w := w }
/-- How a new translation of what a core holds ends. -/
inductive ReTr where
  /-- Everything has its place; tier fetches to begin. -/
  | ok (c : Core) (tiers : List (Nat × Nat × W64 × Nat × Nat))
  | fault (cause va : Nat) (rec : FaultRec)
  | park (dpa : Nat)
deriving DecidableEq, Repr
/-- One end of a copy's element, translated again. Another fault than a stage-2 fault is noted on the copy (R273). -/
def State.reLoc (s : State) (cxn gen : Nat) (k : Access) (l : Loc) : Loc × Tr :=
  match l with
  | .cm va p det =>
    match s.translate cxn gen va k with
    | .ok p2 d i lf => (.cm va p2 d, .ok p2 d i lf)
    | t => (.cm va p det, t)
  | l => (l, .ok (.hbm 0 noLeaf) false 0 ⟨0, 0, 0, 0⟩)
/-- The elements of a copy; what stops them is a stage-2 fault with its address, or a cause to note. -/
structure ReMoves where
  moves : List Move
  bad : Option (Nat × FaultRec)
  cause : Option (Nat × Nat)
  park : Option Nat
  /-- Tier fetches of pages that are absent (R410). -/
  tiers : List (Nat × Nat × W64 × Nat × Nat)
deriving DecidableEq, Repr
def ReMoves.empty : ReMoves := { moves := [], bad := none, cause := none, park := none, tiers := [] }
def ReMoves.join (r : ReMoves) (va : Nat) : Tr → ReMoves
  | .ok _ _ ipa l =>
    if l.tgt = 3 then { r with tiers := if r.tiers.any (·.1 == l.tierKey) then r.tiers else r.tiers ++ [(l.tierKey, l.addr, BitVec.ofNat 64 l.val, ipa / 65536, l.level)] } else r
  | .poison d => { r with park := some d }
  | .fault _ (some f) => match r.bad with
    | some (v0, f0) => if faultFirst va (some f) v0 (some f0) then { r with bad := some (va, f) } else r
    | none => { r with bad := some (va, f) }
  | .fault c none => match r.cause with
    | some (c0, v0) => if c < c0 ∨ (c = c0 ∧ va < v0) then { r with cause := some (c, va) } else r
    | none => { r with cause := some (c, va) }
def State.reMoves (s : State) (cxn gen : Nat) (rd wr : Access) (ms : List Move) : ReMoves :=
  ms.foldl (fun r m =>
    let a := s.reLoc cxn gen wr m.dst
    let b := s.reLoc cxn gen rd m.src
    let r1 := (r.join m.dst.va a.2).join m.src.va b.2
    { r1 with moves := r1.moves ++ [{ m with dst := a.1, src := b.1 }] }) .empty
/-- Two footprints: the lowest of what stops them. -/
def ReMoves.both (x y : ReMoves) : ReMoves :=
  { moves := x.moves
    bad := match x.bad, y.bad with
      | some p, some q => if faultFirst q.1 (some q.2) p.1 (some p.2) then some q else some p
      | none, q => q
      | p, none => p
    cause := match x.cause, y.cause with
      | some p, some q => if q.1 < p.1 ∨ (q.1 = p.1 ∧ q.2 < p.2) then some q else some p
      | none, q => q
      | p, none => p
    park := x.park.or y.park, tiers := x.tiers ++ y.tiers.filter fun t => !(x.tiers.any (·.1 == t.1)) }
/-- The ranks of a collective that the hamper alone gives back: the table, read as the copy issued (R263), is read again. -/
def State.reRanks (s : State) (cxn : Nat) (x : Copy) : List Nat × ReMoves :=
  if !x.form.isColl || x.matched || !x.ranks.isEmpty then (x.ranks, .empty)
  else
    let va := descNat x.desc 0 8
    let nr := descNat x.desc 8 4
    match s.transRange cxn x.gen va (8 * nr) (accRetrans false) with
    | .ok ps =>
      let bs := ps.flatMap fun p => s.physRead p.2.2.1 p.2.1
      ((List.range nr).map fun k => field bs (8 * k) 8 % 2 ^ 40, .empty)
    | .poison d => ([], { ReMoves.empty with park := some d })
    | .fault c a (some r) => ([], ReMoves.empty.join a (.fault c (some r)))
    | .fault c a none => ([], ReMoves.empty.join a (.fault c none))
/-- An element of a fill or a drain whose slot has been claimed: the slot holds what remains of it (R273). -/
def Copy.past (x : Copy) (m : Move) : Bool :=
  x.form.isSlot && (match if x.form = .xfill then m.dst else m.src with
    | .sp o => decide (o / x.slotSize < x.claimed)
    | _ => false)
/-- A copy that writes nothing more. -/
def Copy.emptied (x : Copy) : Copy := { x with moves := [], waitTier := [], slots := x.slots.map fun z => { z with moves := [] } }
/-- A copy in flight with its remaining footprint translated again, slots of a drain that have been written apart; after a failed translation it
writes nothing more. The parts that an XFETCH.TRY has written keep their places, for a fallback that taints them (R267). -/
def State.reCopy (s : State) (cxn : Nat) (rd wr : Access) (x : Copy) : Copy × ReMoves :=
  let rd := { rd with fetchOk := x.form == .xfetch || x.form == .xfetchTry }
  let old := x.moves.filter x.past
  let r := s.reMoves cxn x.gen rd wr (x.moves.filter fun m => !x.past m)
  let rs := x.slots.map fun z => (z, if z.released then { ReMoves.empty with moves := z.moves } else s.reMoves cxn x.gen rd wr z.moves)
  let landed := x.hist.filterMap fun m => match s.reLoc cxn x.gen wr m.dst with
    | (l, .ok _ _ _ _) => some { m with dst := l }
    | _ => none
  let cs := if x.matched then { ReMoves.empty with moves := x.srcs } else s.reMoves cxn x.gen rd wr x.srcs
  let k := s.reRanks cxn x
  let all := ((rs.foldl (fun a y => a.both y.2) r).both cs).both k.2
  match all.cause with
  | some (c, va) => ((x.emptied.note c va).relat, all)
  | none =>
    (({ x with
        hist := if x.form = .xfetchTry then landed else x.hist, moves := old ++ r.moves, slots := rs.map fun y => { y.1 with moves := y.2.moves }, srcs := cs.moves, ranks := k.1
        waitTier := all.tiers.map (·.1), tierAs := tierAsOf all.tiers, fell := if x.form = .xfetchTry ∧ all.tiers ≠ [] then some true else x.fell } : Copy).relat, all)
/-- Every buffered line, snapshot part and copy of a core translated again. A line whose translation ends in cause 16, 18 or 19, for which the
spec gives no effect, is dropped (DESIGN CHOICE, log 39); so is, once its record is denied, one that a stage-2 fault stops, and a copy so stopped
writes nothing more. -/
def State.reCore (s : State) (n : Nat) (denied : Bool) : ReTr :=
  let cxn := s.cxnOf (.job n .S)
  let gen := s.genOf (.job n .S)
  let c := s.core n
  let lines := c.psb.map fun l => (l, s.translate cxn gen l.va (accRetrans true))
  let snaps := c.snap.map fun l => (l, s.translate cxn gen l.va (accRetrans false))
  let copies := c.copies.map (s.reCopy cxn (accRetrans false) (accRetrans true))
  let trs := (lines.map fun x => (x.1.va, x.2)) ++ snaps.map fun x => (x.1.va, x.2)
  let bads := (trs.filterMap fun x => match x.2 with
      | .fault _ (some f) => some (x.1, f)
      | _ => none) ++ copies.filterMap (·.2.bad)
  let parks := (trs.filterMap fun x => match x.2 with
      | .poison d => some d
      | _ => none) ++ copies.filterMap (·.2.park)
  match parks with
  | d :: _ => .park d
  | [] =>
    match (if denied then [] else bads).foldl (fun (a : Option (Nat × FaultRec)) x => match a with
      | some y => if x.1 < y.1 then some x else some y
      | none => some x) none with
    | some x => .fault 17 x.1 x.2
    | none =>
      .ok { c with
            psb := lines.filterMap fun x => match x.2 with
              | .ok p d _ _ => some { x.1 with loc := p, det := d }
              | _ => none
            copies := copies.map fun x => if x.2.bad.isSome then x.1.emptied else x.1
            retrans := false } (copies.flatMap (·.2.tiers))
/-- The lines that copies in flight have yet to touch are asked for again. -/
def State.reAsk (s : State) (n : Nat) : State :=
  let s1 := (s.core n).copies.foldl (fun t x =>
    let ms := if x.form.isSlot then x.slots.flatMap (·.moves) else x.moves
    (t.disownLines n x.tag).askCopy n x.gen (.copy x.tag) ((if x.matched then [] else x.srcs) ++ ms) ms) s
  (s1.walk (s.cxnOf (.job n .S)) (s.genOf (.job n .S)) ((s.core n).psb.map (·.va))).1
/-- A fault of what a restore does for a core: its job's, or, between jobs or for a job that a trap has stopped, a record alone; what raises a cause
then is met when a job has started, or by ERET (R293). -/
def State.restoreFault (s : State) (n : Nat) (e : Engine) (cause va : Nat) (r : Option FaultRec) : State :=
  if (s.core n).job.isSome ∧ (s.core n).stop.isNone then (s.poisonRecord (.job n e) cause va).take (.job n e) cause va r
  else
    match r, s.queueOfCore n with
    | some r, some (cxn, q) => (s.faultRecord cxn q (s.fillRec (.job n e) r)).parkQueue cxn q
    | _, _ => s
/-- What a core needs before its group counts after a restore: the coefficient image (R293) and its translations (R419). A cause is met before
the cycle at which the job resumes. -/
def State.settleCore (s : State) (n : Nat) : State :=
  let r1 := if (s.core n).coefLost then s.reloadCoef n else (s, none)
  let s1 := match r1.2 with
    | none => r1.1
    | some (c, va, r) => r1.1.restoreFault n .S c va r
  let s2 := if (s1.core n).retrans then
      (match s1.reCore n false with
       | .ok c ts => ((s1.setCore n c).reAsk n).startTiers (s1.cxnOf (.job n .S)) ts
       | .fault c va r => s1.restoreFault n .X c va (some r)
       | .park d => s1.parkContext (s1.cxnOf (.job n .S)) d)
    else s1
  if (s.core n).stop.isNone then s2.modCore n fun c => { c with stop := c.stop.map fun (x : Stop) => ({ x with cycle := s2.now n - 1 } : Stop) } else s2

/-- R373: an ordered-reduction slot's address translated again under the holding instance's generation, ACC 9. One whose translation ends in cause
16, 18, 19 or 20, or on a page that is not local, for which R373 gives no effect, stays lost: it closes with no write (DESIGN CHOICE, log 39). -/
def State.settleSlot (s : State) (cxn h ea : Nat) : State :=
  match s.inst? cxn h with
  | none => s
  | some i =>
    match s.translate cxn i.gen ea (accRetrans true) with
    | .ok (.hbm d leaf) det _ _ =>
      s.modInst cxn h fun x => { x with slots := x.slots.map fun (z : Slot) => if z.ea = ea then ({ z with dpa := d, leaf := leaf, det := det, lost := false } : Slot) else z }
    | .fault _ (some r) => (s.faultRecord cxn i.q { r with handle := h, q := i.q }).parkQueue cxn i.q
    | .poison d => s.parkContext cxn d
    | _ => s

/-! Records (R411, R412). -/

/-- A record of an ordered-reduction slot that is still to be translated again (R373). -/
def Ctx.slotRecord (c : Ctx) (r : FaultRec) : Bool :=
  r.acc == 9 && r.strm == 0 && (c.inst? r.handle).any fun i => i.slots.any fun z => z.lost && z.ea == r.va
/-- The queue that holds a record, with the record. -/
def Ctx.recordOf (c : Ctx) (id : Nat) : Option (Nat × FaultRec) :=
  if id = 0 then none
  else (List.range 16).findSome? fun q => ((c.queue q).faults.find? fun f => f.1 == id).map fun f => (q, f.2)
/-- The core whose job a record names. -/
def Ctx.recordCore (c : Ctx) (r : FaultRec) : Option Nat := ((c.inst? r.handle).bind (·.group? r.gidx)).bind fun g => g.members[r.ord]?
/-- A record leaves its queue; one that waited beyond 255 is delivered. -/
def State.dropRecord (s : State) (cxn q id : Nat) : State :=
  let s1 := s.modQueue cxn q fun k => { k with faults := k.faults.filter (·.1 != id) }
  match ((s1.queue cxn q).faults.find? fun f => f.1 == 0), decide (((s1.queue cxn q).faults.filter (·.1 != 0)).length < 255) with
  | some f, true =>
    let (i, s2) := s1.newId
    (s2.modQueue cxn q fun k => { k with faults := (k.faults.erase f) ++ [(i, f.2)] }).event 1 (cxn + 1) i f.2.toNat true
  | _, _ => s1
/-- Table 11-5: a queue with nothing left to hold it returns to its prior state; one that waits for an instance that has ended meanwhile
runs again. -/
def State.unpark (s : State) (cxn q : Nat) : State :=
  (s.modQueue cxn q fun k => if k.state = .parked ∧ k.faults = [] ∧ !k.divParked then { k with state := k.prior } else k).wake cxn
/-- An instance's admission read made again (R327). -/
def State.retryAdmission (s : State) (cxn h : Nat) : State :=
  match s.inst? cxn h with
  | some i => if i.readFault then (s.modInst cxn h fun x => { x with readFault := false }).readObject cxn h else s
  | none => s
/-- The fetches of a core that failed are translated again, and fetch again the pages that are absent (R410, R412). -/
def State.reFetch (s : State) (n : Nat) : State :=
  let cxn := s.cxnOf (.job n .X)
  ((s.core n).copies.filter (s.fetchFailed cxn)).foldl (fun t x =>
    let y := t.reCopy cxn accXfetch accCopyWrite x
    match y.2.park, y.2.bad with
      | some d, _ => t.parkContext cxn d
      | none, some (va, r) => t.take (.job n .X) 17 va (some r)
      | none, none => (t.modCore n (·.setCopy y.1)).startTiers cxn y.2.tiers) s
/-- Contributions sent so far, by address and PCNT (R370). -/
def countsOf (slots : List Slot) (i : Nat) : List (Nat × Nat × Nat) :=
  slots.flatMap fun z =>
    let l := z.contribs.filter (·.i == i)
    ((l.map (·.p)).eraseDups).map fun p => (z.ea, p, (l.filter (·.p == p)).foldl (fun m k => max m (k.n + 1)) 0)
/-- The tuple of a job that the Guide has kept nothing of (R331), and the contributions it has sent (R370). -/
def Core.placeJob (c : Core) (i : Inst) : Core :=
  match c.job with
  | none => c
  | some j =>
    let t := (i.tuple i.groups.length j.gidx j.j).2
    { c with job := some { j with i := t }, aredN := countsOf i.slots t }
/-- The jobs of an instance whose header has been read (R331). -/
def State.settleJobs (s : State) (cxn h : Nat) : State :=
  match s.inst? cxn h with
  | some i => if i.counts = [] then s else i.cores.foldl (fun t n => t.modCore n (·.placeJob i)) s
  | none => s
/-- RESOLVE re-issues the access of a record. -/
def State.resolveRecord (s : State) (cxn q id : Nat) (r : FaultRec) : State :=
  let s1 := s.dropRecord cxn q id
  let s2 :=
    if r.qt then s1
    else if r.acc = 7 then s1.retryAdmission cxn r.handle
    else if (s1.ctx cxn).slotRecord r then s1.settleSlot cxn r.handle r.va
    else
      match (s1.ctx cxn).recordCore r with
      | some n =>
        let t := s1.modCore n fun c => { c with stop := c.stop.filter fun x => !(x.parked && x.cause == 17) }
        let t1 := (if r.acc = 9 then (t.settleCore n).settleJobs cxn r.handle else t).reFetch n
        if (t1.core n).refetching ∧ (t1.core n).stop.isNone then t1.refetchJob n else t1
      | none => s1
  s2.unpark cxn q
/-- DENY of a record (R320, R327). -/
def State.denyRecord (s : State) (cxn q id : Nat) (r : FaultRec) : State :=
  let s1 := s.dropRecord cxn q id
  if r.qt then s1.endQueue cxn q .faulted 17
  else if r.acc = 7 then (s1.faultInst cxn r.handle 17).unpark cxn q
  else
    let s2 := if (s1.ctx cxn).slotRecord r then s1 else match (s1.ctx cxn).recordCore r with
      | some n =>
        let t := if r.reason = 5 then ((s1.core n).copies.filter fun (x : Copy) => !x.waitTier.isEmpty).foldl (fun (t : State) x => t.abandonCopy n x) s1 else s1
        let t := if (t.core n).retrans then (match t.reCore n true with
          | .ok c ts => ((t.setCore n c).reAsk n).startTiers (t.cxnOf (.job n .S)) ts
          | _ => t) else t
        t.modCore n fun c =>
          { c with retrans := false, stop := c.stop.map fun (st : Stop) => if st.parked ∧ st.cause = 17 then ({ st with parked := false } : Stop) else st }
      | none => s1
    s2.unpark cxn q

/-! Divergences (R391). -/

/-- What RESOLVE and DENY both do: MODE 0, DIV clear, every queue back to its prior state. -/
def State.endDivergence (s : State) (cxn : Nat) : State :=
  let s1 := (s.flushHost cxn).modTrail cxn Trail.off
  (List.range 16).foldl (fun t q => if (t.queue cxn q).divParked then (t.modQueue cxn q fun k => { k with divParked := false }).unpark cxn q else t) s1
/-- The divergent operation of a job, which TRDACT shows, is withheld: a strong access counts as acknowledged, and its stream stands at it
again unless it has issued since (R168); of an XFETCH.TRY what has landed stays, its tag is ready, and its stream stands at it again unless it has
issued since (DESIGN CHOICE, log 26); a stream that waits for a semaphore or tests a tag stands at it already. -/
def State.withholdJob (s : State) (n : Nat) (e : Engine) (q0 : Nat) : State :=
  if recType q0 = 0x06 then
    ((s.core n).copies.filter fun x => x.form == .xfetchTry && x.issue % 2 ^ 32 == recClk q0).foldl (fun t x => t.modCore n fun c =>
      let c1 := (c.dropCopy x.tag).setTag x.tag { infl := false, fb := false, abs := false, readyAt := 0 }
      match x.seat with
      | some z => if c.strX.nextIssue = x.issue + 2 then { c1 with strX := c1.strX.sit z } else c1
      | none => c1) s
  else match s.nextStrong (.job n e), recType q0 with
  | some x, 0x01 => s.modCore n (·.withhold e x)
  | _, _ => s
def State.denyDivergence (s : State) (cxn : Nat) : State :=
  let q0 := (s.ctx cxn).trail.dact0.toNat
  match (s.ctx cxn).trail.divOwner with
  | some (.job n e) => ((s.endDivergence cxn).withholdJob n e q0).trapJob n e 36 0
  | some (.thread c q) =>
    ((s.modQueue c q fun k => { k with strong := if recType q0 = 0x01 then k.strong.drop 1 else k.strong, divParked := false }).endDivergence cxn).endQueue
      c q .faulted 36
  | none => s.endDivergence cxn

/-- The record or divergence that a command names, REASON 10 when there is none or the context is stopped. -/
def State.answerTo (s : State) (op : BitVec 496) (rec : State → Nat → Nat → FaultRec → State) (div : State → State) : Out :=
  let n := opCx op
  let id := opF op 1 2
  let c := s.ctx n
  let isDiv := c.trail.div && c.trail.divId == id
  s.command [s.cxHeld n, (c.going && ((c.recordOf id).isSome || isDiv), 10)] fun s =>
    match c.recordOf id with
    | some (q, r) => rec s q id r
    | none => div s
def execResolve (op : BitVec 496) (s : State) : Out :=
  s.answerTo op (fun s q id r => s.resolveRecord (opCx op) q id r) fun s => s.endDivergence (opCx op)
def execDeny (op : BitVec 496) (s : State) : Out :=
  s.answerTo op (fun s q id r => s.denyRecord (opCx op) q id r) fun s => s.denyDivergence (opCx op)

end Sys2Proof.Machine
end

