-- ==== Sys2Proof/Machine/Hamper.lean ====
section
/-! DEFINITION. The hamper's layout as a save writes it (R288 to R291, R310, R341, R356, R373, R392, R441, R443; Tables 10-4 to 10-7,
12-5 and 13-5). What the layout has no place for is logged under log 10. -/
namespace Sys2Proof.Machine

/-! Bytes. -/

/-- Bytes padded with zeros to a length. -/
def padTo (n : Nat) (bs : List Byte) : List Byte := bs ++ zeros (n - bs.length)
/-- Bytes padded with zeros to a multiple of 16. -/
def pad16 (bs : List Byte) : List Byte := padTo (16 * cdiv bs.length 16) bs
/-- Bits as bytes, padded with zeros to whole bytes. -/
def boolBytes (l : List Bool) : List Byte := bitBytes (cdiv l.length 8) fun k => l.getD k false
/-- Numbers of n bytes each. -/
def nums (n : Nat) (l : List Nat) : List Byte := l.flatMap (leBytes n)

/-! STREAM and JOBREG (Table 10-7). -/

def Loop.bytes (l : Loop) : List Byte := nums 8 [l.start.toNat, l.stop.toNat, l.remaining.toNat]
/-- Redirect control: pending, and slots left. -/
def Stream.redirectCtl (x : Stream) : Nat :=
  match x.redirect with
  | some (_, k) => 1 + k * 2
  | none => x.slots * 2
/-- A STREAM sub-record's payload. -/
def Stream.image (x : Stream) : List Byte :=
  padTo 1024 (padTo 712 (nums 8 (x.s.toList.map (·.toNat)) ++ nums 8 (x.a.toList.map (·.toNat)) ++ nums 8 (x.t.toList.map (·.toNat)) ++ leBytes 8 x.p.toNat)
    ++ leBytes 8 x.sT.toNat ++ leBytes 8 (x.aT.toNat + x.pT.toNat * 2 ^ 16) ++ leBytes 8 x.pc.toNat
    ++ leBytes 8 ((x.redirect.map fun r => r.1.toNat).getD 0) ++ leBytes 8 x.redirectCtl ++ leBytes 8 x.rsst.toNat ++ leBytes 8 x.rssp.toNat
    ++ padTo 128 (nums 8 (x.rs.reverse.map (·.toNat))) ++ padTo 96 (x.loops.reverse.flatMap Loop.bytes) ++ leBytes 8 x.loops.length)

def Chan.bytes (c : Chan) : List Byte := padTo 32 (leBytes 8 c.status.toNat ++ leBytes 4 c.base ++ leBytes 4 c.size ++ leBytes 4 c.count)
def Tag.code (t : Tag) : Nat := bitAt t.infl 0 + bitAt t.fb 1 + bitAt t.abs 2
/-- GST as the layout holds it: with every resolution and clear that is on its way, which has no place of its own (log 10). -/
def Core.settleGuards (c : Core) : Core := { c.gpend.foldl Core.applyGuard c with gpend := [] }
/-- What a WRST of the stopped cycle writes is written (R170). -/
def Core.settleStatus (c : Core) : Core :=
  { (c.pend.foldl (fun (c : Core) p => match p.target with
      | .status k v => c.statusWrite k v
      | _ => c) c) with pend := c.pend.filter fun p => match p.target with
      | .status _ _ => false
      | _ => true }
/-- A JOBREG payload; a restart point's has its cycle and rb at its end (R441). -/
def jobreg (ncsr phst : BitVec 32) (shape tdone gst dbw0 dbw1 : W64) (partw : BitVec 32) (chans : List Chan) (sems : List (BitVec 12)) (tags : List Tag)
    (stop : Option Stop) (rb cycle : Nat) : List Byte :=
  padTo 768 (nums 8 [ncsr.toNat, phst.toNat, shape.toNat, tdone.toNat, gst.toNat, dbw0.toNat, dbw1.toNat, partw.toNat]
    ++ chans.flatMap Chan.bytes ++ nums 2 (sems.map (·.toNat)) ++ nums 1 (tags.map Tag.code)
    ++ leBytes 4 ((stop.map fun x => if x.parked ∧ x.cause = 17 then 0 else x.cause).getD 0) ++ leBytes 4 rb ++ leBytes 8 cycle)
def Core.jobreg (c : Core) : List Byte :=
  Machine.jobreg c.ncsr c.phst c.shape (c.tdone true) c.gst c.dbw0 c.dbw1 c.partw c.chans.toList c.sems.toList c.tags.toList c.stop 0 0

/-! VFILE and POOL. -/

/-- A VFILE payload. -/
def Core.vfile (c : Core) : List Byte :=
  let P := 48 * c.vg
  ((List.range P).flatMap fun k => leBytes 1024 (c.vreg k).data.toNat) ++ ((List.range P).flatMap fun k => leBytes 32 (c.vreg k).taint.toNat)
    ++ nums 128 (c.vp.toList.map (·.toNat)) ++ nums 128 (c.vpT.toList.map (·.toNat)) ++ nums 512 (c.dirs.toList.map (·.toNat))
    ++ nums 32 (c.dirT.toList.map (·.toNat)) ++ nums 4 (c.norms.toList.map (·.toNat)) ++ leBytes 16 c.normT.toNat
/-- Bytes of the pool from granule VG on. -/
def Core.poolBytes (c : Core) : Nat := 65536 * (48 - c.vg)
/-- A POOL payload. -/
def Core.poolImage (c : Core) : List Byte :=
  c.pool.read (65536 * c.vg) c.poolBytes ++ bitBytes (c.poolBytes / 128) fun k => c.poolPartT (4096 * c.vg + k)

/-! PEND (R129, R130, R206). -/

/-- What is still to be read of scratchpad is read now, from what the writes due before it leave there (R130). -/
def Core.resolve (c : Core) (t : PendTarget) : PendTarget :=
  match t with
  | .ldsp e r a n sgn => .s e r (extend sgn n (leNat (bytesOf (c.spRead a n)))) (taintOf (c.spRead a n))
  | .vld r a n => let x := VVal.ofBytes (c.spRead a n); .v r x.data x.taint 0 1024
  | .vgath r w es =>
    let x := packElems (8 * w) (es.map fun z => (leNat (bytesOf (c.spRead z.1 w)), z.2 || taintOf (c.spRead z.1 w)))
    .v r x.data x.taint 0 1024
  | .vldChan k sq ep d a n => .chan k sq ep d (c.spRead a n)
  | t => t
def PendTarget.isSp : PendTarget → Bool
  | .sp _ _ _ => true
  | .chan _ _ _ _ _ => true
  | _ => false
/-- The pending writes with their values, in sequence. -/
def Core.values (c : Core) : List Pend :=
  let r := (c.pend.mergeSort Pend.le).foldl (fun (a : Core × List Pend) p =>
    let t := a.1.resolve p.target
    (if t.isSp then a.1.landOne t else a.1, a.2 ++ [{ p with target := t }])) (c, [])
  r.2.mergeSort fun x y => decide (x.seq ≤ y.seq)

/-- Kind, stream, number, value and taint of each 32-bit container of a pending write; none for what is not saved. A write that lands
a channel's slot names the channel in NUM (log 10). -/
structure PendImage where
  kind : Nat
  strm : Nat
  num : Nat
  val : List Byte
  taint : List Bool
deriving DecidableEq, Repr
/-- Taints of a value of n bytes with per-byte taint. -/
def containers (bs : List (Byte × Bool)) : List Bool := (List.range (cdiv bs.length 4)).map fun k => ((bs.drop (4 * k)).take 4).any Prod.snd
def incBytes (incs : List (Nat × Bool × Nat)) : List Byte := nums 8 (incs.map fun x => x.1 % 4096 + bitAt x.2.1 15 + x.2.2 % 2 ^ 32 * 2 ^ 32)
def Core.pendImage (c : Core) (t : PendTarget) : Option PendImage :=
  match t with
  | .s e r v x => some ⟨0, engNum e, r, leBytes 8 v.toNat, [x, x]⟩
  | .a e r v x => some ⟨1, engNum e, r, leBytes 8 v.toNat, [x, x]⟩
  | .t e r v => some ⟨2, engNum e, r, leBytes 8 v.toNat, [false, false]⟩
  | .p e r v x => some ⟨3, engNum e, r, leBytes 1 (bitAt v 0), [x]⟩
  | .v r x t _ n => some ⟨4, 1, r, (leBytes 1024 x.toNat).take n, (List.range (cdiv n 4)).map t.getLsbD⟩
  | .vp r x t => some ⟨5, 1, r, leBytes 128 x.toNat, (List.range 32).map fun k => (List.range 32).any fun j => t.getLsbD (32 * k + j)⟩
  | .d r x t => some ⟨6, 1, r, leBytes 512 x.toNat, (List.range 128).map fun k => t.getLsbD (2 * k) || t.getLsbD (2 * k + 1)⟩
  | .n r x t => some ⟨7, 1, r, leBytes 4 x.toNat, [t]⟩
  | .sp e a bs => some ⟨8, engNum e, 0, leBytes 4 a ++ bytesOf bs, false :: containers bs⟩
  | .flags f => some ⟨9, 0, 0, leBytes 4 f, [false]⟩
  | .chan k _ ep a bs => some ⟨8, 1, if (c.chan k).epoch = ep then k + 1 else 0, leBytes 4 a ++ bytesOf bs, false :: containers bs⟩
  | .expert incs => some ⟨10, 1, 0, incBytes incs, List.replicate (2 * incs.length) false⟩
  | _ => none
def PendImage.bytes (x : PendImage) (seq due : Nat) : List Byte :=
  pad16 (leBytes 1 x.kind ++ leBytes 1 x.strm ++ leBytes 2 x.num ++ leBytes 2 x.val.length ++ leBytes 2 seq ++ leBytes 8 due ++ x.val ++ boolBytes x.taint)
/-- Entries before their order is settled: due cycle, sequence and image. -/
def Core.pendEntries (c : Core) (ps : List Pend) : List (Nat × Nat × PendImage) :=
  ((List.range ps.length).zip ps).filterMap fun x => (c.pendImage x.2.target).map fun i => (x.2.due, x.1, i)
def pendBytes (l : List (Nat × Nat × PendImage)) : List Byte :=
  (l.mergeSort fun x y => decide (x.1 < y.1) || (x.1 == y.1 && decide (x.2.1 ≤ y.2.1))).flatMap fun x => x.2.2.bytes x.2.1 x.1

/-! PSB, SNAP, EPEND, ARRAY, COPY. -/

def PsbLine.image (l : PsbLine) : List Byte :=
  leBytes 8 l.va ++ leBytes 8 l.mask.toNat ++ padTo 16 (leBytes 1 l.taint.toNat) ++ leBytes 64 l.data.toNat
def SnapPart.image (p : SnapPart) : List Byte := leBytes 8 p.va ++ padTo 8 (leBytes 1 (bitAt p.taint 0)) ++ leBytes 16 p.data.toNat
/-- A channel that an MMA holds and that has been configured or reset since is held no longer (R156). -/
def Core.liveHold (c : Core) (h : Option (Nat × Nat)) : Option (Nat × Nat) := h.filter fun x => (c.chan x.1).epoch == x.2
/-- An ARRAY payload; `now` is the cycle at which the array stands. -/
def Core.arrayImage (c : Core) (now : Nat) (frozen : Bool) : List Byte :=
  let m : MEng := { c.m with mmas := c.m.mmas.map fun (x : Mma) => ({ x with ach := c.liveHold x.ach, bch := c.liveHold x.bch } : Mma) }
  padTo 67840 (m.image now frozen ++ leBytes 8 m.mctl.toNat ++ leBytes 4 m.sca.toNat ++ leBytes 4 m.scb.toNat ++ leBytes 4 m.pta.1.toNat
    ++ leBytes 4 m.ptb.1.toNat ++ leBytes 4 (bitAt m.pta.2 0 + bitAt m.ptb.2 1 + m.follow.length * 4) ++ leBytes 4 m.mcnt.toNat
    ++ m.follow.flatMap fun f => leBytes 4 f.1.toNat ++ leBytes 4 f.2.1.toNat)
/-- The descriptor field: an XFETCH, which has no descriptor, has its length there (log 10). -/
def Copy.descField (x : Copy) : Nat :=
  match x.form with
  | .xfetch => x.bOp.toNat % 2 ^ 32
  | .xfetchTry => x.bOp.toNat % 2 ^ 32
  | _ => x.desc.toNat
/-- Elements performed in ordinal order: one of an XFETCH.TRY that was refused, and so never lands, holds back the count (R273). -/
def Copy.progress (x : Copy) : Nat :=
  if x.form = .xfetchTry then
    (if x.fell.isSome ∨ x.cause.isSome then 0
     else match x.moves with
       | m :: _ => (m.src.va + 2 ^ 55 - W64.f x.aEnd 54 0) % 2 ^ 55 / 16
       | [] => x.done)
  else x.done
/-- A COPY payload. -/
def Copy.image (x : Copy) : List Byte :=
  let fill := x.form = .xfill
  leBytes 4 x.word0.toNat ++ leBytes 4 x.word1.toNat ++ leBytes 8 x.dEnd.toNat ++ leBytes 8 x.aEnd.toNat ++ leBytes 8 x.due ++ leBytes 4 x.progress
    ++ leBytes 2 (if fill then x.slots.length else 0) ++ leBytes 2 (if fill then 0 else x.slots.length) ++ leBytes 64 x.descField ++ zeros 24
    ++ nums 8 (x.slots.map (·.claimed))

/-! CORE sections (R290, R291, R441, R443). -/

/-- A sub-record, or nothing for an empty list. -/
def sub (type flags : Nat) (pay : List Byte) : List Byte :=
  if pay.isEmpty then [] else leBytes 2 type ++ leBytes 2 flags ++ leBytes 4 pay.length ++ zeros 8 ++ pad16 pay
/-- A restart point's sub-records, whose FLAGS have bit 15 set. -/
def Core.restartSubs (c : Core) (r : Restart) : List Byte :=
  let c0 := { c with chans := (List.range 16).foldl (fun v k => v.setIfInBounds k (r.chans.getD k .reset)) c.chans, strong := [], pend := r.pend }
  (((List.range 4).zip r.streams).flatMap fun x => sub 0x10 (x.1 + 2 ^ 15) x.2.image)
    ++ sub 0x11 (2 ^ 15) (Machine.jobreg r.ncsr r.phst r.shape 0 ({ c with gres := r.gres, gval := r.gval } : Core).gst r.dbw0 r.dbw1 c.partw r.chans
        (List.replicate 32 0) (List.replicate 64 .reset) none (c.rb + c.rbDone) r.cycle)
    ++ sub 0x13 (2 ^ 15) (pendBytes (c0.pendEntries c0.values))
/-- PHST.RSM as the next resumption is to report it (R286): 51 and the class. -/
def Core.markRsm (c : Core) : Core := if c.job.isSome ∧ c.stopClass ≠ 0 then c.setRsm (51 + c.stopClass) else c
/-- A CORE section: every sub-record of a core with a job, and four of one without (R290). -/
def Core.section (c0 : Core) (now : Nat) (frozen : Bool) : List Byte :=
  let c := c0.settleStatus.settleGuards.markRsm
  let ends := sub 0x19 0 c.poolImage
  if c.job.isNone then
    sub 0x11 0 c.jobreg ++ sub 0x12 0 c.vfile ++ sub 0x16 0 (c.arrayImage now frozen) ++ ends
  else
    let ps := c.values
    (engines.flatMap fun e => sub 0x10 (engNum e) (c.str e).image) ++ sub 0x11 0 c.jobreg ++ sub 0x12 0 c.vfile
      ++ sub 0x13 0 (pendBytes (c.pendEntries ps))
      ++ sub 0x14 0 (c.psb.flatMap PsbLine.image) ++ sub 0x15 0 (c.snap.flatMap SnapPart.image) ++ sub 0x16 0 (c.arrayImage now frozen)
      ++ (c.copies.flatMap fun x => sub 0x17 x.tag x.image) ++ sub 0x18 0 (incBytes c.epend)
      ++ (match c.rp with
          | some r => c.restartSubs r
          | none => [])
      ++ (((List.range c.refetch.length).zip c.refetch).flatMap fun x => sub 0x17 (2 ^ 14 + x.1) x.2.image) ++ ends

/-! QUEUE, KINST and GROUP sections. -/

/-- The state a Parked queue returns to is Running, or Waiting while it awaits an instance. -/
def Queue.awaits (k : Queue) : Bool := k.beforePre == .waiting || (k.beforePre == .parked && k.prior == .waiting)
/-- QRSM as the next resumption is to report it. -/
def Queue.qrsm (k : Queue) : Nat := k.rcnt.toNat * 256 + (if k.stopClass = 0 then k.rcause.toNat else 51 + k.stopClass)
/-- The launch sequence counter (R310, R311): the number of the last launch, 0 before the first. -/
def Queue.launchCount (k : Queue) : Nat := if k.launched = 0 then 0 else launchSeq k.launched
def State.queueSection (s : State) (cxn q : Nat) : List Byte :=
  let c := s.ctx cxn
  let k := c.queue q
  let reg := fun (i : Nat) => if i = 9 then k.qrsm else ((s.queueReg cxn q i).map fun v => v.1.toNat).getD 0
  padTo 256 (nums 1 [k.state.code, k.beforePre.code, bitAt k.hnd 0 + bitAt k.np 1 + bitAt k.awaits 2, min k.faults.length 255] ++ zeros 4 ++ leBytes 8 k.elapsed
      ++ nums 8 ((List.range 10).map reg) ++ leBytes 8 (if k.awaits then k.kwait.getD 0 else 0) ++ leBytes 8 k.launchCount)
    ++ k.thread.image ++ k.localMem.read 0 16384 ++ (k.faults.take 255).flatMap fun f => leBytes 32 f.2.toNat
/-- Dependences not yet met. -/
def Ctx.unmet (c : Ctx) (i : Inst) : List Nat := i.deps.map fun h => if h = 0 ∨ c.depMet h then 0 else h
/-- An instance as its section tells it: one whose header has been read in admission has its flag, placement and counts (R327, R332); replay
placement has become free where the trail is no longer in replay mode. -/
def Ctx.kinstView (c : Ctx) (i : Inst) : Inst :=
  let x := match aget? i.reads 0 with
    | some hd =>
      let det := nbit (field hd 6 2) 0
      { i with det := det, mode := if det then 1 else if c.trail.mode = 2 then 2 else 0, counts := (usedLevels hd).map (lvlCount hd i.lcnt) }
    | none => i
  { x with mode := if x.mode = 2 ∧ c.trail.mode ≠ 2 then 0 else x.mode }
def Ctx.kinstSection (c : Ctx) (i0 : Inst) : List Byte :=
  let i := c.kinstView i0
  padTo 128 (leBytes 4 i.handle ++ nums 1 [i.state.code, i.mode, i.groups.length, bitAt i.det 0 + bitAt i.tnt 1 + bitAt i.tev 2] ++ leBytes 8 i.code
      ++ leBytes 8 i.argp.toNat ++ nums 4 ((List.range 6).map fun l => if i.counts = [] then i.lcnt.getD l 0 else i.counts.getD l 0)
      ++ nums 1 [c.effPri i, i.pri, i.cause, ((c.unmet i).filter (· != 0)).length, i.gen] ++ zeros 3 ++ nums 4 (c.unmet i))
    ++ i.groups.flatMap fun g => leBytes 8 g.nextJ ++ leBytes 8 g.tuples ++ leBytes 16 g.endedMask.toNat
def GState.code : GState → Nat
  | .forming => 0 | .lockstep => 1 | .paused => 2 | .draining => 3 | .dissolved => 3
/-- A group as a stop leaves it: paused, with bit 4 of PRSN out of the section. -/
def State.groupSection (s : State) (i : Inst) (g : Group) : List Byte :=
  let ret := if g.state = .paused then g.ret else g.state
  padTo 32 (leBytes 4 i.handle ++ nums 1 [g.gidx, (if g.state = .forming then 0 else 2), ret.code, (setBit g.prsn 4 false).toNat] ++ leBytes 8 g.nxt
      ++ leBytes 1 g.members.length)
    ++ boolBytes ((List.range 128).map fun o => decide (o < g.members.length) && (s.core (g.members.getD o 0)).job.isNone)

/-! The CTX and ECTR sections. -/

/-- The trail part (R392). -/
def Ctx.trailPart (c : Ctx) : List Byte :=
  let t := c.trail
  nums 8 ((List.range 10).map fun i => ((t.reg i).map (·.toNat)).getD 0) ++ nums 8 ((List.range 16).map fun q => (c.queue q).icount)
    ++ bitBytes 8192 (fun m => t.mode == 2 && t.matched.has (t.ridx.toNat + m)) ++ leBytes 8 t.held.length
    ++ padTo 128 (t.held.flatMap fun h => leBytes 8 h.1.toNat ++ leBytes 8 h.2.toNat)
/-- The ordered-reduction part (R373). -/
def Slot.image (z : Slot) : List Byte :=
  leBytes 8 z.ea ++ leBytes 4 z.handle ++ leBytes 4 (z.contribs.length + bitAt z.overrun 31)
    ++ (z.contribs.mergeSort Contrib.le).flatMap fun k => leBytes 5 k.i ++ leBytes 1 (bitAt k.taint 0) ++ leBytes 2 k.p ++ leBytes 4 k.n ++ leBytes 4 k.x.toNat
def Ctx.slotPart (c : Ctx) : List Byte :=
  let zs := (c.insts.flatMap (·.slots)).mergeSort fun x y => decide (x.ea ≤ y.ea)
  leBytes 8 zs.length ++ zs.flatMap Slot.image
/-- Indices of Table 10-6 that are carried. -/
def carriedRegs : List Nat := [0, 1, 2, 3, 5, 6, 7]
def State.ctxSection (s : State) (cxn : Nat) : List Byte :=
  nums 8 (carriedRegs.map fun i => ((s.cxReg cxn i).map fun v => v.1.toNat).getD 0) ++ (s.ctx cxn).trailPart
    ++ nums 8 ((s.ctx cxn).perf.toList.map (·.toNat)) ++ (s.ctx cxn).slotPart
def Ctx.ectrSection (c : Ctx) : List Byte := nums 8 ((List.range 4096).map fun e => (c.expert e).toNat) ++ bitBytes 512 c.ectrT.has

/-! The whole hamper. -/

/-- FROZEN of a core's array image: 1 under class F (R245), and under class A, for which R241 and R245 give it no value (DESIGN CHOICE, log 39). -/
def State.frozen (s : State) (cxn n : Nat) : Bool :=
  let k := s.core n
  decide (1 < if k.job.isSome then k.stopClass else (s.ctx cxn).cls) || !k.m.mmas.isEmpty
/-- Sections in the order of Table 10-5: type, INST and content. Queues that are Idle have none, nor have groups that have dissolved. -/
def State.sections (s : State) (cxn : Nat) : List (Nat × Nat × List Byte) :=
  let c := s.ctx cxn
  let now := fun (n : Nat) => ((s.groupOf n).map (·.nxt)).getD 0
  let core := fun (n : Nat) => if (s.core n).owner = some cxn then s.core n else Core.reset
  [(1, 0, s.ctxSection cxn), (2, 0, c.ectrSection)]
    ++ ((List.range 16).filter fun q => (c.queue q).state != .idle).map (fun q => (3, q, s.queueSection cxn q))
    ++ c.insts.map (fun i => (4, i.handle % 65536, c.kinstSection i))
    ++ (c.insts.flatMap fun i => (i.groups.filter fun g => g.state != .dissolved).map fun g => (5, (i.handle * 8 + g.gidx) % 65536, s.groupSection i g))
    ++ ((List.range c.ports.length).zip c.ports).map fun x => (6, x.1, (core x.2).section (now x.2) (s.frozen cxn x.2))
/-- The directory and the sections after it, each on a multiple of 16. -/
def hamperBody (l : List (Nat × Nat × List Byte)) : List Byte :=
  let r := l.foldl (fun (a : List Byte × Nat × List Byte) x =>
    (a.1 ++ leBytes 2 x.1 ++ leBytes 2 x.2.1 ++ leBytes 4 x.2.2.length ++ leBytes 8 a.2.1, a.2.1 + (pad16 x.2.2).length, a.2.2 ++ pad16 x.2.2))
    ([], 4096 + 16 * l.length, [])
  r.1 ++ r.2.2
def hamperMagic : Nat := 0x504D4148
/-- The header (Table 10-4). -/
def Ctx.hamperHeader (c : Ctx) (body : List Byte) (nsec : Nat) : List Byte :=
  padTo 4096 (leBytes 4 hamperMagic ++ leBytes 2 1 ++ leBytes 1 (1 + c.cls * 2 + bitAt c.mig.isSome 3) ++ zeros 1 ++ leBytes 8 body.length
    ++ leBytes 4 nsec ++ leBytes 2 c.clusters.length ++ leBytes 2 c.dcn.toNat ++ leBytes 8 c.clmask.toNat ++ leBytes 8 c.saves ++ zeros 24 ++ sha512 body)

end Sys2Proof.Machine
end

