-- ==== Sys2Proof/Machine/Unpack.lean ====
section
/-! DEFINITION. What a restore reads back of a hamper's sections (R289 to R293, R310, R341, R356, R373, R392, R441, R443). -/
namespace Sys2Proof.Machine

/-- A field of a section as a bit vector. -/
def fbv (w : Nat) (bs : List Byte) (o n : Nat) : BitVec w := BitVec.ofNat w (field bs o n)
/-- n numbers of k bytes from an offset. -/
def fields (bs : List Byte) (o k n : Nat) : List Nat := (List.range n).map fun i => field bs (o + k * i) k
/-- A vector of n registers of k bytes from an offset. -/
def fvec (w n : Nat) (bs : List Byte) (o k : Nat) : Vector (BitVec w) n := Vector.ofFn fun (i : Fin n) => fbv w bs (o + k * i.val) k
/-- Bit k of a run of bytes. -/
def bytesBit (bs : List Byte) (k : Nat) : Bool := (bs.getD (k / 8) 0).getLsbD (k % 8)

/-! STREAM, JOBREG and the channels. -/

def Stream.ofImage (bs : List Byte) : Stream :=
  let ctl := field bs 744 8
  { s := fvec 64 64 bs 0 8, sT := fbv 64 bs 712 8, a := fvec 64 16 bs 512 8, aT := fbv 16 bs 720 2, t := fvec 64 8 bs 640 8, p := fbv 16 bs 704 2
    pT := fbv 16 bs 722 2, pc := fbv 64 bs 728 8, redirect := if nbit ctl 0 then some (fbv 64 bs 736 8, bits ctl 2 1) else none
    slots := if nbit ctl 0 then 0 else bits ctl 2 1
    rs := ((fields bs 768 8 (min 16 (field bs 752 2))).map (BitVec.ofNat 64)).reverse, spilled := field bs 754 2, rssp := fbv 64 bs 760 8
    loops := ((List.range (min 4 (field bs 992 8))).map fun k =>
      { start := fbv 64 bs (896 + 24 * k) 8, stop := fbv 64 bs (904 + 24 * k) 8, remaining := fbv 32 bs (912 + 24 * k) 8 }).reverse
    lbuf := [], hold := .none, nextIssue := 0 }

/-- A channel, its reserved slots apart. -/
def Chan.ofBytes (bs : List Byte) : Chan × Nat :=
  let st := field bs 0 8
  ({ cfg := nbit st 63, base := field bs 8 4, size := field bs 12 4, count := field bs 16 4, pidx := bits st 35 24, cidx := bits st 23 12,
     filled := bits st 48 36, taken := bits st 61 49, rsv := [], epoch := 0 }, bits st 11 0)
def Tag.ofCode (x : Nat) : Tag := { infl := nbit x 0, fb := nbit x 1, abs := nbit x 2, readyAt := 0 }
/-- The fields of a JOBREG payload that both a core and a restart point have. -/
structure JobRegs where
  ncsr : BitVec 32
  phst : BitVec 32
  shape : W64
  gres : BitVec 16
  gval : BitVec 16
  dbw0 : W64
  dbw1 : W64
  partw : BitVec 32
  chans : List (Chan × Nat)
  sems : Vector (BitVec 12) 32
  tags : Vector Tag 64
  cause : Nat
  rb : Nat
  cycle : Nat
deriving DecidableEq, Repr
def JobRegs.ofImage (bs : List Byte) : JobRegs :=
  { ncsr := fbv 32 bs 0 8, phst := fbv 32 bs 8 8, shape := fbv 64 bs 16 8, gval := fbv 16 bs 32 2, gres := fbv 16 bs 34 2, dbw0 := fbv 64 bs 40 8
    dbw1 := fbv 64 bs 48 8, partw := fbv 32 bs 56 8, chans := (List.range 16).map fun k => Chan.ofBytes ((bs.drop (64 + 32 * k)).take 32)
    sems := fvec 12 32 bs 576 2, tags := Vector.ofFn fun (i : Fin 64) => Tag.ofCode (field bs (640 + i.val) 1)
    cause := field bs 704 1, rb := field bs 708 4, cycle := field bs 712 8 }

/-! PEND. -/

/-- One entry. -/
structure PendRead where
  pend : Pend
  /-- The channel whose slot it lands. -/
  chan : Option Nat
deriving DecidableEq, Repr
def incsOf (bs : List Byte) : List (Nat × Bool × Nat) := (fields bs 0 8 (bs.length / 8)).map fun x => (x % 4096, nbit x 15, x / 2 ^ 32)
/-- What an entry of a kind writes. -/
def pendTarget (kind : Nat) (e : Engine) (num : Nat) (val : List Byte) (taint : Nat → Bool) : PendTarget :=
  let x := leNat val
  match kind with
  | 0 => .s e num (BitVec.ofNat 64 x) (taint 0)
  | 1 => .a e num (BitVec.ofNat 64 x) (taint 0)
  | 2 => .t e num (BitVec.ofNat 64 x)
  | 3 => .p e num (nbit x 0) (taint 0)
  | 4 => .v num (BitVec.ofNat 8192 x) (BitVec.ofNat 256 ((List.range (val.length / 4)).foldl (fun a k => a + bitAt (taint k) k) 0)) 0 val.length
  | 5 => .vp num (BitVec.ofNat 1024 x) (BitVec.ofNat 1024 ((List.range 1024).foldl (fun a k => a + bitAt (taint (k / 32)) k) 0))
  | 6 => .d num (BitVec.ofNat 4096 x) (BitVec.ofNat 256 ((List.range 256).foldl (fun a k => a + bitAt (taint (k / 2)) k) 0))
  | 7 => .n num (BitVec.ofNat 32 x) (taint 0)
  | 8 =>
    let bs := ((List.range (val.length - 4)).zip (val.drop 4)).map fun y => (y.2, taint (1 + y.1 / 4))
    if num = 0 then .sp e (leNat (val.take 4)) bs else .chan (num - 1) 0 0 (leNat (val.take 4)) bs
  | 9 => .flags x
  | _ => .expert (incsOf val)
/-- Bytes of an entry with a value of n bytes. -/
def pendSize (n : Nat) : Nat := 16 * cdiv (16 + n + cdiv (cdiv n 4) 8) 16
def pendsOf : Nat → List Byte → List PendRead
  | 0, _ => []
  | k + 1, bs =>
    if bs.length < 16 then []
    else
      let n := field bs 4 2
      let kind := field bs 0 1
      let strm := field bs 1 1
      let num := field bs 2 2
      let tb := (bs.drop (16 + n)).take (cdiv (cdiv n 4) 8)
      let t := pendTarget kind (engOf strm) num ((bs.drop 16).take n) (bytesBit tb)
      let sq := field bs 6 2
      let t := match t with
        | .chan c _ _ a d => .chan c sq 0 a d
        | t => t
      { pend := { seq := sq, due := field bs 8 8, ls := false, target := t }
        chan := if kind = 8 ∧ num ≠ 0 then some (num - 1) else none } :: pendsOf k (bs.drop (pendSize n))
/-- The pending writes among entries, in sequence. -/
def pendList (l : List PendRead) : List Pend := (l.map (·.pend)).mergeSort fun x y => decide (x.seq ≤ y.seq)

/-! Reserved slots (R154). -/

/-- The i-th reserved slot's index, of r. -/
def Chan.rsvIndex (c : Chan) (r i : Nat) : Nat := if c.count = 0 then 0 else (c.pidx + c.count * r + i - r) % c.count
/-- The reserved slots of a channel of which pending writes and a fill's last slots have yet to land. `ps` are the writes with their
addresses, `fs` the sequence numbers of the fill's slots; what is left has landed out of order. -/
def Core.rsvOf (c : Core) (ch : Chan) (r : Nat) (ps : List (Nat × Nat)) (fs : List Nat) : List (Nat × Bool) :=
  let idx := List.range r
  let at_ := fun (i : Nat) => ps.find? fun p => p.2 = ch.slot (ch.rsvIndex r i) ∨ some p.2 = c.window (ch.slot (ch.rsvIndex r i)) 1
  let placed := idx.all (fun i => (at_ i).isSome || decide (r < i + 1 + fs.length) || true) && decide ((idx.filter fun i => (at_ i).isSome).length = ps.length)
  if placed then
    let free := idx.filter fun i => (at_ i).isNone
    let tail := free.drop (free.length - fs.length)
    idx.map fun i => match at_ i with
      | some p => (p.1, false)
      | none => match (tail.zip fs).find? (·.1 == i) with
        | some y => (y.2, false)
        | none => (0, true)
  else (ps.map fun p => (p.1, false)) ++ (fs.map fun q => (q, false)) ++ List.replicate (r - ps.length - fs.length) (0, true)

/-! COPY. -/

/-- A copy as its sub-record gives it, its elements still to be formed. -/
structure CopyRead where
  copy : Copy
  reserved : Nat
  taken : Nat
  cycles : List Nat
deriving DecidableEq, Repr
def copyForm (w0 w1 : W32) : CopyForm :=
  match bits w0.toNat 25 20 with
  | 1 => .xcopy | 2 => .xfill | 3 => .xdrain | 4 => .xgath | 5 => .xscat
  | 6 => .xcoll (bits w1.toNat 21 20)
  | _ => if w0.getLsbD 0 then .xfetchTry else .xfetch
def CopyRead.ofImage (tag gen : Nat) (bs : List Byte) : CopyRead :=
  let w0 := fbv 32 bs 0 4
  let w1 := fbv 32 bs 4 4
  let r := field bs 36 2
  let t := field bs 38 2
  let due := field bs 24 8
  let form := copyForm w0 w1
  let fetch := form = .xfetch ∨ form = .xfetchTry
  { copy := { mkCopy tag form gen due w0 w1 (fbv 64 bs 8 8) (fbv 64 bs 16 8) (if fetch then fbv 64 bs 40 4 else 0) (if fetch then 0 else fbv 512 bs 40 64) with
      done := field bs 32 4 }
    reserved := r, taken := t, cycles := fields bs 128 8 (r + t) }

/-- Every element of a copy in ordinal order. A gather's and a scatter's index list is read again. -/
def Core.copyElts (c : Core) (x : Copy) : List Elt :=
  let de := copyEnd x.dEnd
  let ae := copyEnd x.aEnd
  match x.form with
  | .xcopy => affElts x.desc x.nd x.es (some de) (some ae)
  | .xfill => affElts x.desc x.nd x.es none (some ae)
  | .xdrain => affElts x.desc x.nd x.es (some de) none
  | .xcoll cop => collElts de x.collWidth (x.collSizes cop).2 true
  | .xfetch => runElts de ae (W64.f x.bOp 31 0) 16
  | .xfetchTry => runElts de ae (W64.f x.bOp 31 0) 16
  | f =>
    let n := descNat x.desc 4 4
    let w := if descNat x.desc 16 1 = 0 then 2 else 4
    let base := (c.window (descNat x.desc 0 4) (n * w)).getD (descNat x.desc 0 4)
    idxElts (f == .xgath) de ae (descNat x.desc 8 4) (descNat x.desc 12 4) (2 ^ (8 * w) - 1)
      ((List.range n).map fun q => let l := c.spRead (base + q * w) w; (leNat (bytesOf l), taintOf l))
/-- An element before its translation. -/
def Core.rawLoc (c : Core) (n : Nat) : Place → Loc
  | .sp a => .sp ((c.window a n).getD a)
  | .cm va => .cm va (.hbm 0 noLeaf) false
  | .st o => .sp o
def Core.rawMove (c : Core) (e : Elt) : Move := { dst := c.rawLoc e.n e.dst, src := c.rawLoc e.n e.src, n := e.n, idxT := e.idxT }

/-- A core whose windows stand as before its last boundary, for a copy that issued before it. -/
def Core.windowsFor (c : Core) (x : Copy) : Core :=
  let src := if (copyEnd x.aEnd).isSp then 4 else 320
  let dst := if (copyEnd x.dEnd).isSp then 4 else 320
  if x.due - x.latOf src dst < ((c.rp.map (·.cycle)).getD 0) then { c with dbw0 := dbwSwap c.dbw0, dbw1 := dbwSwap c.dbw1 } else c

/-- The slots of a fill or a drain that have been claimed and not finished, with fresh sequence numbers from `sq`. -/
def Core.copySlots (c : Core) (x : Copy) (r : CopyRead) (now sq : Nat) : List CopySlot :=
  let ch := c.chan x.chan
  let k := r.cycles.length
  ((List.range k).zip r.cycles).map fun y =>
    let i := if x.form = .xfill then ch.pidx + ch.count * k + y.1 - k else ch.cidx + ch.count * k + y.1 - k
    let addr := ch.slot i
    let rel := x.form == .xdrain && decide (y.2 + cdiv x.slotSize 64 < now)
    { seq := sq + y.1, epoch := 0, addr := addr, claimed := y.2, released := rel, moves := if rel then [] else c.slotMoves x (x.done + y.1) addr }
/-- A copy in flight as a restore puts it back, before its translation (R273). -/
def Core.putCopy (c0 : Core) (now : Nat) (r : CopyRead) : Core :=
  let x0 := r.copy
  let ch := if x0.form = .xfill then x0.dF - 48 else x0.aF - 48
  let x1 := if x0.form.isSlot then { x0 with chan := ch, slotSize := (c0.chan ch).size, nslots := if (c0.chan ch).size = 0 then 0 else x0.total / (c0.chan ch).size } else x0
  let c := c0.windowsFor x1
  let all := (c.copyElts x1).map c.rawMove
  let fo := if x1.word1.getLsbD 17 ∧ (x1.form.isSlot ∨ x1.form = .xcopy) then some (BitVec.ofNat 32 (descNat x1.desc 48 4), BitVec.ofNat 32 (descNat x1.desc 52 4)) else none
  let x2 := { x1 with moves := if x1.form.isSlot then all else all.drop x1.done, fo := fo, hist := if x1.form == CopyForm.xfetchTry then all.take x1.done else [] }
  let x3 := if x2.form.isSlot then
      { x2 with slots := c.copySlots x2 r now c0.seq, claimed := x2.done + r.cycles.length, nextClaim := (r.cycles.getLast?.map fun z => z + cdiv x2.slotSize 64).getD 0 }
    else x2
  let x4 := match x3.form with
    | .xcoll cop =>
      let cid := x3.collCid
      { x3 with
        matched := decide (0 < x3.done), occ := (aget? c0.collN cid).getD 0
        srcs := (collElts (copyEnd x3.aEnd) x3.collWidth (x3.collSizes cop).1 false).map c.rawMove }
    | _ => x3
  { c0 with
    copies := c0.copies ++ [x4], seq := c0.seq + r.cycles.length
    collN := if x4.form.isColl ∧ !x4.matched then aset c0.collN x4.collCid (x4.occ + 1) else c0.collN }
/-- The elements of a fill of the refetch set, in the slots that it has filled: those before the producer index of the restart point, but for the
`later` slots of fills of the set that follow it (DEDUCED, log 10: the layout does not say which slots they were). -/
def Core.fillElts (c : Core) (x : Copy) (later : Nat) : List Elt :=
  let ch := ((c.rp.map fun r => r.chans.getD (x.dF - 48) .reset)).getD (c.chan (x.dF - 48))
  let n := if ch.size = 0 then 0 else x.total / ch.size
  (affElts x.desc x.nd x.es none (some (copyEnd x.aEnd))).map fun e => match e.dst with
    | .st o => { e with dst := .sp (ch.slot (ch.pidx + ch.count * (n + later) - (n + later) + o / ch.size) + o % ch.size) }
    | _ => e
/-- Slots that fills of one channel in the refetch set have filled. -/
def Core.fillSlots (c : Core) (k : Nat) (l : List CopyRead) : Nat :=
  l.foldl (fun a r => if r.copy.form = .xfill ∧ r.copy.dF = k then a + r.copy.total / (c.chan (k - 48)).size else a) 0
/-- The copies of the refetch set (R443): their elements as they had performed them, in the half that the last swap made the front. -/
def Core.putRefetch (c : Core) : List CopyRead → Core
  | [] => c
  | r :: rest =>
    let b := { c with dbw0 := dbwSwap c.dbw0, dbw1 := dbwSwap c.dbw1 }
    let x := r.copy
    let es := if x.form = .xfill then c.fillElts x (c.fillSlots x.dF rest) else b.copyElts x
    ({ c with refetch := c.refetch ++ [{ x with hist := es.map b.rawMove }] } : Core).putRefetch rest

/-! A core. -/

/-- Sub-records of a CORE section: type, FLAGS, payload. -/
def subsOf : Nat → List Byte → List (Nat × Nat × List Byte)
  | 0, _ => []
  | k + 1, bs =>
    if bs.length < 16 then []
    else (field bs 0 2, field bs 2 2, (bs.drop 16).take (field bs 4 4)) :: subsOf k (bs.drop (16 + 16 * cdiv (field bs 4 4) 16))
/-- The payload of a type and FLAGS; empty when there is none. -/
def subOf (l : List (Nat × Nat × List Byte)) (type flags : Nat) : List Byte := ((l.find? fun x => x.1 == type && x.2.1 == flags).map (·.2.2)).getD []

/-- The vector files of a hamper. The granules' write shadows, which it does not hold, are zero (DESIGN CHOICE, log 39). -/
def Core.putVfile (c : Core) (bs : List Byte) : Core :=
  let P := 48 * c.vg
  let o := 1056 * P
  let c1 := (List.range P).foldl (fun c k => c.setVreg k (fbv 8192 bs (1024 * k) 1024) (fbv 256 bs (1024 * P + 32 * k) 32) 0 1024) c
  { c1 with
    vp := fvec 1024 16 bs o 128, vpT := fvec 1024 16 bs (o + 2048) 128, dirs := fvec 4096 16 bs (o + 4096) 512, dirT := fvec 256 16 bs (o + 12288) 32
    norms := fvec 32 16 bs (o + 12800) 4, normT := fbv 16 bs (o + 12864) 2 }
def Core.putPool (c : Core) (bs : List Byte) : Core :=
  let n := c.poolBytes
  { c with
    pool := c.pool.write (65536 * c.vg) (bs.take n)
    poolT := c.poolT ++ (List.range (n / 16)).flatMap fun k => if bytesBit (bs.drop n) k then (List.range 4).map fun j => 4 * (4096 * c.vg + k) + j else [] }
def Core.putArray (c : Core) (bs : List Byte) (now : Nat) : Core :=
  let fl := field bs 67736 4
  let m := c.m.load bs
  { c with m := { m with
      mctl := fbv 64 bs 67712 8, sca := fbv 32 bs 67720 4, scb := fbv 32 bs 67724 4, pta := (fbv 32 bs 67728 4, nbit fl 0), ptb := (fbv 32 bs 67732 4, nbit fl 1)
      mcnt := fbv 16 bs 67740 2, mmas := imageMmas bs now (fun _ => 0)
      follow := (List.range (min 4 (bits fl 4 2))).map fun k => (fbv 32 bs (67744 + 8 * k) 4, fbv 32 bs (67748 + 8 * k) 4, 0) } }
/-- Buffered lines. A copy sees their bytes, as R83 allows whether or not a FENCE has passed them, which the layout does not say. -/
def psbOf (bs : List Byte) : List PsbLine :=
  (List.range (bs.length / 96)).map fun k =>
    { va := field bs (96 * k) 8, loc := .hbm 0 noLeaf, mask := fbv 64 bs (96 * k + 8) 8, taint := fbv 4 bs (96 * k + 16) 1, data := fbv 512 bs (96 * k + 32) 64,
      writer := [], det := false, fenced := BitVec.ofNat 192 (field bs (96 * k + 8) 8 * (1 + 2 ^ 64 + 2 ^ 128)), born := 0 }
def snapOf (bs : List Byte) : List SnapPart :=
  (List.range (bs.length / 32)).map fun k => { va := field bs (32 * k) 8, data := fbv 128 bs (32 * k + 16) 16, taint := nbit (field bs (32 * k + 8) 1) 0, poison := 0 }
/-- The restart point of a core, when its section holds one. -/
def restartOf (l : List (Nat × Nat × List Byte)) : Option Restart :=
  let j := subOf l 0x11 (2 ^ 15)
  if j.isEmpty then none
  else
    let r := JobRegs.ofImage j
    some { streams := (List.range 4).map fun e => Stream.ofImage (subOf l 0x10 (2 ^ 15 + e)), ncsr := r.ncsr, phst := r.phst, shape := r.shape, gres := r.gres,
           gval := r.gval, dbw0 := r.dbw0, dbw1 := r.dbw1
           chans := r.chans.map fun x => { x.1 with rsv := List.replicate x.2 (0, true) }
           pend := pendList (pendsOf (subOf l 0x13 (2 ^ 15)).length (subOf l 0x13 (2 ^ 15))), cycle := r.cycle, rb := r.rb }

/-- A core as its section gives it, at the cycle its group stands at; `job` is the job it runs. Its translations, and the coefficient
image, are still to be made (R293, R419). What the layout does not give, of a stop its stream and its address, comes from `faddr`. -/
def coreOf (bs : List Byte) (now gen : Nat) (job : Option Job) (faddr : Nat) : Core :=
  let l := subsOf bs.length bs
  let r := JobRegs.ofImage (subOf l 0x11 0)
  let ps := pendsOf (subOf l 0x13 0).length (subOf l 0x13 0)
  let str := fun (e : Engine) => Stream.ofImage (subOf l 0x10 (engNum e))
  let idle := (subOf l 0x10 0).isEmpty
  let reg := fun (c : Core) (e : Engine) => if idle then c else c.setStr e (str e)
  let c0 : Core := { Core.reset with
    job := job, ncsr := r.ncsr, phst := r.phst, shape := r.shape, gres := r.gres, gval := r.gval, dbw0 := r.dbw0, dbw1 := r.dbw1, partw := r.partw
    chans := (List.range 16).foldl (fun v k => v.setIfInBounds k ((r.chans.getD k (.reset, 0)).1)) Core.reset.chans, sems := r.sems, tags := r.tags
    stop := if r.cause = 0 then none else some { cause := r.cause, strm := engOf faddr, faddr := faddr, held := false, parked := false, cycle := now - 1 }
    loading := [28, 32, 33, 34].contains r.cause, rp := restartOf l, epend := incsOf (subOf l 0x18 0), allocs := 1, psb := psbOf (subOf l 0x14 0), snap := snapOf (subOf l 0x15 0)
    pend := pendList ps, seq := ps.foldl (fun m x => max m (x.pend.seq + 1)) 0 }
  let c1 := ((engines.foldl reg c0).putVfile (subOf l 0x12 0)).putArray (subOf l 0x16 0) now |>.putPool (subOf l 0x19 0)
  let c2 := { c1 with
    psbFull := decide (2048 ≤ c1.psb.length)
    rbDone := match c1.rp with
      | some q => q.rb
      | none => 0
    retrans := !c1.psb.isEmpty || !c1.snap.isEmpty || l.any fun x => x.1 == 0x17 && x.2.1 < 64, coefLost := true }
  let copies := (l.filter fun x => x.1 == 0x17 && decide (x.2.1 < 64)).map fun x => CopyRead.ofImage x.2.1 gen x.2.2
  let c3 := copies.foldl (fun c x => c.putCopy now x) c2
  let c4 := c3.putRefetch ((l.filter fun x => x.1 == 0x17 && decide (2 ^ 14 ≤ x.2.1)).map fun x => CopyRead.ofImage 0 gen x.2.2)
  (List.range 16).foldl (fun c k =>
    let n := (r.chans.getD k (.reset, 0)).2
    if n = 0 then c
    else
      let ws := (ps.filter (·.chan == some k)).filterMap fun x => match x.pend.target with
        | .chan _ q _ a _ => some (q, a)
        | _ => none
      let fs := (c.copies.filter fun x => x.form == .xfill && x.chan == k).flatMap fun x => x.slots.map (·.seq)
      c.setChan k { c.chan k with rsv := c.rsvOf (c.chan k) n ws fs }) c4

/-! Queues, instances, groups. -/

def FaultRec.ofBytes (bs : List Byte) : FaultRec :=
  { va := field bs 0 8, ipa := field bs 8 8, handle := field bs 16 4, gidx := field bs 20 2, ord := field bs 22 1, strm := field bs 23 1 % 4, qt := nbit (field bs 23 1) 2,
    acc := field bs 24 1, level := field bs 25 1 % 128, walk := nbit (field bs 25 1) 7, reason := field bs 26 1, gen := field bs 27 1, q := field bs 28 1 }
/-- A queue as its section gives it: Pre-empted, with what it was before, and its records without IDs. -/
def Queue.ofSection (q : Nat) (bs : List Byte) (icount : Nat) : Queue :=
  let fl := field bs 2 1
  let w := nbit fl 2
  let before := QState.ofCode (field bs 1 1)
  let r := fun (i : Nat) => field bs (16 + 8 * i) 8
  { Queue.reset with
    state := .preempted, beforePre := before, prior := if w then .waiting else .running, thread := Stream.ofImage ((bs.drop 256).take 1024)
    localMem := Mem.write [] 0 ((bs.drop 1280).take 16384), pri := BitVec.ofNat 2 (r 0), npovr := nbit (r 1) 9, np := nbit fl 1, hnd := nbit fl 0
    qhnd := BitVec.ofNat 55 (r 2), qepc := BitVec.ofNat 55 (r 3), qcauseStrm := BitVec.ofNat 2 (r 4 / 64), qcauseCode := BitVec.ofNat 6 (r 4)
    qjob := BitVec.ofNat 64 (r 5), qfaddr := BitVec.ofNat 64 (r 6), qdebt := BitVec.ofNat 64 (r 8), rcnt := BitVec.ofNat 8 (r 9 / 256), rcause := BitVec.ofNat 6 (r 9)
    kwait := if w then some (field bs 96 8) else none, launched := field bs 104 8, seq := if field bs 104 8 = 0 then 0 else field bs 104 8 * 16 + q
    elapsed := field bs 8 8, icount := icount
    faults := (List.range (field bs 3 1)).map fun k => (0, { FaultRec.ofBytes ((bs.drop (17664 + 32 * k)).take 32) with q := q }) }
def IState.ofCode (n : Nat) : IState :=
  match n with
  | 0 => .pending | 1 => .admitted | 2 => .walking | 3 => .draining | 4 => .complete | _ => .faulted
/-- An instance as its section gives it, its groups apart; `order` is its place among the sections. -/
def instOf (bs : List Byte) (order : Nat) : Inst :=
  let fl := field bs 7 1
  { handle := field bs 0 4, q := field bs 0 4 % 16, state := IState.ofCode (field bs 4 1), cause := field bs 50 1, tev := nbit fl 2, tnt := nbit fl 1, det := nbit fl 0,
    mode := field bs 5 1, code := field bs 8 8, argp := fbv 64 bs 16 8, lcnt := fields bs 24 4 6, counts := [], kinds := [], pri := field bs 49 1,
    deps := fields bs 56 4 14, order := order, gen := field bs 52 1, partw := 0, codeOff := [], coefOff := 0, rssb := 0, groups := [], kbarGen := 0, kbarOrder := [],
    slots := [], readFault := false, reads := [] }
def GState.ofCode (n : Nat) : GState :=
  match n with
  | 0 => .forming | 1 => .lockstep | 2 => .paused | _ => .draining
/-- A group formed on the new clusters, as the KINST and GROUP sections leave it; paused while it is restored. A walk is not carried: its access
issues anew (R356, R419). One without a section has
dissolved. -/
def Group.ofSections (g : Group) (kinst : List Byte) (sec : Option (List Byte)) : Group :=
  let o := 128 + 32 * g.gidx
  let g1 := { g with nextJ := field kinst o 8, tuples := field kinst (o + 8) 8, endedMask := fbv 128 kinst (o + 16) 16 }
  match sec with
  | none => { g1 with state := .dissolved }
  | some bs =>
    if field bs 5 1 = 0 then g1
    else { g1 with state := .paused, ret := GState.ofCode (field bs 6 1), prsn := setBit (setBit (fbv 8 bs 7 1) 1 false) 4 true, vcyc := field bs 8 8, stand := true }

/-! The CTX section. -/

/-- A slot of the ordered-reduction part, and what follows it. -/
def slotOf (bs : List Byte) : Slot × List Byte :=
  let n := field bs 12 4 % 2 ^ 31
  ({ ea := field bs 0 8, dpa := 0, leaf := 0, handle := field bs 8 4, det := false, overrun := nbit (field bs 12 4) 31, bad := false, lost := true
     contribs := (List.range n).map fun k =>
       let o := 16 + 16 * k
       { i := field bs o 5, p := field bs (o + 6) 2, n := field bs (o + 8) 4, taint := nbit (field bs (o + 5) 1) 0, x := fbv 32 bs (o + 12) 4 } }, bs.drop (16 + 16 * n))
def slotsOf : Nat → List Byte → List Slot
  | 0, _ => []
  | k + 1, bs => let r := slotOf bs; r.1 :: slotsOf k r.2
/-- Length of the trail part. -/
def trailLen : Nat := 80 + 128 + 8192 + 136
/-- The trail as its part gives it, without the ring's translations. -/
def trailOf (bs : List Byte) : Trail :=
  let r := fun (i : Nat) => field bs (8 * i) 8
  let t := { ((Trail.reset.write 0 (BitVec.ofNat 64 (r 0))).write 1 (BitVec.ofNat 64 (r 1))) with
    mode := BitVec.ofNat 2 (r 1), widx := BitVec.ofNat 64 (r 2), ridx := BitVec.ofNat 64 (r 3), lost := nbit (r 4) 4, div := nbit (r 4) 3, fev := nbit (r 4) 2, wev := nbit (r 4) 1
    dseq := BitVec.ofNat 64 (r 5), dexp0 := BitVec.ofNat 64 (r 6), dexp1 := BitVec.ofNat 64 (r 7), dact0 := BitVec.ofNat 64 (r 8), dact1 := BitVec.ofNat 64 (r 9) }
  let m := (bs.drop 208).take 8192
  { t with
    matched := if t.mode = 2 then ((List.range 65536).filter (bytesBit m)).map (t.ridx.toNat + ·) else []
    held := (List.range (min 8 (field bs 8400 8))).map fun k => (fbv 64 bs (8408 + 16 * k) 8, fbv 64 bs (8416 + 16 * k) 8) }

/-! Validity (R292) and the directory. -/

/-- A directory entry: type, INST, length, offset from the hamper's base. -/
structure DirEntry where
  type : Nat
  inst : Nat
  len : Nat
  off : Nat
deriving DecidableEq, Repr
def dirOf (body : List Byte) (nsec : Nat) : List DirEntry :=
  (List.range nsec).map fun k => { type := field body (16 * k) 2, inst := field body (16 * k + 2) 2, len := field body (16 * k + 4) 4, off := field body (16 * k + 8) 8 }
def popcount (x : Nat) (n : Nat) : Nat := ((List.range n).filter fun k => nbit x k).length
/-- R292, for a header and a body. -/
def hamperOk (hd body : List Byte) : Bool :=
  let n := field hd 8 8
  decide (field hd 0 4 = hamperMagic) && decide (field hd 4 2 = 1) && nbit (field hd 6 1) 0 && (hd.drop 64).take 64 == sha512 body
    && (dirOf body (field hd 16 4)).all (fun e => decide (4096 ≤ e.off) && decide (e.off + e.len ≤ 4096 + n))
    && decide (field hd 20 2 = popcount (field hd 24 8) 64)
/-- The header and the body at an address. -/
def State.hamperAt (s : State) (a : Nat) : List Byte × List Byte := (s.hbm.read a 4096, s.hbm.read (a + 4096) (leNat (s.hbm.read (a + 8) 8)))
/-- Sections of a type: INST and content. -/
def sectionsOf (hd body : List Byte) (type : Nat) : List (Nat × List Byte) :=
  ((dirOf body (field hd 16 4)).filter (·.type == type)).map fun e => (e.inst, (body.drop (e.off - 4096)).take e.len)

end Sys2Proof.Machine
end

