-- ==== Sys2Proof/Machine/Contexts.lean ====
section
/-! DEFINITION. The life of a context (R275 to R281, R294, R296): the resources a command names, BIND and UNBIND, function-level reset,
and the scrub. -/
namespace Sys2Proof.Machine

/-! Resources (R277). -/

/-- Four runs of an operand; one of count 0 is unused. -/
def opRuns (op : BitVec 496) (o : Nat) : List (Nat × Nat) :=
  ((List.range 4).map fun k => (opF op (o + 4 * k) 2, opF op (o + 4 * k + 2) 2)).filter fun r => r.2 != 0
/-- Cluster numbers of a mask, ascending. -/
def maskClusters (m : Nat) : List Nat := (List.range 64).filter (nbit m)
/-- A cluster with a core, or its control core, marked failed (R277, R454). -/
def clusterFailed (m : Nat) : Bool := (clusterCores m).any Config.coreFailed || Config.coreFailed (1024 + m)
/-- Contexts other than one that are not Free. -/
def State.others (s : State) (cxn : Nat) : List Ctx := ((List.range 32).filter fun n => n != cxn && (s.ctx n).state.held).map s.ctx
/-- REASON 2: 1 to 64 clusters, none another context's, none failed. -/
def State.clustersOk (s : State) (cxn mask : Nat) : Bool × Nat :=
  (decide (maskClusters mask ≠ []) && (maskClusters mask).all (fun m => !clusterFailed m && (s.others cxn).all fun c => !c.clmask.getLsbD m), 2)
/-- Blocks of 512 MiB of runs. -/
def runBlocks (l : List (Nat × Nat)) : List Nat := l.flatMap fun r => (List.range r.2).map (r.1 + ·)
/-- REASON 3: whole blocks of local HBM, each named once, none another context's. -/
def State.regionOk (s : State) (cxn : Nat) (l : List (Nat × Nat)) : Bool × Nat :=
  let bs := runBlocks l
  (!bs.isEmpty && decide bs.Nodup && bs.all (fun b => decide ((b + 1) * 2 ^ 29 ≤ hbmTop) && (s.others cxn).all fun c => !c.ownsBlock b), 3)
/-- REASON 4: shares are staged, and still pass the checks of R432. -/
def State.stagedOk (s : State) (cxn : Nat) : Bool × Nat :=
  (match (s.ctx cxn).stagedSlots with
   | some x => s.sharesOk cxn x.1 x.2.2 x.2.1
   | none => false, 4)
/-- REASON 5: a virtual function that no other context is bound to. -/
def State.vfOk (s : State) (cxn vf : Nat) : Bool × Nat := (decide (1 ≤ vf) && decide (vf ≤ 63) && (s.others cxn).all fun c => c.vf != vf, 5)

/-- Every core of some clusters zeroed and reset, and held by a context (Table 10-3, R21). -/
def State.freshCores (s : State) (owner : Option Nat) (l : List Nat) : State :=
  (l.flatMap clusterCores).foldl (fun t n => t.setCore n { Core.reset with owner := owner }) s
/-- A context takes its resources, with everything else of it at reset. -/
def State.giveCtx (s : State) (cxn : Nat) (st : CxState) (vf dcn mask : Nat) (runs : List (Nat × Nat)) (quant pcal : Nat) (frames : Nat × Nat) : State :=
  match (s.ctx cxn).stagedSlots with
  | none => s
  | some x =>
    let c : Ctx := { Ctx.reset with
      vf := vf, dcn := BitVec.ofNat 16 dcn, clmask := BitVec.ofNat 64 mask, runs := runs, tok := x.1, slotMask := x.2.1, frw := x.2.2,
      pcal := BitVec.ofNat 32 pcal, quant := BitVec.ofNat 32 quant, slice := quant * 1024, frames := frames }
    ((((s.freshCores (some cxn) (maskClusters mask)).setCtx cxn c.fillBuckets).cxGoto cxn st).changeTable)
/-- BIND. -/
def execBind (op : BitVec 496) (s : State) : Out :=
  let n := opCx op
  s.command [s.cxIn n [.free], s.clustersOk n (opF op 4 8), s.regionOk n (opRuns op 12), s.stagedOk n, s.vfOk n (opF op 1 1)] fun s =>
    (s.giveCtx n .bound (opF op 1 1) (opF op 2 2) (opF op 4 8) (opRuns op 12) (opF op 28 4) (opF op 32 4) (0, 0)).attest n

/-! Halting with nothing saved (R285, R296). -/

def State.haltThread (s : State) (cxn q : Nat) : State :=
  (State.flushAgent (.thread cxn q) (s.queue cxn q).strong.length s).modQueue cxn q fun k => { k with strong := [], undo := none }
/-- Every stream and thread of a context is halted as class A halts it. -/
def State.haltCtx (s : State) (cxn : Nat) : State :=
  (List.range 16).foldl (fun t q => t.haltThread cxn q) ((s.ctx cxn).runCores.foldl (fun t n => t.haltJob n) s)
/-- The VALID byte of the hamper of the save that entered Saved (Table 10-3). -/
def State.clearValid (s : State) (a : Nat) : State := s.physWrite 0 (.hbm (a + 6) noLeaf) [(0, false)]

/-- UNBIND. -/
def State.unbind (s : State) (cxn : Nat) : State :=
  let s1 := match (s.ctx cxn).state with
    | .running => s.haltCtx cxn
    | .saved => s.clearValid (s.ctx cxn).hamper
    | _ => s
  (s1.modCtx cxn fun c => { c with vf := 0, deferred := none }).cxGoto cxn .tornDown
def execUnbind (op : BitVec 496) (s : State) : Out :=
  s.command [s.cxIn (opCx op) [.bound, .running, .saved]] fun s => s.unbind (opCx op)

/-! Function-level reset (R294, R296). -/

/-- A message of a context's migration stream to a peer Guide (log 5), with the context's domain context number (R433). -/
def State.guideSend (s : State) (cxn dev kind : Nat) (bytes : List Byte) : State := s.send (.fabric dev (s.ctx cxn).dcn.toNat kind bytes)
/-- ABORT to the peer of a migration. -/
def State.sendAbort (s : State) (cxn : Nat) : State :=
  match (s.ctx cxn).mig with
  | some m => s.guideSend cxn m.peer 16 (leBytes 1 m.peerCxn)
  | none => s
/-- A virtual function's MSI-X table and pending bits after its reset (log 8). -/
def Guide.dropMsix (g : Guide) (vf : Nat) : Guide :=
  { g with msixTable := g.msixTable.filter fun x => x.1 / 2 ^ 16 != vf, msixPend := g.msixPend.filter fun x => x.1 != vf }
/-- A context in one of the states of R296 goes to Resetting. -/
def State.resetCtx (s : State) (cxn : Nat) : State :=
  let s1 := match (s.ctx cxn).state with
    | .running => s.haltCtx cxn
    | .quiescing => s.haltCtx cxn
    | .saved => s.clearValid (s.ctx cxn).hamper
    | .migOut => (s.sendAbort cxn).haltCtx cxn
    | _ => s
  (s1.modCtx cxn fun c => { c with deferred := none, restoring := false, ringLost := false }).cxGoto cxn .resetting
/-- States of R296. -/
def CxState.resets : CxState → Bool
  | .bound => true | .running => true | .quiescing => true | .saved => true | .migOut => true
  | _ => false
/-- VF_FLR. One that comes before boot step 6 has completed is ignored (R453). -/
def execVfFlr (vf : Nat) (s : State) : Out :=
  .next (if s.guide.boot ≤ 6 then s
  else match s.byVf vf with
    | some n => if (s.ctx n).state.resets then (s.resetCtx n).modGuide (·.dropMsix vf) else s
    | none => s)

/-! The scrub (R280). -/

/-- A context as the scrub of Resetting leaves it. -/
def Ctx.scrubbed (c : Ctx) : Ctx :=
  { c with
    tchk := false, mixdbg := false, partd := partdReset, perf := Ctx.reset.perf, ectr := [], ectrT := [], queues := Ctx.reset.queues
    insts := [], launchOrder := 0, trail := .reset, s1root := 0, mix := [], marks := Ctx.reset.marks, tiers := [], requests := []
    descs := [], used := []
    mig := none, deferred := none, track := c.track && c.mig.isNone, cls := 0, hamper := 0 }
/-- R412: a fault record of a scrubbed context that waits for room in the event queue is discarded. -/
def Guide.dropRecords (g : Guide) (cxn : Nat) : Guide :=
  { g with backlog := g.backlog.filter fun e => !(bits e.toNat 6 0 == 1 && bits e.toNat 15 8 == cxn + 1) }
/-- The scrub that both kinds do: the last holders of old generations end with it (R414). -/
def State.scrub (s : State) (cxn : Nat) : State :=
  let c := s.ctx cxn
  ((((s.flushHost cxn).freshCores (some cxn) c.clusters).modCtx cxn Ctx.scrubbed).modGuide (·.dropRecords cxn)).genNotices cxn c.heldGens
/-- Every byte of a region zeroed, in HBM and in the last-level cache. -/
def State.zeroRegion (s : State) (c : Ctx) : State :=
  let inR := fun (a : Nat) => (runBlocks c.runs).contains (a / 2 ^ 29)
  { s with
    hbm := s.hbm.clear inR, hbmT := s.hbmT.clear fun p => inR (16 * p), hbmP := s.hbmP.clear fun p => inR (16 * p)
    llcP := s.llcP.clear fun p => inR (16 * p), llc := s.llc.filter fun x => !inR (64 * x.line) }
/-- SCRUB_COMPLETE. -/
def State.scrubDone (s : State) (cxn : Nat) : State :=
  match (s.ctx cxn).state with
  | .resetting => (s.scrub cxn).cxGoto cxn .bound
  | .tornDown =>
    let s1 := (s.scrub cxn).zeroRegion (s.ctx cxn)
    let s2 := (s1.freshCores none (s.ctx cxn).clusters).cxGoto cxn .free
    -- R457: an invalidation that a command awaits has nothing left to wait for
    let s3 := if s2.guide.waitInv = some cxn then s2.mbEnd 0 0 else s2
    (s3.setCtx cxn { Ctx.reset with stagedSlots := none }).changeTable
  | _ => s
def execScrubComplete (cxn : Nat) (s : State) : Out := .next (s.scrubDone cxn)

end Sys2Proof.Machine
end

