-- ==== Sys2Proof/Machine/Stops.lean ====
section
/-! DEFINITION. Stops of a context by class B, F and A (R282 to R287), their deferral by stretches (R321), and the save (R288, R384,
R392). -/
namespace Sys2Proof.Machine

/-! Threads and jobs. -/

/-- A queue's thread at its boundary (R282): the queue is Pre-empted. -/
def Queue.preempt (k : Queue) (cls : Nat) : Queue := { k with state := .preempted, beforePre := k.state, stopClass := cls, undo := none, waitLink := none }
/-- A thread with an access that waits for the trail, in a stop that does not wait: the instruction has not issued (R384). -/
def Queue.unissue (k : Queue) : Queue :=
  match k.undo with
  | some (x, n) => { k with thread := x, icount := n, strong := [] }
  | none => { k with strong := [] }
def State.stopThread (s : State) (cxn q cls : Nat) : State :=
  let k := s.queue cxn q
  if k.state = .idle ∨ k.state = .preempted then s
  else
    let s1 := if 1 < cls then State.flushAgent (.thread cxn q) k.strong.length s else s
    if (s1.queue cxn q).strong.isEmpty then s1.modQueue cxn q (·.preempt cls)
    else if 1 < cls then s1.modQueue cxn q fun x => x.unissue.preempt cls
    else s1

/-- A pending value known to be poisoned or refused, the one due first. -/
def Core.badPend (c : Core) : Option (Pend × Engine × Nat × Nat) :=
  (c.pend.filterMap fun p => match p.target with
    | .poison e k a => some (p, e, k, a)
    | _ => none).foldl (fun (b : Option (Pend × Engine × Nat × Nat)) x => match b with
    | some y => if x.1.due < y.1.due then some x else some y
    | none => some x) none
/-- R287: an error that a stopping job has met is taken before the job is saved, and its phase cancelled; a trap that no handler has yet
entered is met again as the phase is. A cancel whose record the ring has no room for is still to take when the job is saved (R384, log 26). -/
def State.stopError (s : State) (n : Nat) : State :=
  let free := match (s.core n).stop with
    | some st => !st.held && !st.parked
    | none => true
  match (s.core n).badPend with
  | some (p, e, k, a) =>
    if free then ((s.modCore n fun c => { c with stop := none, pend := c.pend.filter (fun (q : Pend) => q.seq != p.seq) }).raise n e k a)
    else s
  | none => s
/-- A collective whose data has been exchanged completes at the halt, since what the other ranks gave is gone with them (R264, R273). -/
def State.haltColls (s : State) (n : Nat) : State :=
  ((s.core n).copies.filter fun x => x.form.isColl && x.matched).foldl (fun t x => t.copyMoves n x.tag x.moves.length) s
/-- A core that has no job is left with nothing on its way. A job stopped by class F, or by class A, whose phase is cancelled; one that already waits at its restart point only loses its
copies. -/
def State.stopJob (s : State) (n cls : Nat) : State :=
  if (s.core n).job.isNone then (s.flushStrong n).modCore n fun c => { c.landRest with strong := [] }
  else if (s.core n).stopClass ≠ 0 then s
  else
    let s1 := (s.flushStrong n).stopError n
    let s2 := if cls = 3 then
        let t := s1.abandonCopies n
        (if (t.core n).loading then t else t.cancelPhase n).modCore n fun c => { c with strong := [] }
      else s1.haltColls n
    s2.modCore n fun c => { c with stopClass := cls }
/-- Class B: the members of a group have come to rest, with nothing in flight (R283). -/
def State.groupRests (s : State) (g : Group) : Bool :=
  g.members.all fun n =>
    let k := s.core n
    (k.job.isNone || k.stopClass != 0 || k.stop.isSome) && k.placed.isNone && k.copies.isEmpty && k.m.mmas.isEmpty && k.strong.all (·.done)
/-- Groups of a context pause for its stop (R282). -/
def State.pauseGroups (s : State) (cxn : Nat) (p : Group → Bool) : State :=
  s.modCtx cxn fun c => { c with insts := c.insts.map fun (i : Inst) => ({ i with groups := i.groups.map fun g => if p g then g.pause 4 else g } : Inst) }
/-- What the stop in force of a context can do now. Class B leaves the jobs to their PHASE (R283), and a group whose members have come to rest
pauses (R282). -/
def State.settleStop (s : State) (cxn : Nat) : State :=
  let cls := (s.ctx cxn).stopCls
  if cls = 0 then s
  else
    let s1 := (List.range 16).foldl (fun t q => t.stopThread cxn q cls) s
    if cls = 1 then s1.pauseGroups cxn s1.groupRests
    else
      let s2 := (s1.ctx cxn).runCores.foldl (fun t n => (t.startJob n).stopJob n cls) s1
      s2.pauseGroups cxn fun _ => true
/-- Every stream and thread is halted, and under class B nothing is left in flight. -/
def State.stopDone (s : State) (cxn : Nat) : Bool :=
  let c := s.ctx cxn
  let b := c.stopCls == 1
  c.stopCls != 0 && c.queues.toList.all (fun k => k.state == .idle || k.state == .preempted)
    && c.runCores.all fun n =>
        let k := s.core n
        (k.job.isNone || k.stopClass != 0 || (b && k.stop.isSome))
          && (!b || (k.placed.isNone && k.copies.isEmpty && k.m.mmas.isEmpty && k.strong.all (·.done)))

/-! The save. -/

/-- The pre-emption-point records of a stop (Table 15-4): one for each group of the instance that is running. -/
def State.pointRecords (s : State) (cxn : Nat) : List (Nat × Nat) :=
  let c := s.ctx cxn
  let q1 := fun (h cls : Nat) => h * 2 ^ 32 + c.saves % 2 ^ 16 * 4 + cls
  match c.insts.find? fun i => i.state == .walking || i.state == .draining with
  | some i =>
    (i.groups.filter (·.state != .dissolved)).map fun g =>
      let cls := g.members.foldl (fun m n => if (s.core n).job.isSome then max m (s.core n).stopClass else m) 0
      (mkQ0 g.nxt 0x08 (issUnit 4 g.gidx), q1 i.handle (if cls = 0 then c.cls else cls))
  | none => [(mkQ0 0 0x08 (issUnit 4 0), q1 0 c.cls)]
/-- A record that is held while the ring is full, or behind one that is. -/
def State.pointRecord (s : State) (cxn : Nat) (r : Nat × Nat) : State :=
  let t := (s.ctx cxn).trail
  if t.full ∨ t.held ≠ [] ∨ (s.ctx cxn).ringLost then s.modTrail cxn fun t => { t with held := t.held ++ [(BitVec.ofNat 64 r.1, BitVec.ofNat 64 r.2)] }
  else s.writeRecord cxn r.1 r.2
/-- R384: a stop that comes while records are held adds none; when it is of class A the held ones take CLASS 3. -/
def State.stopRecords (s : State) (cxn : Nat) : State :=
  let c := s.ctx cxn
  if c.trail.mode ≠ 1 then s
  else if c.trail.held = [] then (s.pointRecords cxn).foldl (fun t r => t.pointRecord cxn r) s
  else if c.cls = 3 then s.modTrail cxn fun t => { t with held := t.held.map fun h => (h.1, h.2 ||| 3) }
  else s

/-- What the Guide keeps of a core's job (log 10). -/
def Core.keepJob (c : Core) (j : Job) : KeptJob :=
  { job := j, stop := c.stop, loading := c.loading, holds := engines.map fun e => (c.str e).hold, next := engines.map fun e => (c.str e).nextIssue
    pend := c.settleStatus.pend, strong := c.strong, seq := c.seq, since := c.since, gres := c.gres, gval := c.gval, gpend := c.gpend, order := c.order, chans := c.chans, copies := c.copies
    doneCopies := c.doneCopies, lines := c.psb.map fun l => (l.va, l.writer, l.fenced)
    poisons := (c.snap.filter (·.poison != 0)).map fun x => (x.va, x.poison), aredN := c.aredN, collN := c.collN, rb := c.rb, rbDone := c.rbDone
    refetching := c.refetching, lateErr := c.lateErr, refetch := c.refetch, resumes := c.m.mmas.map (·.resume) }
/-- What it keeps of a core between two jobs. -/
def Core.keepIdle (c : Core) (k : Nat) : KeptIdle := { core := k, psb := c.psb, snap := c.snap, epend := c.epend, collN := c.collN }
/-- What it keeps of a queue. -/
def Queue.keep (k : Queue) (q : Nat) : KeptQueue :=
  { q := q, ncsr := k.ncsr, bound := k.bound, last := k.seq, launched := k.launched, cause := k.lastCause, hslots := k.hslots, matchedAt := k.matchedAt, localT := k.localT, hold := k.thread.hold }
/-- What it keeps of a save whose hamper has a body. -/
def State.keep (s : State) (cxn : Nat) (body : List Byte) : Kept :=
  let c := s.ctx cxn
  { digest := BitVec.ofNat 512 (leNat (sha512 body)), jobs := c.runCores.filterMap fun n => (s.core n).job.map (s.core n).keepJob
    idle := ((List.range c.ports.length).zip c.ports).filterMap fun x => if (s.core x.2).job.isNone ∧ (s.core x.2).owner = some cxn then some ((s.core x.2).keepIdle x.1) else none
    queues := (List.range 16).map fun q => (c.queue q).keep q, kbars := c.insts.map fun i => (i.handle, i.kbarGen, i.kbarOrder, (i.groups.filter (·.redo)).map (·.gidx)), admissions := c.trail.admissions
    divOwner := c.trail.divOwner, s1root := c.s1root, cg := c.cg, wins := c.wins }

/-- A context once its hamper is valid: nothing of it is left on its cores. -/
def Ctx.afterSave (c : Ctx) : Ctx :=
  { c with insts := c.insts.map fun (i : Inst) => ({ i with groups := [], slots := [], kbarOrder := [] } : Inst), requests := [], descs := [], used := [], buckets := [] }
/-- A context whose clusters are released, in Saved (Table 10-3). -/
def State.enterSaved (s : State) (cxn : Nat) : State :=
  (s.modCtx cxn fun c => { c with clmask := 0, mig := none, track := c.track && c.mig.isNone }).cxGoto cxn .saved
/-- The hamper written at the context's address: the body, the header, and byte 6 (R288); with what the Guide keeps beside it. -/
def State.writeHamper (s : State) (cxn : Nat) : State :=
  let c := s.ctx cxn
  let secs := s.sections cxn
  let body := hamperBody secs
  let k := s.keep cxn body
  let s1 := s.physWrite 0 (.hbm (c.hamper + 4096) noLeaf) (tainted false body)
  (s1.physWrite 0 (.hbm c.hamper noLeaf) (tainted false (c.hamperHeader body secs.length))).modGuide fun g =>
    { g with kept := (g.kept.filter fun (x : Kept) => x.digest != k.digest) ++ [k] }
/-- HAMPER_VALID: every stop is made, the records are written, and the hamper becomes valid. -/
def State.save (s : State) (cxn : Nat) : State :=
  let cls := (s.ctx cxn).stopCls
  let s0 := s.settleStop cxn
  if !s0.stopDone cxn then s
  else
    let cores := (s0.ctx cxn).runCores
    let s1 := cores.foldl (fun t n => (t.stopError n).modCore n fun c => if c.job.isNone then c.landRest else if c.stopClass = 0 then { c with stopClass := cls } else c) s0
    let s2 := (s1.modCtx cxn fun c => { c with saves := (c.saves + 1) % 2 ^ 64 }).stopRecords cxn
    -- host requests that waited at the trail are served as those of a Saved context are (R281)
    let s3 := ((cores.foldl (fun t n => t.modCore n (·.release)) (s2.writeHamper cxn)).flushHost cxn).modCtx cxn (·.afterSave)
    match (s3.ctx cxn).state, (s3.ctx cxn).mig with
    | .migOut, some m =>
      if m.aborted then s3.enterSaved cxn
      else (s3.modCtx cxn fun c => { c with mig := some { m with saved := true, step := 2 } }).event 8 (cxn + 1) 0 2
    | _, _ => s3.enterSaved cxn
def execHamperValid (cxn : Nat) (s : State) : Out := .next (s.save cxn)

/-! The command, and its deferral. -/

/-- A queue of the context has a stretch open. -/
def Ctx.stretched (c : Ctx) : Bool := c.queues.toList.any (·.np)
/-- Queues whose stretch defers a request. -/
def Ctx.markDeferring (c : Ctx) : Ctx := { c with queues := c.queues.map fun (k : Queue) => if k.np then { k with deferring := true } else k }
def Ctx.startStop (c : Ctx) (cls hamper : Nat) : Ctx :=
  { c with
    cls := cls, hamper := hamper, deferred := none, queues := c.queues.map fun (k : Queue) => { k with deferring := false }
    mig := c.mig.map fun (m : Mig) => ({ m with stopBegun := true } : Mig) }
/-- The stop begins (Table 10-3): byte 6 is zeroed first (R288). -/
def State.beginStop (s : State) (cxn cls hamper : Nat) : State :=
  let s1 := (s.clearValid hamper).modCtx cxn (·.startStop cls hamper)
  if (s.ctx cxn).state = .running then (s1.perf cxn 11 1).cxGoto cxn .quiescing else s1
/-- R321: a request that a stretch defers; a later one of a later class takes its place (R286). -/
def Ctx.defer (c : Ctx) (cls hamper now : Nat) : Ctx :=
  match c.deferred with
  | some (c0, _, t) => if c0 < cls then { c with deferred := some (cls, hamper, t) } else c
  | none => { c with deferred := some (cls, hamper, now) }.markDeferring
def State.askStop (s : State) (cxn cls hamper : Nat) (force : Bool) : State :=
  if (s.ctx cxn).stretched && !force then s.modCtx cxn (·.defer cls hamper s.pcyc) else s.beginStop cxn cls hamper
/-- PREEMPT. -/
def execPreempt (op : BitVec 496) (s : State) : Out :=
  let n := opCx op
  let cls := opF op 1 1 % 4
  let a := opF op 2 8
  s.command [s.cxIn n [.running, .quiescing], (decide (cls ≠ 0), 11), s.addrOk a 4096 4096] fun s =>
    if (s.ctx n).state = .quiescing then
      (if (s.ctx n).cls < cls then (s.clearValid a).modCtx n fun c => { c with cls := cls, hamper := a } else s)
    else s.askStop n cls a (op.getLsbD 15)
/-- DEFERRED_PREEMPT_START: the delay is a debt of the queues that deferred (R321). -/
def execDeferredPreemptStart (cxn : Nat) (s : State) : Out :=
  .next (match (s.ctx cxn).deferred with
    | some (cls, a, t) =>
      if (s.ctx cxn).stretched then s
      else
        (s.modCtx cxn fun c => { c with queues := c.queues.map fun (k : Queue) =>
          if k.deferring then { k with qdebt := k.qdebt + BitVec.ofNat 64 (s.pcyc - t) } else k }).beginStop cxn cls a
    | none => s)

end Sys2Proof.Machine
end

