-- ==== Sys2Proof/Machine/Restore.lean ====
section
/-! DEFINITION. RESUME and what every restore does (R278, R282, R286, R292, R293, R341, R356, R373, R392, R419, R477). -/
namespace Sys2Proof.Machine

/-! The mapping (R278). -/

/-- As many clusters, and two lie on one die exactly when the clusters they map to do. -/
def mapOk (old new : Nat) : Bool :=
  let a := maskClusters old
  let b := maskClusters new
  let n := a.length
  a.length == b.length && (List.range n).all fun i => (List.range n).all fun j => (a.getD i 0 / 8 == a.getD j 0 / 8) == (b.getD i 0 / 8 == b.getD j 0 / 8)

/-! What the Guide has kept (log 10). -/

/-- What is kept of the save that wrote a header. This Guide keeps it of its own saves; of one that another device has made it is a free value,
of which a restore takes what does not go against the hamper (log 10). -/
structure Keeping where
  own : Option Kept
  digest : BitVec 512
deriving DecidableEq, Repr
def State.keptOf (s : State) (hd : List Byte) : Keeping :=
  { own := s.guide.kept.find? fun k => k.digest == fbv 512 hd 64 64, digest := fbv 512 hd 64 64 }
/-- Of the context. -/
def Keeping.rest (k : Keeping) : Kept := k.own.getD (Config.keptRest k.digest)
/-- Of the job of a group's ordinal. -/
def Keeping.jobOf (k : Keeping) (i : Inst) (g : Group) (o : Nat) : KeptJob :=
  (k.own.bind fun y => y.jobs.find? fun j => j.job.handle == i.handle && j.job.gidx == g.gidx && j.job.ord == o).getD
    (Config.keptJob k.digest i.handle g.gidx o)
/-- Of a core between two jobs. -/
def Keeping.idleOf (k : Keeping) (n : Nat) : KeptIdle :=
  (k.own.bind fun y => y.idle.find? fun (c : KeptIdle) => c.core == n).getD (Config.keptIdle k.digest n)
/-- Of a queue. -/
def Keeping.queueOf (k : Keeping) (q : Nat) : KeptQueue :=
  (k.own.bind fun y => y.queues.find? fun (x : KeptQueue) => x.q == q).getD (Config.keptQueue k.digest q)
/-- The job of a group's ordinal: the last iteration handed out to the ordinal under fixed placement, else the one kept; the tuple of a job that
another device has saved follows once the header is read (R331). -/
def KeptJob.jobAt (k : KeptJob) (cxn : Nat) (i : Inst) (g : Group) (o : Nat) : Job :=
  let m := g.members.length
  { cxn := cxn, handle := i.handle, gidx := g.gidx, ord := o, i := k.job.i, j := if i.mode = 1 then o + m * ((g.nextJ - 1 - o) / m) else k.job.j }

/-! Queues and instances. -/

/-- A queue that is Idle keeps its count of instructions (R392), and the CAUSE of a start that was ignored (R302), for which no section has a place and
which the Guide's record carries (DESIGN CHOICE, log 10). -/
def Queue.idleWith (icount : Nat) (cause : BitVec 6) : Queue := { Queue.reset with icount := icount, lastCause := cause }
/-- A queue as the resumption leaves it (R286, Table 11-5): the state from before the stop. QSTATE.CAUSE and what else the section has no place for is
that of the Guide's record, a free value for another device's hamper (DESIGN CHOICE, log 10). -/
def Queue.resumed (k : Queue) (x : KeptQueue) (own div : Bool) (limit : Nat) : Queue :=
  { k with
    state := k.beforePre, rcnt := k.rcnt + 1, watched := k.np && decide (limit ≤ k.elapsed), divParked := div && k.beforePre == QState.parked
    beforePre := .idle, ncsr := x.ncsr, bound := if own || k.np then x.bound else 0, seq := if own then x.last else k.seq
    launched := if (if x.launched = 0 then 0 else launchSeq x.launched) = k.launched then x.launched else k.launched
    lastCause := x.cause, hslots := x.hslots, matchedAt := x.matchedAt, localT := x.localT, thread := { k.thread with hold := x.hold } }
/-- Instances in the order of their sections, with the groups of the one that holds the cores, and its slots. -/
def instsOf (secs : List (List Byte)) (gsecs : List (List Byte)) (slots : List Slot) (formed : List Group) (kept : Kept) (replay : Bool) (free : Nat) : List Inst :=
  ((List.range secs.length).zip secs).map fun x =>
    let i := instOf x.2 x.1
    let bar := kept.kbars.find? (·.1 == i.handle)
    let sec := fun (g : Group) => gsecs.find? fun b => field b 0 4 == i.handle && field b 4 1 == g.gidx
    { i with
      mode := if i.mode = 2 ∧ !replay then 0 else i.mode
      kbarGen := (bar.map (·.2.1)).getD (Config.freeCount (free + x.1))
      kbarOrder := (bar.map (·.2.2.1)).getD ((formed.filter fun g => (sec g).isNone).map (·.gidx))
      groups := if i.state.holds then formed.map fun g => { g.ofSections x.2 (sec g) with redo := bar.any fun b => b.2.2.2.contains g.gidx } else []
      slots := slots.filter (·.handle == i.handle) }

/-! Cores. -/

/-- The instance, group and ordinal of a core. -/
def placeOf (l : List Inst) (n : Nat) : Option (Inst × Group × Nat) :=
  l.findSome? fun i => i.groups.findSome? fun g => if g.members.contains n then some (i, g, g.members.idxOf n) else none
/-- A job that class A stopped stands at its restart point, and reports cause 54 (R285, R286). -/
def Core.fromClassA (c : Core) : Core := if bits c.phst.toNat 21 16 = 54 ∧ c.job.isSome ∧ c.rp.isSome then c.restore.setRsm 54 else c
/-- The stop of a job as its queue's records tell it, those of the slots of its instance apart: one parked by a stage-2 fault has no cause in its section. A pipeline error that has
yet to cancel its phase still waits for the ring (R384). -/
def Core.stopOf (c : Core) (recs : List FaultRec) (slots : List Nat) (h g o : Nat) (now : Nat) : Option Stop :=
  match c.stop with
  | some st => some { st with parked := (st.cause == 28 || st.cause == 32 || st.cause == 33 || st.cause == 34) && !c.loading }
  | none =>
    (recs.find? fun r => !r.qt && r.acc != 7 && !(r.acc == 9 && r.strm == 0 && slots.contains r.va) && r.handle == h && r.gidx == g && r.ord == o).map fun r =>
      { cause := 17, strm := engOf r.strm, faddr := r.va, held := false, parked := true, cycle := now - 1 }
/-- The core whose job a queue's handler holds: QJOB names it (R317). -/
def heldCore (l : List Inst) (k : Queue) : Option Nat :=
  if k.hnd then
    ((l.find? fun i => i.handle == bits k.qjob.toNat 63 32).bind (·.group? (bits k.qjob.toNat 31 16))).bind fun g => g.members[bits k.qjob.toNat 15 9]?
  else none
/-- What a stream is held on after a restore. One held at a semaphore or a matrix join has not issued (R476): its word issues again and checks
its causes. VCWAIT checks its word at each cycle at which it is held (log 1). -/
def Hold.reissued : Hold → Hold
  | .sem _ _ => .none
  | .semDue _ _ => .none
  | .join _ _ => .none
  | h => h
/-- The pending writes of a core as its section has them. -/
def Core.pendImages (c : Core) : List Byte := pendBytes (c.pendEntries c.values)
/-- A record of another device's Guide, where it says nothing against a core as the hamper gives it; of what goes against it, what the hamper
gives. -/
def KeptJob.fitted (k : KeptJob) (c : Core) : KeptJob :=
  let guards := ({ c with gres := k.gres, gval := k.gval, gpend := k.gpend } : Core).settleGuards
  let asGuards := guards.gres == c.gres && guards.gval == c.gval
  let chans := if k.chans.toList.flatMap Chan.bytes = c.chans.toList.flatMap Chan.bytes then k.chans else c.chans
  let asPend := ({ c with chans := chans, pend := k.pend } : Core).pendImages == c.pendImages
  let start := match c.rp with
    | some r => engines.all fun e => (c.str e).pc == (r.streams.getD (engNum e) .reset).pc
    | none => false
  let loading := c.loading || (k.loading && start)
  { k with
    stop := c.stop, loading := loading, gres := if asGuards then k.gres else c.gres, gval := if asGuards then k.gval else c.gval, gpend := if asGuards then k.gpend else []
    chans := chans, pend := if asPend then k.pend else c.pend.map fun p => { p with ls := k.pend.any fun q => q.ls && q.due == p.due }, strong := if asPend then k.strong.filter (·.done) else []
    seq := if asPend then k.seq else c.seq, since := if asPend then k.since else 0
    order := if asPend then k.order else .all { ls := Vector.replicate 4 c.seq, cp := c.order.known[0].cp }
    copies := if k.copies.map (fun (x : Copy) => (x.tag, x.image)) = c.copies.map (fun (x : Copy) => (x.tag, x.image)) then k.copies else c.copies
    rb := if loading then c.rbDone else min k.rb c.rbDone, rbDone := if loading then 0 else c.rbDone - k.rb, refetching := k.refetching && c.stop.isSome, refetch := c.refetch }
/-- A core with what the Guide keeps of its job. -/
def Core.withKept (c : Core) (k : KeptJob) : Core :=
  let c1 := engines.foldl (fun (c : Core) e =>
    c.setStr e { c.str e with hold := (k.holds.getD (engNum e) .none).reissued, nextIssue := k.next.getD (engNum e) 0 }) c
  let at_ := fun (h : Option (Nat × Nat)) => h.map fun x => (x.1, (vget k.chans (x.1 % 16) .reset).epoch)
  { c1 with
    stop := k.stop, loading := k.loading, pend := k.pend, strong := k.strong, seq := k.seq, since := k.since, gres := k.gres, gval := k.gval, gpend := k.gpend, order := k.order
    chans := k.chans, copies := k.copies, doneCopies := k.doneCopies, aredN := k.aredN, collN := k.collN, rb := k.rb, rbDone := k.rbDone
    refetching := k.refetching, lateErr := k.lateErr, refetch := k.refetch
    psb := c1.psb.map fun (l : PsbLine) => match k.lines.find? (·.1 == l.va) with
      | some x => { l with writer := x.2.1, fenced := x.2.2 }
      | none => l
    snap := c1.snap.map fun (x : SnapPart) => { x with poison := ((k.poisons.find? (·.1 == x.va)).map (·.2)).getD 0 }
    m := { c1.m with mmas := ((List.range c1.m.mmas.length).zip c1.m.mmas).map fun x =>
      ({ x.2 with ach := at_ x.2.ach, bch := at_ x.2.bch, resume := max x.2.resume (k.resumes.getD x.1 0) } : Mma) } }
/-- A core between two jobs with what the Guide keeps of it. -/
def Core.withIdle (c : Core) (k : KeptIdle) : Core :=
  { c with psb := k.psb, snap := k.snap, epend := k.epend, collN := k.collN, psbFull := decide (2048 ≤ k.psb.length)
           retrans := !k.psb.isEmpty || !k.snap.isEmpty, order := .all { ls := Vector.replicate 4 c.seq, cp := 0 } }
/-- A core of the slice as its section leaves it. -/
def State.restoreCore (s : State) (cxn : Nat) (kept : Keeping) (insts : List Inst) (recs : List FaultRec) (bs : List Byte) (saved n : Nat) : Core :=
  match placeOf insts n with
  | none => { coreOf bs 0 0 none 0 with owner := some cxn, coefLost := false, retrans := false, psb := [], snap := [], epend := [] }
  | some (i, g, o) =>
    let has := !(subOf (subsOf bs.length bs) 0x10 0).isEmpty
    let k := kept.jobOf i g o
    let job := if has then some (if kept.own.isSome then ({ k.job with cxn := cxn } : Job) else k.jobAt cxn i g o) else none
    let c := coreOf bs g.vcyc i.gen job (Config.freeCount (s.free + 2001 + n))
    let c1 := { c with
      owner := some cxn, member := some (cxn, i.handle, g.gidx, o)
      asking := !has && (i.state == IState.walking || i.state == IState.draining) && !g.endedMask.getLsbD o, ended := g.endedMask.getLsbD o }
    if !has then c1.withIdle (kept.idleOf saved)
    else if kept.own.isSome then (c1.withKept k).fromClassA
    else
      let c2 := { c1 with stop := c1.stopOf recs (i.slots.map Slot.ea) i.handle g.gidx o g.vcyc, order := .all { ls := Vector.replicate 4 c1.seq, cp := g.vcyc } }
      (c2.withKept (k.fitted c2)).fromClassA

/-! The whole context. -/

/-- What a hamper gives of a context, its cores apart. -/
def State.ctxFrom (s : State) (cxn mask : Nat) (hd body : List Byte) : Ctx :=
  let c := s.ctx cxn
  let C := ((sectionsOf hd body 1).head?.map (·.2)).getD []
  let E := ((sectionsOf hd body 2).head?.map (·.2)).getD []
  let reg := fun (k : Nat) => field C (8 * k) 8
  let T := (C.drop 56).take trailLen
  let P := C.drop (56 + trailLen)
  let Z := P.drop 256
  let kept := s.keptOf hd
  -- what comes with a migration stands in the context already (R436)
  let r := if c.state = .migIn then { kept.rest with s1root := c.s1root, cg := c.cg, wins := c.wins } else kept.rest
  let qs := sectionsOf hd body 3
  let t0 := trailOf T
  let t := { t0 with admissions := kept.rest.admissions, divOwner := if t0.div then kept.rest.divOwner else none }
  let quant := match qs with
    | (_, b) :: _ => fbv 32 b 72 4
    | [] => c.quant
  let formed := ({ c with clmask := BitVec.ofNat 64 mask } : Ctx).formGroups
  { c with
    clmask := BitVec.ofNat 64 mask, dcn := fbv 16 hd 22 2, s1root := r.s1root, cg := r.cg
    wins := r.wins, tchk := nbit (reg 1) 0, mixdbg := nbit (reg 2) 0, partd := BitVec.ofNat 32 (reg 3), pcal := BitVec.ofNat 32 (reg 6)
    perf := fvec 64 32 P 0 8, ectr := (List.range 4096).filterMap fun e => if field E (8 * e) 8 = 0 then none else some (e, fbv 64 E (8 * e) 8)
    ectrT := (List.range 4096).filter fun e => bytesBit (E.drop 32768) e
    quant := quant, slice := 0, saves := field hd 32 8, trail := t, ringLost := t.mode != 0, restoring := true
    s1inv := c.s1inv.map fun _ => [], s2inv := c.s2inv.map fun _ => [], mix := [], cls := 0, deferred := none, mig := none, frames := (0, 0)
    queues := Vector.ofFn fun (q : Fin 16) =>
      match qs.find? (·.1 == q.val) with
      | some x => (Queue.ofSection q.val x.2 (field T (80 + 8 * q.val) 8)).resumed (kept.queueOf q.val) kept.own.isSome t.div (8 * quant.toNat * 1024)
      | none => Queue.idleWith (field T (80 + 8 * q.val) 8) (kept.queueOf q.val).cause
    launchOrder := (sectionsOf hd body 4).length
    insts := instsOf ((sectionsOf hd body 4).map (·.2)) ((sectionsOf hd body 5).map (·.2)) (slotsOf (field Z 0 8) (Z.drop 8)) formed kept.rest (t.mode == 2) (s.free + 3200) }
/-- A handler that holds a job, and the job that it holds. -/
def State.linkHandler (s : State) (cxn q : Nat) : State :=
  match heldCore (s.ctx cxn).insts (s.queue cxn q) with
  | some n =>
    (s.modQueue cxn q fun k => { k with handling := some n }).modCore n fun c =>
      { c with stop := c.stop.map fun (x : Stop) => ({ x with held := true } : Stop) }
  | none => s
/-- R477: each saved record is delivered again under a new ID. -/
def State.reraise (s : State) (cxn q : Nat) : State :=
  let l := (s.queue cxn q).faults
  l.foldl (fun t f =>
    let i := t.newId
    (i.2.modQueue cxn q fun k => { k with faults := k.faults ++ [(i.1, f.2)] }).event 1 (cxn + 1) i.1 f.2.toNat true) (s.modQueue cxn q fun k => { k with faults := [] })
/-- A divergence delivered again under a new ID. -/
def State.rediverge (s : State) (cxn : Nat) : State :=
  let t := (s.ctx cxn).trail
  if t.div then
    let i := s.newId
    (i.2.modTrail cxn fun t => { t with divId := i.1 }).event 5 (cxn + 1) i.1
      (packed [(t.dseq.toNat, 0), (t.dexp0.toNat, 64), (t.dexp1.toNat, 128), (t.dact0.toNat, 192), (t.dact1.toNat, 256)]) true
  else s
/-- The header of an instance that walks, read again for its walk (log 10). -/
def State.reheader (s : State) (cxn h : Nat) (known : Bool) : State :=
  match s.inst? cxn h with
  | none => s
  | some i =>
    match s.devRead cxn i.gen i.code 128 accRestore with
    | .ok hd =>
      let s1 := s.modInst cxn h (·.fromHeader hd)
      if known then s1 else s1.settleJobs cxn h
    | .fault _ _ (some r) => (s.faultRecord cxn i.q { r with handle := h, q := i.q }).parkQueue cxn i.q
    | .fault _ _ none => s
    | .park d => s.parkContext cxn d
/-- The records of a migration's tail written into the ring (R393). -/
def State.putTail (s : State) (cxn : Nat) : State :=
  let t := (s.ctx cxn).trail
  ((s.ctx cxn).tail.foldl (fun u r => if t.mode = 0 then u else u.physWrite cxn (.hbm (t.slot r.1) noLeaf) (tainted false r.2)) s).modCtx cxn fun c => { c with tail := [] }
/-- The ring's pages translated again (R392); what waits for them waits until they are. -/
def State.retakeRing (s : State) (cxn : Nat) : State :=
  let t := (s.ctx cxn).trail
  if !(s.ctx cxn).ringLost then (s.modCtx cxn fun c => { c with restoring := false }).putTail cxn
  else
    match s.ringPages cxn (t.mode == 1) t.vas with
    | .ok ps => (s.modCtx cxn fun c => { c with ringLost := false, restoring := false, trail := { c.trail with pages := ps } }).putTail cxn
    | _ => s
/-- What a restored context needs before anything issues: its slots, headers, images and translations, the instance being admitted,
its records, and its ring. -/
def State.settleRestore (s : State) (cxn : Nat) (known : Bool) : State :=
  let qs := List.range 16
  let s1 := qs.foldl (fun t q => (t.linkHandler cxn q).reraise cxn q) s
  let s2 := s1.rediverge cxn
  let c := s2.ctx cxn
  -- what a saved record waits for is walked again only as RESOLVE re-issues it (R477)
  let recs := (c.queues.toList.flatMap fun k => k.faults.map (·.2)).filter (·.acc == 9)
  let cores := (recs.filter fun r => !c.slotRecord r).filterMap c.recordCore
  let s3 := c.insts.foldl (fun t i => (i.slots.filter fun z => z.lost && !recs.any fun r => r.handle == i.handle && r.va == z.ea).foldl (fun t z =>
    t.settleSlot cxn i.handle z.ea) t) s2
  let s4 := c.insts.foldl (fun t i =>
    if (i.state == IState.walking || i.state == IState.draining) && !recs.any (fun r => r.handle == i.handle && decide (i.code ≤ r.va) && decide (r.va < i.code + 128)) then
      t.reheader cxn i.handle known else t) s3
  let s5 := (c.runCores.filter fun n => !cores.contains n).foldl (fun t n => t.settleCore n) s4
  let s6 := c.insts.foldl (fun t i =>
    if i.state = .admitted then
      (if ((t.queue cxn i.q).faults.any fun f => f.2.acc == 7 && f.2.handle == i.handle) then t.modInst cxn i.handle fun x => { x with readFault := true }
       else t.readObject cxn i.handle)
    else t) s5
  (s6.retakeRing cxn).wake cxn
/-- The restore of a context on clusters (R293): it is Running, and its next quantum begins. -/
def State.restoreCtx (s : State) (cxn mask : Nat) (hd body : List Byte) : State :=
  let c := s.ctxFrom cxn mask hd body
  let kept := s.keptOf hd
  let recs := c.queues.toList.flatMap fun k => k.faults.map (·.2)
  let cores := sectionsOf hd body 6
  let s1 := ((List.range c.ports.length).zip c.ports).foldl (fun t x =>
    match cores.find? (·.1 == x.1) with
    | some b => t.setCore x.2 (s.restoreCore cxn kept c.insts recs b.2 x.1 x.2)
    | none => t.setCore x.2 { Core.reset with owner := some cxn }) s
  let s2 := ({ s1 with free := s1.free + 4096 } : State).setCtx cxn c.fillBuckets.newQuantum
  ((s2.settleRestore cxn kept.own.isSome).cxGoto cxn .running).attest cxn

/-- REASON 6 and 7: the hamper at an address is valid, and its clusters map. -/
def State.hamperConds (s : State) (a mask : Nat) : List (Bool × Nat) :=
  let h := s.hamperAt a
  [(hamperOk h.1 h.2, 6), (mapOk (field h.1 24 8) mask, 7)]
/-- RESUME. The context keeps its region and shares. -/
def execResume (op : BitVec 496) (s : State) : Out :=
  let n := opCx op
  let mask := opF op 1 8
  let a := opF op 9 8
  s.command ([s.cxIn n [.bound, .saved], s.clustersOk n mask, s.addrOk a 4096 4096] ++ s.hamperConds a mask) fun s =>
    s.restoreCtx n mask (s.hamperAt a).1 (s.hamperAt a).2

end Sys2Proof.Machine
end

