-- ==== Sys2Proof/Machine/Migrate.lean ====
section
/-! DEFINITION. Migration (R278, R279, R295, R393, R436, R437): MIGOUT, STOP, ABORT and the steps on the source, MIGIN and REBIND on the
target. What another device holds, and when it answers, is not this device's to say (log 5). -/
namespace Sys2Proof.Machine

/-! What is sent. -/

/-- A valid stage-2 leaf or directory entry: the first IPA it serves, its value, its level, whether it is a leaf, and the generation of the
directory that it stands below or in. -/
structure S2Entry where
  addr : Nat
  ipa : Nat
  val : Nat
  level : Nat
  leaf : Bool
  gen : Option Nat
deriving DecidableEq, Repr
/-- Descriptors of a table by level. -/
def s2size (lvl : Nat) : Nat := if lvl = 0 then 1024 else 8192
/-- Below a directory a descriptor counts only under its own generation (R397). -/
def genFits (gen : Option Nat) (e : Nat) : Bool := (gen.map fun g => bits e 15 8 == g).getD true
/-- Every valid leaf and directory entry under a table (R397), the first IPA of which is known; `n` levels are left. -/
def State.s2entries (s : State) : Nat → Nat → Nat → Option Nat → List S2Entry
  | 0, _, _, _ => []
  | n + 1, t, ipa, gen =>
    let lvl := 2 - n
    (List.range (s2size lvl)).flatMap fun k =>
      let here := ipa + k * 2 ^ levelShift lvl
      match s.desc (t + 8 * k) with
      | some (e, false) =>
        if e % 4 = 1 ∧ genFits gen e then [⟨t + 8 * k, here, e, lvl, true, gen⟩]
        else if e % 4 = 2 ∧ lvl < 2 ∧ genFits gen e then s.s2entries n (bits e 51 16 * 2 ^ 16) here gen
        else if e % 4 = 3 ∧ lvl < 2 ∧ gen.isNone then
          (List.range 256).flatMap fun g =>
            match s.desc (bits e 51 16 * 2 ^ 16 + 8 * g) with
            | some (d, false) =>
              if d % 4 = 2 ∧ genFits (some g) d then
                ⟨bits e 51 16 * 2 ^ 16 + 8 * g, here, d, lvl, false, some g⟩ :: s.s2entries n (bits d 51 16 * 2 ^ 16) here (some g)
              else []
            | _ => []
        else []
      | _ => []
def State.entriesOf (s : State) (cxn : Nat) : List S2Entry := s.s2entries 3 (s.ctx cxn).s2root 0 none
/-- First address that a leaf maps, in local HBM. -/
def S2Entry.out (e : S2Entry) : Nat := bits e.val 51 16 * 2 ^ 16 / 2 ^ levelShift e.level * 2 ^ levelShift e.level
/-- A leaf that names local memory: its own (TGT 0), or the frame of an absent page (TGT 3). A decoded view is no memory of the region and goes as
it is: matching ranges stand on the target (R419; DEDUCED, log 5). -/
def S2Entry.relocates (e : S2Entry) : Bool := e.leaf && (bits e.val 3 2 == 0 || bits e.val 3 2 == 3) && !inView e.out
/-- A leaf of local HBM; an absent page's frame is one. -/
def S2Entry.isLocal (e : S2Entry) : Bool := e.relocates && inHbm e.out
/-- The 64 KiB pages that a leaf maps, by number. -/
def S2Entry.pages (e : S2Entry) : List Nat := (List.range (2 ^ levelShift e.level / 65536)).map (e.out / 65536 + ·)
/-- The pages of a context's region, ascending. -/
def Ctx.regionPages (c : Ctx) : List Nat := ((runBlocks c.runs).mergeSort fun a b => decide (a ≤ b)).flatMap fun b => (List.range 8192).map (8192 * b + ·)
/-- Leaves with D = 1. -/
def State.dirtyLeaves (s : State) (cxn : Nat) : List S2Entry := (s.entriesOf cxn).filter fun e => e.isLocal && nbit e.val 7
def State.dirtyPages (s : State) (cxn : Nat) : List Nat := (((s.dirtyLeaves cxn).flatMap S2Entry.pages).mergeSort fun a b => decide (a ≤ b)).eraseDups
/-- D cleared in the leaves that have it (R415). -/
def State.clearDirty (s : State) (cxn : Nat) : State :=
  (s.dirtyLeaves cxn).foldl (fun t e => ({ t with hbm := t.hbm.set e.addr (t.hbm.get e.addr &&& 0x7F) } : State).llcWrite e.addr 1) s
/-- A page with the taint of its parts. -/
def State.sendPage (s : State) (cxn dev p : Nat) : State :=
  s.guideSend cxn dev 17 (leBytes 8 p ++ s.hbm.read (65536 * p) 65536 ++ bitBytes 512 fun k => s.hbmT.has (4096 * p + k))
def State.sendPages (s : State) (cxn dev : Nat) (l : List Nat) : State := l.foldl (fun t p => t.sendPage cxn dev p) s

/-! Pre-copy. -/

def State.modMig (s : State) (cxn : Nat) (f : Mig → Mig) : State := s.modCtx cxn fun c => { c with mig := c.mig.map f }
/-- The event of a step (Table 19-7): aborted when `bad`. -/
def State.stepEvent (s : State) (cxn step : Nat) (bad : Bool) : State := s.event 8 (cxn + 1) 0 (step + bitAt bad 8)
/-- MIGRATION_PRECOPY_ROUND: W0 is noted, D is cleared and the invalidation begins; once it has completed, the pages are sent. Pre-copy ends
at the threshold or the limit. -/
def State.precopy (s : State) (cxn : Nat) : State :=
  let c := s.ctx cxn
  match c.state, c.mig with
  | .migOut, some m =>
    if m.step ≠ 0 ∨ m.stopBegun then s
    else
      match m.round with
      | none =>
        let ps := if m.rounds = 0 then c.regionPages else s.dirtyPages cxn
        let s1 := if m.rounds = 0 then s else (s.clearDirty cxn).startS2Inv cxn .s2All
        s1.modMig cxn fun m => { m with w0 := c.trail.widx, round := some ps }
      | some ps =>
        if m.rounds ≠ 0 ∧ c.s2inv.isSome then s
        else
          let k := m.rounds + 1
          let done := decide (ps.length * 65536 ≤ m.threshold) || decide (m.limit ≤ k)
          let s1 := (s.sendPages cxn m.peer ps).modMig cxn fun m => { m with rounds := k, round := none, step := if done then 1 else 0 }
          if done then s1.stepEvent cxn 1 false else s1
  | _, _ => s
def execMigrationPrecopyRound (cxn : Nat) (s : State) : Out := .next (s.precopy cxn)

/-! The steps after it (R436). -/

/-- R288, R295: the writes of which a copy of a hamper is made, in their order: byte 6 cleared, the body, the header without byte 6, byte 6. -/
def hamperWrites (h : List Byte) : List (Nat × List Byte) :=
  [(6, [0]), (4096, h.drop 4096), (0, (h.take 4096).set 6 0), (6, (h.drop 6).take 1)]
/-- Step 3: what is still dirty, or the whole region of a context that was Saved, without the ring's pages while the trail is on; then
the hamper, write by write as the target is to perform them. -/
def State.sendHamper (s : State) (cxn : Nat) (m : Mig) : State :=
  let c := s.ctx cxn
  let ring := if c.trail.mode = 0 then [] else c.trail.pages.map (·.1 / 65536)
  let ps := (if m.rounds = 0 then c.regionPages else s.dirtyPages cxn).filter fun p => !ring.contains p
  let s1 := s.sendPages cxn m.peer ps
  (hamperWrites (s1.hbm.read m.hamper (4096 + leNat (s1.hbm.read (m.hamper + 8) 8)))).foldl
    (fun t w => t.guideSend cxn m.peer 18 (leBytes 8 w.1 ++ w.2)) s1
/-- Step 4: the tail of the trail, in ascending index (R393). -/
def State.sendTail (s : State) (cxn : Nat) (m : Mig) : State :=
  let t := (s.ctx cxn).trail
  if t.mode = 0 then s
  else
    let lo := max m.w0.toNat (t.widx.toNat - t.cap)
    (List.range (t.widx.toNat - lo)).foldl (fun u k => u.guideSend cxn m.peer 19 (leBytes 8 (lo + k) ++ u.hbm.read (t.slot (lo + k)) 16)) s
/-- The 512 MiB blocks that a leaf maps. -/
def S2Entry.blocks (e : S2Entry) : List Nat := (List.range (2 ^ levelShift e.level / 2 ^ 29 + (if e.level = 2 then 1 else 0))).map (e.out / 2 ^ 29 + ·)
/-- Step 5 fails for a local leaf any block of which lies outside the region. The frame of an absent page counts as local (DEDUCED, log 5). -/
def State.relocatable (s : State) (cxn : Nat) : Bool :=
  let own := runBlocks (s.ctx cxn).runs
  (s.entriesOf cxn).all fun e => !e.relocates || e.blocks.all own.contains
/-- What else of an entry is sent: its level, and in bits 8 and 9 whether it is a leaf and has a generation, with that in bits 23:16. -/
def S2Entry.how (e : S2Entry) : Nat := e.level + bitAt e.leaf 8 + bitAt e.gen.isSome 9 + e.gen.getD 0 * 2 ^ 16
/-- Step 5: leaves and directory entries, the windows, CG, and the generations that instances hold. -/
def State.sendTables (s : State) (cxn : Nat) (m : Mig) : State :=
  let c := s.ctx cxn
  let s1 := s.guideSend cxn m.peer 20 (nums 2 ((runBlocks c.runs).mergeSort fun a b => decide (a ≤ b)))
  let s2 := (s.entriesOf cxn).foldl (fun t e => t.guideSend cxn m.peer 21 (leBytes 8 e.ipa ++ leBytes 8 e.val ++ leBytes 4 e.how)) s1
  let s3 := c.wins.foldl (fun t w => t.guideSend cxn m.peer 22 (leBytes 1 w.1 ++ leBytes 16 w.2.toNat)) s2
  (s3.guideSend cxn m.peer 23 (leBytes 1 c.cg ++ leBytes 8 c.s1root.toNat)).guideSend cxn m.peer 24 (c.insts.flatMap fun i => leBytes 4 i.handle ++ leBytes 1 i.gen)
/-- R437: the source of a migration that has been aborted. Its event names the last step completed, 1 in pre-copy (DEDUCED, log 13). -/
def State.abortSource (s : State) (cxn : Nat) : State :=
  match (s.ctx cxn).mig with
  | some m =>
    let s1 := s.stepEvent cxn (max m.step 1) true
    if !m.stopBegun then (s1.modCtx cxn fun c => { c with mig := none, track := false, deferred := none }).cxGoto cxn .running
    else if m.saved then s1.enterSaved cxn
    else s1.modMig cxn fun m => { m with aborted := true }
  | none => s
/-- R437: the fabric has failed for a migration when no port of its peer's route carries traffic (DEDUCED, log 13): the source stops, and the target
context is torn down. -/
def State.migFabric (s : State) (cxn : Nat) : State :=
  match (s.ctx cxn).state, (s.ctx cxn).mig with
  | .migOut, some m => if s.routed m.peer ∨ m.aborted then s else s.abortSource cxn
  | .migIn, some m => if s.routed m.peer then s else s.cxGoto cxn .tornDown
  | _, _ => s
/-- MIGRATION_STEP: the target has acknowledged the step before. -/
def State.migStep (s : State) (cxn : Nat) : State :=
  let c := s.ctx cxn
  match c.state, c.mig with
  | .migOut, some m =>
    if m.step = 1 ∧ m.asked ∧ !m.stopBegun ∧ c.deferred.isNone then (s.modMig cxn fun m => { m with asked := false }).askStop cxn 2 m.hamper false
    else if !m.saved then s
    else if m.step = 2 then ((s.sendHamper cxn m).modMig cxn fun m => { m with step := 3 }).stepEvent cxn 3 false
    else if m.step = 3 then ((s.sendTail cxn m).modMig cxn fun m => { m with step := 4 }).stepEvent cxn 4 false
    else if m.step = 4 then
      (if s.relocatable cxn then ((s.sendTables cxn m).modMig cxn fun m => { m with step := 5 }).stepEvent cxn 5 false
       else (s.sendAbort cxn).abortSource cxn)
    else s
  | _, _ => s
def execMigrationStep (cxn : Nat) (s : State) : Out := .next (s.migStep cxn)
/-- MIGRATION_RESUME_ACK: the context has resumed on the target. -/
def execMigrationResumeAck (cxn : Nat) (s : State) : Out :=
  .next (match (s.ctx cxn).state, (s.ctx cxn).mig with
    | .migOut, some m =>
      if m.step = 5 then ((s.stepEvent cxn 7 false).modCtx cxn fun c => { c with vf := 0, track := false }).cxGoto cxn .tornDown else s
    | _, _ => s)

/-! Commands on the source. -/

/-- MIGOUT. A Saved context goes with its valid hamper, without pre-copy. -/
def execMigout (op : BitVec 496) (s : State) : Out :=
  let n := opCx op
  let c := s.ctx n
  let sv := c.state == .saved
  let dev := opF op 1 2
  let tcx := opF op 3 1
  let mask := if sv then leNat (s.hbm.read (c.hamper + 24) 8) else c.clmask.toNat
  s.command [s.cxIn n [.running, .saved], (decide (dev ≤ 16383) && decide (1 ≤ opF op 12 1), 11), (sv || (s.addrOk (opF op 13 8) 4096 4096).1, 11),
             (Config.targetReady dev tcx s.free, 12), (mapOk mask (Config.targetClusters dev tcx s.free).toNat, 7)] fun s =>
    let m : Mig := { peer := dev, peerCxn := tcx, threshold := opF op 4 8, limit := opF op 12 1, hamper := if sv then c.hamper else opF op 13 8, frw := opF op 21 1,
                     step := if sv then 2 else 0, rounds := 0, round := none, w0 := 0, asked := false, stopBegun := sv, saved := sv, aborted := false }
    (((s.tick 1).modCtx n fun c => { c with mig := some m, track := c.track || !sv }).cxGoto n .migOut)
/-- STOP: held while pre-copy goes on, since no step begins before the one before it (R436). -/
def execStop (op : BitVec 496) (s : State) : Out :=
  s.command [s.cxIn (opCx op) [.migOut]] fun s => s.modMig (opCx op) fun m => if m.stopBegun then m else { m with asked := true }
/-- ABORT. -/
def execAbort (op : BitVec 496) (s : State) : Out :=
  let n := opCx op
  s.command [s.cxIn n [.migOut, .migIn]] fun s =>
    if (s.ctx n).state = .migIn then (s.sendAbort n).cxGoto n .tornDown else (s.sendAbort n).abortSource n
/-- MIGRATION_ABORT_RECEIVED: from the source, or from the target (R437). -/
def execMigrationAbortReceived (cxn : Nat) (s : State) : Out :=
  .next (match (s.ctx cxn).state with
    | .migIn => s.cxGoto cxn .tornDown
    | .migOut => s.abortSource cxn
    | _ => s)

/-! Commands on the target. -/

/-- Frames that lie outside a region (R458). -/
def apart (runs : List (Nat × Nat)) (frames : Nat × Nat) : Bool :=
  runs.all fun r => decide (frames.1 + 65536 * frames.2 ≤ r.1 * 2 ^ 29) || decide ((r.1 + r.2) * 2 ^ 29 ≤ frames.1)
/-- MIGIN. -/
def execMigin (op : BitVec 496) (s : State) : Out :=
  let n := opCx op
  let frames := (opF op 29 8, opF op 37 4)
  s.command [s.cxIn n [.free], s.clustersOk n (opF op 5 8), s.regionOk n (opRuns op 13), s.stagedOk n,
             (decide (opF op 1 2 ≤ 16383) && decide (frames.2 ≠ 0) && (s.addrOk frames.1 (65536 * frames.2) 65536).1 && apart (opRuns op 13) frames, 11)] fun s =>
    (s.giveCtx n .migIn 0 (opF op 3 2) (opF op 5 8) (opRuns op 13) 0 0 frames).modCtx n fun c =>
      { c with mig := some { peer := opF op 1 2, peerCxn := 0, threshold := 0, limit := 0, hamper := 0, frw := 0, step := 0, rounds := 0, round := none,
                             w0 := 0, asked := false, stopBegun := false, saved := false, aborted := false } }
/-- An item of what the source has sent. -/
def State.received (s : State) (cxn item : Nat) : Nat := (Config.migrationWord cxn item s.free).toNat
/-- The windows that the source has sent. -/
def State.receivedWins (s : State) (cxn : Nat) : List (Nat × BitVec 128) :=
  (List.range 64).filterMap fun k =>
    let e := s.received cxn (16 + 2 * k) % 2 ^ 16 + s.received cxn (17 + 2 * k) * 2 ^ 64
    if nbit e 0 then some (k, BitVec.ofNat 128 e) else none
/-! Relocation (R436, step 5): the target writes tables into its frames. -/

/-- Tables under way: the descriptors written, by address, the frames used, and whether all went well. -/
structure Tables where
  cells : List (Nat × Nat)
  used : Nat
  ok : Bool
deriving DecidableEq, Repr
def Tables.get (b : Tables) (a : Nat) : Nat := (aget? b.cells a).getD 0
def Tables.set (b : Tables) (a v : Nat) : Tables := { b with cells := aset b.cells a v }
/-- What a descriptor of a kind points to, and the tables with it; a frame is taken where it points to none yet. `more` are its other bits. -/
def Tables.next (b : Tables) (base a kind more : Nat) : Nat × Tables :=
  if b.get a % 4 = kind then (bits (b.get a) 51 16 * 2 ^ 16, b)
  else
    let f := base + 65536 * b.used
    (f, { (b.set a (f + more + kind)) with used := b.used + 1, ok := b.ok && b.get a == 0 })
/-- An entry put below a table, its value relocated; `n` levels are left, `dir` a directory has been passed. -/
def Tables.put (base : Nat) (e : S2Entry) (v : Nat) : Nat → Nat → Bool → Tables → Tables
  | 0, _, _, b => { b with ok := false }
  | n + 1, t, dir, b =>
    let lvl := 2 - n
    let a := t + 8 * (e.ipa / 2 ^ levelShift lvl % s2size lvl)
    let g := e.gen.getD 0
    if lvl = e.level ∧ e.leaf then { (b.set a v) with ok := b.ok && b.get a == 0 && (dir || e.gen.isNone) }
    else if (lvl = e.level ∨ b.get a % 4 = 3) ∧ e.gen.isSome ∧ !dir then
      let d := b.next base a 3 0
      let x := d.2.next base (d.1 + 8 * g) 2 (g * 2 ^ 8)
      if lvl = e.level then x.2 else Tables.put base e v n x.1 true x.2
    else
      let x := b.next base a 2 (if dir then g * 2 ^ 8 else 0)
      Tables.put base e v n x.1 dir x.2
/-- A leaf's value with block m of one region turned into block m of the other; none for a local leaf outside the first. -/
def S2Entry.moved (e : S2Entry) (src dst : List Nat) : Option Nat :=
  if !e.relocates then some e.val
  else if e.level = 0 then none
  else
    match (List.range (min src.length dst.length)).find? fun m => src.getD m 0 == e.out / 2 ^ 29 with
    | some m => some (e.val - bits e.val 51 16 * 2 ^ 16 + (dst.getD m 0 * 2 ^ 29 + e.out % 2 ^ 29))
    | none => none
/-- The tables of some entries, directories before what lies below them; none where they do not fit. -/
def relocate (src dst : List Nat) (frames : Nat × Nat) (l : List S2Entry) : Option (List (Nat × Nat)) :=
  let b := l.foldl (fun (b : Tables) e => match e.moved src dst with
    | some v => Tables.put frames.1 e v 3 frames.1 false b
    | none => { b with ok := false }) ({ cells := [], used := 1, ok := true } : Tables)
  if b.ok ∧ b.used ≤ frames.2 then some b.cells else none
/-- Blocks of the source's region, and the entries, as they have come (log 5). -/
def State.receivedBlocks (s : State) (cxn : Nat) : List Nat := (List.range (s.received cxn 5)).map fun m => s.received cxn (2 ^ 16 + m)
def State.receivedEntries (s : State) (cxn : Nat) : List S2Entry :=
  (List.range (s.received cxn 6)).map fun k =>
    let how := s.received cxn (2 ^ 32 + 3 * k + 2)
    ⟨0, s.received cxn (2 ^ 32 + 3 * k), s.received cxn (2 ^ 32 + 3 * k + 1), bits how 7 0, nbit how 8, if nbit how 9 then some (bits how 23 16) else none⟩
/-- The relocated tables of a context that migrates in, by address: block m of the source's region is block m of its own. -/
def State.relocated (s : State) (cxn : Nat) : Option (List (Nat × Nat)) :=
  relocate (s.receivedBlocks cxn) ((runBlocks (s.ctx cxn).runs).mergeSort fun a b => decide (a ≤ b)) (s.ctx cxn).frames (s.receivedEntries cxn)
/-- The tables written into the frames, which hold nothing else. -/
def State.writeTables (s : State) (cxn : Nat) (l : List (Nat × Nat)) : State :=
  let f := (s.ctx cxn).frames
  l.foldl (fun t x => t.physWrite 0 (.hbm x.1 noLeaf) (tainted false (leBytes 8 x.2))) (s.physWrite 0 (.hbm f.1 noLeaf) (tainted false (zeros (65536 * f.2))))
/-- The records of the trail's tail that have come (R393). -/
def State.receivedTail (s : State) (cxn : Nat) : List (Nat × List Byte) :=
  (List.range (s.received cxn 7)).map fun k => (s.received cxn (2 ^ 48 + 3 * k), leBytes 8 (s.received cxn (2 ^ 48 + 3 * k + 1)) ++ leBytes 8 (s.received cxn (2 ^ 48 + 3 * k + 2)))

/-- REBIND: the relocated tables' root is the first frame that MIGIN named, and the trail's tail goes into the ring. -/
def execRebind (op : BitVec 496) (s : State) : Out :=
  let n := opCx op
  let vf := opF op 1 1
  let c := s.ctx n
  let a := s.received n 0
  s.command ([s.cxIn n [.migIn], s.vfOk n vf, s.clustersOk n c.clmask.toNat, (nbit (s.received n 3) 0, 6), (inHbm a, 6)] ++ s.hamperConds a c.clmask.toNat
      ++ [(nbit (s.received n 4) 0 && (s.relocated n).isSome, 13)]) fun s =>
    let peer := (c.mig.map (·.peer)).getD 0
    let s1 := ((s.writeTables n ((s.relocated n).getD [])).tick 1).modCtx n fun c =>
      { c with
        tail := s.receivedTail n, vf := vf, s1root := BitVec.ofNat 64 (s.received n 1) &&& s1rootMask, cg := s.received n 2 % 256, wins := s.receivedWins n, s2root := c.frames.1 }
    let s2 := s1.restoreCtx n c.clmask.toNat (s.hamperAt a).1 (s.hamperAt a).2
    ((s2.stepEvent n 6 false).stepEvent n 7 false).guideSend n peer 25 (leBytes 1 n)

end Sys2Proof.Machine
end

