-- ==== Sys2Proof/Machine/Spdm.lean ====
section
/-! DEFINITION. Attestation over the DOE mailboxes (R422, R425, R426). The layouts of SPDM messages and the key are outside the spec (log 7). -/
namespace Sys2Proof.Machine

/-- The DOE mailboxes: the physical function's, and one of each virtual function. -/
def State.doe (s : State) (fn : Nat) : Doe := (aget? s.guide.does fn).getD { version := false, caps := false, algs := false, v13 := false, transcript := [] }
def State.setDoe (s : State) (fn : Nat) (d : Doe) : State := s.modGuide fun g => { g with does := aset g.does fn d }
/-- An answer of the Guide, through the mailbox that asked; the request and the answer join its transcript. The Guide must be running. -/
def State.answerDoe (s : State) (fn : Nat) (req res : List Byte) (f : Doe → Doe) : State :=
  if s.guide.rdy ∧ fn < 64 then
    (s.setDoe fn { f (s.doe fn) with transcript := (f (s.doe fn)).transcript ++ req ++ res }).send (.spdm fn res)
  else s
/-- Head of a message: version 1.2 or 1.3, code, two parameters. -/
def spdmHead (v13 : Bool) (code p1 p2 : Nat) : List Byte := leBytes 1 (0x12 + bitAt v13 0) ++ leBytes 1 code ++ leBytes 1 p1 ++ leBytes 1 p2
/-- The same in the version a mailbox has agreed on. -/
def State.headDoe (s : State) (fn code p1 p2 : Nat) : List Byte := spdmHead (s.doe fn).v13 code p1 p2
/-- An ERROR with its code, 1 InvalidRequest, 7 UnsupportedRequest; it joins no transcript. -/
def State.refuseDoe (s : State) (fn code data : Nat) : State := if s.guide.rdy ∧ fn < 64 then s.send (.spdm fn (s.headDoe fn 0x7F code data)) else s

/-- GET_VERSION: versions 1.2 and 1.3; a transcript begins. -/
def execGetVersion (fn : Nat) (s : State) : Out :=
  .next (s.answerDoe fn (leBytes 4 0x8410) (leBytes 4 0x0410 ++ leBytes 2 0x0200 ++ leBytes 2 0x1200 ++ leBytes 2 0x1300) fun _ =>
    { version := true, caps := false, algs := false, v13 := false, transcript := [] })
/-- CERT_CAP, CHAL_CAP and MEAS_CAP with signatures. -/
def spdmCaps : Nat := 0x16
/-- GET_CAPABILITIES settles the version: the request's, 1.2 or 1.3, which is the requester's to choose (a free value, log 7). -/
def execGetCapabilities (fn : Nat) (s : State) : Out :=
  let v := Config.freeBit s.free
  .next ((s.answerDoe fn (spdmHead v 0xE1 0 0) (spdmHead v 0x61 0 0 ++ leBytes 4 0 ++ leBytes 4 spdmCaps ++ leBytes 8 0) fun d =>
    { d with caps := true, v13 := v }).tick 1)
/-- TPM_ALG_RSASSA_4096 for signing and TPM_ALG_SHA_512 for hashing, by their bits (log 7). -/
def algRsassa4096 : Nat := 5
def algSha512 : Nat := 2
/-- NEGOTIATE_ALGORITHMS: only when both are offered. -/
def execNegotiateAlgorithms (fn : Nat) (asym hash : BitVec 32) (s : State) : Out :=
  .next (
    if asym.getLsbD algRsassa4096 && hash.getLsbD algSha512 then
      s.answerDoe fn (s.headDoe fn 0xE3 0 0 ++ leBytes 4 asym.toNat ++ leBytes 4 hash.toNat) (s.headDoe fn 0x63 0 0 ++ leBytes 4 (2 ^ algRsassa4096) ++ leBytes 4 (2 ^ algSha512))
        fun d => { d with algs := true }
    else s.refuseDoe fn 1 0)

/-- The chain in slot 0. -/
def certChain : List Byte := (List.range Config.certLength).map Config.certByte
/-- GET_DIGESTS: of slot 0 alone. -/
def execGetDigests (fn : Nat) (s : State) : Out :=
  .next (s.answerDoe fn (s.headDoe fn 0x81 0 0) (s.headDoe fn 0x01 0 1 ++ sha512 certChain) id)
/-- GET_CERTIFICATE: a portion of slot 0; slots 1 to 7 are empty. -/
def execGetCertificate (fn slot off len : Nat) (s : State) : Out :=
  .next (
    if slot = 0 ∧ off < Config.certLength then
      let part := (certChain.drop off).take len
      s.answerDoe fn (s.headDoe fn 0x82 slot 0 ++ leBytes 2 off ++ leBytes 2 len)
        (s.headDoe fn 0x02 slot 0 ++ leBytes 2 part.length ++ leBytes 2 (Config.certLength - off - part.length) ++ part) id
    else s.refuseDoe fn 1 0)

/-- The signature of the device identity key over a transcript. -/
def spdmSign (msg : List Byte) : List Byte := (List.range 512).map (Config.signByte (digestOf (sha512 msg)))
/-- The responder's own nonce. -/
def State.nonce (s : State) : List Byte := (List.range 32).map fun k => Config.nonceByte (s.free + k)
/-- A signed answer: its transcript holds the request, the requester's nonce in it, and the answer up to the signature. -/
def State.signedDoe (s : State) (fn : Nat) (req res : List Byte) : State :=
  (s.answerDoe fn req (res ++ spdmSign ((s.doe fn).transcript ++ req ++ res)) id).tick 32

/-- A measurement block (Table 17-5). -/
def State.block (s : State) (fn i : Nat) : Option (BitVec 512) :=
  if 1 ≤ i ∧ i ≤ 16 then some (vget s.guide.mrs (i - 1) 0)
  else if i = 17 ∧ fn ≠ 0 then some (match s.byVf fn with
    | some n => (s.ctx n).block17
    | none => 0)
  else none
/-- Every block of a function. -/
def State.blocks (s : State) (fn : Nat) : List (Nat × BitVec 512) := (List.range 18).filterMap fun i => (s.block fn i).map fun b => (i, b)
def blockBytes (l : List (Nat × BitVec 512)) : List Byte := l.flatMap fun b => leBytes 1 b.1 ++ leBytes 1 1 ++ leBytes 2 64 ++ leBytes 64 b.2.toNat
/-- CHALLENGE: of slot 0, with every block summed up. -/
def execChallenge (fn slot : Nat) (nonce : BitVec 256) (s : State) : Out :=
  .next (
    if slot = 0 then
      s.signedDoe fn (s.headDoe fn 0x83 slot 0xFF ++ leBytes 32 nonce.toNat)
        (s.headDoe fn 0x03 slot 1 ++ sha512 certChain ++ s.nonce ++ sha512 (blockBytes (s.blocks fn)))
    else s.refuseDoe fn 1 0)
/-- GET_MEASUREMENTS: one block, or all for 0xFF; an index not in the table is an InvalidRequest. -/
def execGetMeasurements (fn index : Nat) (sign : Bool) (nonce : BitVec 256) (s : State) : Out :=
  let l := if index = 0xFF then some (s.blocks fn) else (s.block fn index).map fun b => [(index, b)]
  .next (match l with
    | none => s.refuseDoe fn 1 0
    | some l =>
      let req := s.headDoe fn 0xE0 (bitAt sign 0) index ++ (if sign then leBytes 32 nonce.toNat else [])
      let res := s.headDoe fn 0x60 0 0 ++ leBytes 1 l.length ++ leBytes 3 (blockBytes l).length ++ blockBytes l ++ s.nonce
      if sign then s.signedDoe fn req res else (s.answerDoe fn req res id).tick 32)
/-- SPDM_UNSUPPORTED_REQUEST. -/
def execSpdmUnsupportedRequest (fn : Nat) (code : Byte) (s : State) : Out := .next (s.refuseDoe fn 7 code.toNat)
/-- DOE_DISCOVERY: index 0 DOE Discovery, index 1 CMA/SPDM, each with the vendor of PCI-SIG and the next index, 0 after the last. -/
def execDoeDiscovery (fn index : Nat) (s : State) : Out :=
  .next (
    if s.guide.rdy ∧ fn < 64 then
      s.send (.spdm fn (if index = 0 then leBytes 2 1 ++ leBytes 1 0 ++ leBytes 1 1 else if index = 1 then leBytes 2 1 ++ leBytes 1 1 ++ leBytes 1 0
                        else leBytes 2 0xFFFF ++ leBytes 1 0 ++ leBytes 1 0))
    else s)

end Sys2Proof.Machine
end

