-- ==== Sys2Proof/Machine/Boot.lean ====
section
/-! DEFINITION. The resets of the device and the boot steps (R453 to R455). -/
namespace Sys2Proof.Machine

/-- An image that a boot step verifies: 2 the first stage, 31 the security processor's firmware, 32 the Guide's. -/
def bootImage (item attempt : Nat) : List Byte := (List.range (Config.imageLength item attempt)).map (Config.imageByte item attempt)
/-- x to the power 2^k, modulo n. -/
def squares (n : Nat) : Nat → Nat → Nat
  | 0, x => x % n
  | k + 1, x => squares n k (x * x % n)
/-- The block that an RSA-4096 signature of a SHA-512 digest opens to: RSASSA-PKCS1-v1_5 (PRESUMED, log 6). -/
def signedBlock (digest : List Byte) : Nat :=
  let info : List Byte := [0x30, 0x51, 0x30, 0x0D, 0x06, 0x09, 0x60, 0x86, 0x48, 0x01, 0x65, 0x03, 0x04, 0x02, 0x03, 0x05, 0x00, 0x04, 0x40]
  (([0x00, 0x01] ++ List.replicate 426 0xFF ++ [0x00] ++ info ++ digest : List Byte)).foldl (fun a b => 256 * a + b.toNat) 0
/-- An RSA-4096 signature over a SHA-512 digest, with the exponent 65,537 (PRESUMED, log 6). -/
def rsaVerifies (key sig : BitVec 4096) (digest : List Byte) : Bool := squares key.toNat 16 sig.toNat * sig.toNat % key.toNat == signedBlock digest
/-- R454: an image's signature over its SHA-512 digest holds, and its key is that whose hash is fused. -/
def imageVerified (item attempt : Nat) : Bool :=
  digestOf (sha512 (leBytes 512 (Config.imageKey item attempt).toNat)) == Config.fusedKeyHash
    && rsaVerifies (Config.imageKey item attempt) (Config.imageSignature item attempt) (sha512 (bootImage item attempt))
/-- The fused configuration, the failed-core map with it (R424). -/
def fusedConfig : List Byte := (List.range Config.fuseLength).map Config.fuseByte ++ bitBytes 136 Config.coreFailed
/-- The digest of an image extended into a register (R424, R454). -/
def Guide.measure (g : Guide) (i item : Nat) : Guide := g.extend i (sha512 (bootImage item g.attempt))
/-- A verification that fails stops boot (R455): the host port trains with the physical function alone, and the Guide does not run. -/
def State.bootFail (s : State) (k : Nat) : State :=
  (s.setPort 24 { s.port 24 with state := .up }).modGuide fun g => { g with err := BitVec.ofNat 8 k, rdy := false, busy := false }
/-- The step after a step: a warm reset repeats steps 3, 6 and 7. -/
def nextBoot (warm : Bool) (k : Nat) : Nat := if warm ∧ k = 3 then 6 else k + 1
def State.bootNext (s : State) : State := s.modGuide fun g => { g with boot := nextBoot g.warm g.boot }
/-- Step 3: the security processor's and the Guide's firmware. -/
def State.bootFirmware (s : State) : State :=
  let g := s.guide
  if !imageVerified 31 g.attempt then s.bootFail 3
  else
    let s1 := if g.warm then s else s.modGuide (·.measure 1 31)
    if !imageVerified 32 g.attempt then s1.bootFail 3
    else (s1.modGuide (·.measure (if g.warm then 7 else 2) 32)).bootNext
/-- Step 6: memory as the reset leaves it, the host port, contexts Free, fabric ports Down. A warm reset writes the cache back. -/
def State.bootMemory (s : State) : State :=
  let s1 := if s.guide.warm then { s with hbmP := s.llcP.foldl (fun l p => l.add p) s.hbmP, llcP := [], llc := [] }
    else { s with hbm := [], hbmT := [], hbmP := [], llcP := [], llc := [] }
  let s2 := { s1 with ctxs := Vector.replicate 32 .reset, cores := [] }
  ((s2.modGuide fun g => { g with ports := (Vector.replicate 25 Port.reset).setIfInBounds 24 { Port.reset with state := .up, width := 16 } }).modGuide
    (·.extend 5 (leBytes 64 (Config.bootDigest 6).toNat))).bootNext
/-- The boot step that is next (Table 19-2). -/
def State.bootStep (s : State) : State :=
  match s.guide.boot with
  | 1 => s.bootNext
  | 2 => if imageVerified 2 s.guide.attempt then (s.modGuide (·.measure 0 2)).bootNext else s.bootFail 2
  | 3 => s.bootFirmware
  | 4 => (s.modGuide (·.extend 3 (sha512 fusedConfig))).bootNext
  | 5 => (s.modGuide (·.extend 4 (leBytes 64 (Config.bootDigest 5).toNat))).bootNext
  | 6 => s.bootMemory
  | 7 => (s.modGuide fun g => { g with rdy := true }).bootNext
  | _ => s
/-- A boot step is next. -/
def Guide.booting (g : Guide) : Bool := decide (g.boot < 8) && g.err == 0

/-- COLD_RESET: everything is at its reset value, and boot begins; what is outside the device stays. -/
def execColdReset (s : State) : Out :=
  .next { State.reset with
    guide := { Guide.reset with attempt := s.guide.attempt + 1 }, inbox := s.inbox, remote := s.remote, remoteT := s.remoteT, free := s.free, out := s.out }
/-- Contexts whose streams a warm reset stops. -/
def CxState.runs : CxState → Bool
  | .running => true | .quiescing => true | .migOut => true
  | _ => false
/-- A warm reset: contexts, ports, the Guide and the error banks; measurement registers, fuses and HBM keep what they hold, and with HBM's
hampers what the Guide keeps beside them (log 10). -/
def State.warmReset (s : State) : State :=
  let s1 := (List.range 32).foldl (fun t n => if (t.ctx n).state.runs then (t.sendAbort n).haltCtx n else t) s
  { s1 with
    ctxs := Vector.replicate 32 .reset, cores := [], agenda := [], pcyc := 0, issued := [], lastThread := []
    guide := { Guide.reset with mrs := s.guide.mrs, boot := 3, warm := true, attempt := s.guide.attempt + 1, railLow := s.guide.railLow, kept := s.guide.kept } }
/-- PF_FLR, once the host port is up. -/
def execPfFlr (s : State) : Out := .next (if 7 ≤ s.guide.boot ∨ s.guide.err ≠ 0 then s.warmReset else s)
/-- RESET. -/
def execReset (_op : BitVec 496) (s : State) : Out := .next (if !s.guide.rdy || s.guide.waitInv.isSome then s else s.warmReset)

end Sys2Proof.Machine
end

