-- ==== Sys2Proof/Machine/Commands.lean ====
section
/-! DEFINITION. Writes of registers that have no row of their own (R5, R422, R456): the Guide mailbox in the physical function's BAR0, with
the command that a write of GO starts, and BAR0 of a virtual function; and what the host reads of the mailbox. -/
namespace Sys2Proof.Machine

/-- A command by its code (Table 19-5). -/
def runCommand (code : Nat) (op : BitVec 496) (s : State) : Out :=
  match code with
  | 0x0001 => execBind op s
  | 0x0002 => execUnbind op s
  | 0x0003 => execShares op s
  | 0x0004 => execSetquant op s
  | 0x0005 => execSetpcal op s
  | 0x0008 => execPreempt op s
  | 0x0009 => execResume op s
  | 0x000A => execMigout op s
  | 0x000B => execMigin op s
  | 0x000C => execStop op s
  | 0x000D => execRebind op s
  | 0x000E => execAbort op s
  | 0x0010 => execS2root op s
  | 0x0011 => execS2inv op s
  | 0x0012 => execWinset op s
  | 0x0013 => execTrack op s
  | 0x0014 => execSetgen op s
  | 0x0015 => execFrset op s
  | 0x0016 => execFrclr op s
  | 0x0017 => execResolve op s
  | 0x0018 => execDeny op s
  | 0x0020 => execEvread op s
  | 0x0021 => execEbread op s
  | 0x0022 => execPcread op s
  | 0x0023 => execPortsts op s
  | 0x0028 => execMext op s
  | 0x0029 => execEccnorm op s
  | 0x002A => execScrubper op s
  | 0x002B => execDevnum op s
  | 0x002C => execRouteset op s
  | 0x0030 => execPortup op s
  | 0x0031 => execPortdrain op s
  | 0x0032 => execPortdown op s
  | 0x003F => execReset op s
  | c => execUnknownCommand (BitVec.ofNat 16 c) s

/-- GO: ignored while the Guide does not run, and while BUSY (R455, R456). The Guide runs the command. -/
def State.go (s : State) : Out :=
  if !s.guide.rdy || s.guide.busy then .next s
  else runCommand (bits s.guide.mbcmd.toNat 15 0) (s.guide.mbcmd.extractLsb' 16 496) (s.modGuide fun g => { g with busy := true })

/-- Bytes of MBCMD replaced; they must not change while BUSY (R456), and a write then is ignored (DESIGN CHOICE, log 40). -/
def State.writeMbcmd (s : State) (off : Nat) (bytes : List Byte) : State :=
  if s.guide.busy then s
  else s.modGuide fun g => { g with mbcmd := digestOf (((Mem.write (Mem.write [] 0 (leBytes 64 g.mbcmd.toNat)) off bytes)).read 0 64) }

/-- A message that waited behind its mask is sent once the mask is clear. -/
def State.unmask (s : State) (vf : Nat) : State :=
  (s.guide.msixPend.filter fun x => x.1 == vf && !s.guide.masked x.1 x.2).foldl (fun t x =>
    (t.modGuide fun g => { g with msixPend := g.msixPend.erase x }).send (.msix x.1 x.2)) s
/-- A write within a function's MSI-X table of n vectors (R422; log 8 for the physical function's place). -/
def State.writeMsix (s : State) (fn n off : Nat) (bytes : List Byte) : State :=
  if 0x1000 ≤ off ∧ off + bytes.length ≤ 0x1000 + 16 * n then
    (s.modGuide fun g => { g with msixTable := ((List.range bytes.length).zip bytes).foldl (fun l x => aset l (msixKey fn (off + x.1)) x.2) g.msixTable }).unmask fn
  else s
/-- A write of the physical function's BAR0. -/
def State.writePf (s : State) (off : Nat) (bytes : List Byte) : Out :=
  let s1 := (if off < 0x40 then s.writeMbcmd off (bytes.take (0x40 - off)) else s).writeMsix 0 32 off bytes
  if off ≤ 0x40 ∧ 0x40 < off + bytes.length ∧ (bytes.getD (0x40 - off) 0).getLsbD 0 then s1.go else .next s1
/-- A write of BAR0 of a virtual function: a queue start register, a stage-1 register, or the MSI-X table. A write of a register that is not
exactly its 8 bytes, of which the spec gives no rule, is ignored (DESIGN CHOICE, log 39). -/
def State.writeVf (s : State) (vf off : Nat) (bytes : List Byte) : Out :=
  let v := BitVec.ofNat 64 (leNat bytes)
  if off < 0x100 then (if off % 16 = 0 ∧ bytes.length = 8 then execQstartWrite vf (off / 16) v s else .next s)
  else if off = 0x200 ∧ bytes.length = 8 then execS1rootWrite vf v s
  else if off = 0x208 ∧ bytes.length = 8 then execS1invWrite vf v s
  else .next (s.writeMsix vf 64 off bytes)
/-- REGISTER_WRITE. -/
def execRegisterWrite (fn off : Nat) (bytes : List Byte) (s : State) : Out :=
  if fn = 0 then s.writePf off bytes else if fn < 64 then s.writeVf fn off bytes else .next s

/-! What a host read of the mailbox returns (Table 19-3). -/

/-- MBSTS. -/
def Guide.mbsts (g : Guide) : W64 :=
  BitVec.ofNat 64 (packed [(g.reason.toNat, 32), (g.err.toNat, 24), (g.result.toNat, 4), (bitAt g.rdy 2, 0), (bitAt g.busy 1, 0)])
/-- CXSTn. -/
def State.cxst (s : State) (n : Nat) : W64 := BitVec.ofNat 64 (s.ctx n).state.code
/-- 8 bytes of the physical function's BAR0: what is no register reads zero. -/
def State.pfReg (s : State) (off : Nat) : W64 :=
  if off < 0x40 then BitVec.ofNat 64 (s.guide.mbcmd.toNat / 2 ^ (8 * off))
  else if off = 0x40 then s.guide.mbsts
  else if 0x80 ≤ off ∧ off < 0xC0 then BitVec.ofNat 64 (s.guide.mbres.toNat / 2 ^ (8 * (off - 0x80)))
  else if 0x100 ≤ off ∧ off < 0x200 ∧ off % 8 = 0 then s.cxst ((off - 0x100) / 8)
  else s.guide.msixReg 0 32 off

end Sys2Proof.Machine
end

