-- ==== Sys2Proof/Machine/Cycle.lean ====
section
/-! DEFINITION. The clock (R344, R346, R427): what is settled before a cycle, and the actions of a cycle, each of which is a step of its own
(log 1). -/
namespace Sys2Proof.Machine

/-! Events of the device's own. -/

/-- Whether the recorded cancel of a core belongs after the streams of its cycle: one of a pipeline error, which an instruction that issued
has met (R387, R440). -/
def State.restartLate (s : State) (n : Nat) : Bool :=
  engines.any fun e => match s.restartRecord n e with
    | some k => bits (s.record (s.cxnOf (.job n e)) k).2 5 0 == 28
    | none => false
/-! Inputs (R387). -/

/-- A home slice that a host request would join has 64 requests of its context in its queue. -/
def State.sliceFull (s : State) (vf off len : Nat) : Bool :=
  match s.byVf vf with
  | some n => (pieces off len).any fun p => match s.s2 n (s.ctx n).cg p.1 with
    | .leaf l => decide (64 ≤ (s.ctx n).trail.hostq.countP fun x => x.1 == homeSlice l.out)
    | _ => false
  | none => false
/-- The function, offset and bytes of a host request; a read joins no queue. -/
def hostSpan : Instr → Option (Nat × Nat × Nat)
  | .hostWrite vf off bytes => some (vf, off, bytes.length)
  | .hostAtomicop vf off _ size _ _ => some (vf, off, size)
  | .hostRead vf off _ => some (vf, off, 0)
  | _ => none
/-- The oldest input that the device takes, and those that are left: host requests stay outside from the first on whose slice's queue is
full. -/
def State.takeInput (s : State) (kept : Bool) : List Instr → Option (Instr × List Instr)
  | [] => none
  | i :: l =>
    let held := match hostSpan i with
      | some (vf, off, len) => kept || s.sliceFull vf off len
      | none => false
    if held then (s.takeInput true l).map fun x => (x.1, i :: x.2) else some (i, l)

/-! Events of the clock. -/

/-- Each runs as its row of the opcode table. -/
def runAuto (a : Auto) (s : State) : Out :=
  match a with
  | .jobStart n => execJobStart n s
  | .instanceComplete c h => execInstanceComplete c h s
  | .handlerEntry c q => execHandlerEntry c q s
  | .qctlHalt c q => execQctlHalt c q s
  | .qrsmRead c q => execQrsmRead c q s
  | .npBoundExpired c q => execNpBoundExpired c q s
  | .watchdog c q => execWatchdog c q s
  | .deferredPreemptStart c => execDeferredPreemptStart c s
  | .quantumExpiry c => execQuantumExpiry c s
  | .timetableSlot => execTimetableSlot s
  | .tokenRefill => execTokenRefill s
  | .timetableChange => execTimetableChange s
  | .trailModeChange c q m => execTrailModeChange c q m s
  | .trailWaitRelease c => execTrailWaitRelease c s
  | .replayClockPassed c => execReplayClockPassed c s
  | .replayStallTimeout c => execReplayStallTimeout c s
  | .replayPhaseRestart n late => if s.restartLate n = late then execReplayPhaseRestart n s else .next s
  | .replayClassAPoint c h g => execReplayClassAPoint c h g s
  | .retryCancel n => .next (s.retryCancel n)
  | .hamperValid c => execHamperValid c s
  | .scrubComplete c => execScrubComplete c s
  | .migrationPrecopyRound c => execMigrationPrecopyRound c s
  | .migrationStep c => execMigrationStep c s
  | .admission c => execAdmission c s
  | .admissionLoadsDone c h => execAdmissionLoadsDone c h s
  | .s1invComplete c => execS1invComplete c s
  | .invalidationComplete c => execInvalidationComplete c s

/-! What is settled before a cycle. -/

def acts (b : Bool) (l : List Act) : List Act := if b then l else []
/-- A barrier's release waits for the ring, and has been noted as waiting. -/
def State.barrierHeld (s : State) (cxn : Nat) (i : Inst) (b : Option (List Group × Bool)) : Bool :=
  match b with
  | some (_, true) =>
    let t := (s.ctx cxn).trail
    let q := i.kbarRecord
    decide (t.mode = 1) && (t.full || !t.held.isEmpty) && t.waitsOn q.1 q.2 false
  | _ => false
/-- What a group can settle now. -/
def State.groupSettles (s : State) (cxn : Nat) (i : Inst) (g : Group) : List Act :=
  let b := s.barrierReady i g
  (match s.placeNext cxn i g with
   | some o => [Act.ev (.iterationPlaced cxn i.handle g.gidx o)]
   | none => [])
    ++ acts (s.boundary i g).isSome [.ev (.phaseRelease cxn i.handle g.gidx)]
    ++ acts (b.isSome && !s.barrierHeld cxn i b) [.ev (.barrierRelease cxn i.handle g.gidx)]
def State.instSettles (s : State) (cxn : Nat) (i : Inst) : List Act :=
  acts ((s.ctx cxn).going && i.state == .admitted && !i.codeOff.isEmpty && !i.readFault) [.auto (.admissionLoadsDone cxn i.handle)]
    ++ (i.cores.filter fun n => (s.core n).rdvDone).map (fun n => Act.ev (.rendezvous n))
    ++ i.groups.flatMap (s.groupSettles cxn i)
    ++ acts (s.instEnds i) [.auto (.instanceComplete cxn i.handle)]
/-- The admission unit has an instance, and the trail lets it say so. -/
def State.mayAdmit (s : State) (cxn : Nat) : Bool :=
  match s.toAdmit cxn with
  | some i => let r := admissionRecord (s.ctx cxn) i.handle; s.gateOpen cxn r.1 r.2
  | none => false
/-- A handler can be entered, or its lack ends the queue, or its entry begins to wait for its record. -/
def State.mayEnter (s : State) (cxn q : Nat) : Bool :=
  match s.entryFor cxn q with
  | some n => (s.queue cxn q).qhnd == 0 || (let r := s.entryRecord cxn q n; s.gateOpen cxn r.1 r.2)
  | none => (s.entryWaits cxn q).any fun n => let r := s.entryRecord cxn q n; !(s.ctx cxn).trail.waitsOn r.1 r.2 false
/-- What a context can settle now. -/
def State.ctxSettles (s : State) (cxn : Nat) : List Act :=
  let c := s.ctx cxn
  let inv := fun (l : Option (List Watch)) => match l with
    | some w => s.invDone cxn w
    | none => false
  acts (c.deferred.isSome && !c.stretched) [.auto (.deferredPreemptStart cxn)]
    ++ acts (s.stopDone cxn) [.auto (.hamperValid cxn)]
    ++ acts (c.state == .resetting || c.state == .tornDown) [.auto (.scrubComplete cxn)]
    ++ acts (inv c.s1inv) [.auto (.s1invComplete cxn)] ++ acts (inv c.s2inv) [.auto (.invalidationComplete cxn)]
    ++ acts (s.mayAdmit cxn) [.auto (.admission cxn)]
    ++ (if c.counts then c.insts.flatMap (s.instSettles cxn) else [])
    ++ ((List.range 16).filter (s.mayEnter cxn)).map fun q => Act.auto (.handlerEntry cxn q)
/-- A group that leaves its pause in Draining with nothing left to do dissolves (R353). -/
def State.settleGroups (s : State) (cxn : Nat) : State :=
  ((s.ctx cxn).insts.filter fun i => i.state == .walking || i.state == .draining).foldl (fun t i =>
    (i.groups.filter fun g => g.state == .draining).foldl (fun t g => t.settleInst cxn i.handle g.gidx) t) s
/-- A migration whose fabric has failed stops, stops go as far as they can, groups dissolve, failed fetches are raised, deferrals are noted, and a ring that a restore could not take is tried again. -/
def State.settleCtx (s : State) (cxn : Nat) : State :=
  let s0 := (s.migFabric cxn).settleStop cxn
  let s1 := if (s0.ctx cxn).counts then s0.settleGroups cxn else s0
  let s1 := if (s1.ctx cxn).counts then (s1.ctx cxn).runCores.foldl (fun t n => t.raiseFailed cxn n) s1 else s1
  let c := s1.ctx cxn
  let s2 := if c.deferred.isSome then s1.modCtx cxn Ctx.markDeferring else s1
  if c.state == .running && c.restoring then s2.retakeRing cxn else s2

/-! The cycle. -/

/-- A unit still waits with a record: the admission unit, a walker, a thread at its handler, or a KBAR that is to release. -/
def State.unitWaits (s : State) (cxn : Nat) (w : TrailWait) : Bool :=
  let r := (w.q0, w.q1)
  let c := s.ctx cxn
  (s.toAdmit cxn).any (fun i => admissionRecord c i.handle == r)
    || c.insts.any (fun i => i.groups.any fun g =>
        (s.placeWant cxn i g).any (fun o => s.placeRecord g o == r) || (i.kbarRecord == r && (s.barrierReady i g).any (·.2)))
    || (List.range 16).any fun q => ((s.entryFor cxn q).or (s.entryWaits cxn q)).any fun n => s.entryRecord cxn q n == r
/-- The waits that last: those of the cycle that ends, and those of units; and a replay in which nothing advances counts its cycles (R390). -/
def State.tickTrail (s : State) (cxn : Nat) : State :=
  let t := (s.ctx cxn).trail
  let ws := (t.waits.filter fun w => w.fresh || s.unitWaits cxn w).map fun (w : TrailWait) => ({ w with fresh := false } : TrailWait)
  let idle := if s.issued.has cxn || s.threadIssued.has cxn then 0 else if t.mode = 2 ∧ s.heldOn cxn ≠ [] then t.idle + 1 else t.idle
  s.modTrail cxn fun t => { t with waits := ws, idle := idle }
/-- A context at a tick: stretches and the quantum count (R322). -/
def Ctx.tickTimes (c : Ctx) : Ctx :=
  { c with
    queues := c.queues.map fun (k : Queue) => if k.np ∧ k.state ≠ .preempted then { k with elapsed := k.elapsed + 1 } else k
    slice := if c.going then c.slice - 1 else c.slice }
/-- The clock advances by one, and what the cycle before it did is counted (Table 10-11). -/
def State.tickClock (s : State) : State :=
  let s1 := s.live.foldl (fun t n =>
    let on := t.issued.has n
    let t1 := if on then t.perf n 0 1 else t
    let t2 := if (t.ctx n).insts.any fun i => i.groups.any fun g => g.state == .paused then t1.perf n 1 1 else t1
    (if (t.ctx n).trail.mode = 0 then t2 else t2.tickTrail n).modCtx n (·.tickTimes)) s
  { s1 with pcyc := s.pcyc + 1, issued := [], threadIssued := [] }

/-- A thread at a LAUNCH that waits for an instance to end (R312): it is not ready. -/
def State.launchHeld (s : State) (cxn q : Nat) : Bool :=
  let ag := Agent.thread cxn q
  match s.headAt ag (s.stream ag).pc.toNat with
  | .instr (.launch g d a b) _ => (g == 0 || g == 16) && sOk d && aOk a && sOk b && decide (64 ≤ (s.ctx cxn).nout q)
  | _ => false
/-- The thread that issues on a cluster control core, if one is ready (R303). The rotation starts at thread 0 where none has issued yet, which
R303 does not say (DESIGN CHOICE, log 39). -/
def State.threadTurn (s : State) (cxn p cluster : Nat) : Option Nat :=
  let c := s.ctx cxn
  let last := (aget? s.lastThread cluster).getD 3
  let l := ((List.range 4).map fun k => 4 * p + (last + 1 + k) % 4).filter fun q => s.mayIssue (.thread cxn q) && !s.entryDue cxn q && !s.launchHeld cxn q
  l.foldl (fun (b : Option Nat) q => match b with
    | some x => if c.queuePri x < c.queuePri q then some q else some x
    | none => some q) none
/-- The threads that issue in a cycle, with their clusters. -/
def State.threadTurns (s : State) (cxn : Nat) : List (Nat × Nat) :=
  let l := ((s.ctx cxn).clusters).take 4
  if (s.ctx cxn).going then ((List.range l.length).zip l).filterMap fun x => (s.threadTurn cxn x.1 x.2).map fun q => (x.2, q) else []
/-- A strong access that waits is tried again. -/
def State.retryAct (s : State) (ag : Agent) : Act :=
  match s.nextStrong ag with
  | some x => if x.op.isAred then .ev (.aredContributionAck ag) else .ev (.atomicPerformed ag)
  | none => .ev (.atomicPerformed ag)
/-- The copies of a core that go on: how far the wall clock settles (log 4), and an XFETCH.TRY may end. -/
def State.copyTicks (s : State) (n : Nat) : List Act :=
  (((s.core n).copies.filter fun x => !x.form.isSlot && x.mayMove && !x.moves.isEmpty).map fun x =>
      Act.ev (.copyWritePerformed n x.tag (Config.freeCount (s.free + 64 * n + x.tag) % (s.sentElts n x + 1))))
    ++ ((s.core n).copies.filter fun x => x.form == .xfetchTry && x.fell.isSome).map fun x => Act.ev (.xfetchTryFallback n x.tag)
/-- A group's part of a cycle. -/
def groupTicks (cxn h : Nat) (g : Group) : List Act :=
  acts (g.state == .paused) [.ev (.groupUnpause cxn h g.gidx)] ++ acts (g.state != .forming && g.state != .dissolved) [.ev (.virtualCycle cxn h g.gidx)]
/-- The trail's part of a cycle. -/
def State.trailTicks (s : State) (cxn : Nat) : List Act :=
  let c := s.ctx cxn
  let t := c.trail
  acts (t.stalled || !t.held.isEmpty || !t.hostq.isEmpty) [.auto (.trailWaitRelease cxn)]
    ++ acts (t.mode == 2 && !t.div)
      ([.auto (.replayClockPassed cxn)] ++ acts (decide (stallLimit ≤ t.idle)) [.auto (.replayStallTimeout cxn)]
        ++ acts (!(c.insts.any fun i => i.state.holds)) [.auto (.replayClassAPoint cxn 0 0)])
/-- A context's part of a cycle. -/
def State.ctxTicks (s : State) (cxn : Nat) : List Act :=
  let c := s.ctx cxn
  ((List.range 16).flatMap fun q =>
      let k := c.queue q
      acts (k.np && k.state != .preempted && decide (k.bound.toNat = k.elapsed)) [.auto (.npBoundExpired cxn q)]
        ++ acts (k.np && !k.watched && decide (c.watchLimit ≤ k.elapsed)) [.auto (.watchdog cxn q)])
    ++ acts (c.going && c.quant != 0 && decide (c.slice ≤ 1)) [.auto (.quantumExpiry cxn)]
    ++ (if c.counts then
          (s.waitingAgents cxn).map s.retryAct ++ s.trailTicks cxn
            ++ (c.runCores.filter fun n => (s.core n).stop.any (·.waitsCancel)).map (fun n => Act.auto (.retryCancel n))
            ++ c.runCores.flatMap s.copyTicks
            ++ (s.threadTurns cxn).map (fun x => Act.issue (.thread cxn x.2))
            ++ acts ((c.insts.any fun i => i.groups.any fun g => g.prsn.getLsbD 1) && Config.freeBit (s.free + 32 + cxn)) [.ev (.translationComplete cxn)]
            ++ c.insts.flatMap fun i => i.groups.flatMap (groupTicks cxn i.handle)
        else [])
    ++ acts (c.state == .migOut)
      (acts ((c.mig.map fun m => m.step == 0 && !m.stopBegun).getD false) [.auto (.migrationPrecopyRound cxn)]
        ++ acts (Config.freeBit (s.free + cxn)) [.auto (.migrationStep cxn)])
/-- The device's part of a cycle. -/
def State.deviceTicks (s : State) : List Act :=
  acts (decide (s.pcyc % 256 = 0) && !s.guide.tables.isEmpty) [.auto .timetableChange] ++ acts (decide (s.pcyc % 1024 = 0)) [.auto .tokenRefill]
    ++ acts (s.live.any fun n => !(s.ctx n).requests.isEmpty) [.auto .timetableSlot]

/-- The next clock cycle is laid out: what can be settled first, and else the cycle. -/
def State.planCycle (s : State) : State :=
  let s1 := s.live.foldl State.settleCtx s
  match s1.live.flatMap s1.ctxSettles with
  | a :: l => { s1 with agenda := a :: l }
  | [] =>
    let s2 := s1.tickClock
    let turns := s2.live.flatMap s2.threadTurns
    { s2 with
      free := s2.free + 65536 + 32, agenda := s2.deviceTicks ++ s2.live.flatMap s2.ctxTicks
      lastThread := turns.foldl (fun l x => aset l x.1 (x.2 % 4)) s2.lastThread }

end Sys2Proof.Machine
end

