-- ==== Sys2Proof/Machine/Control.lean ====
section
/-! DEFINITION. Transfers, the return stack, hardware loops and TRAP (R136 to R145, R168, R319). -/
namespace Sys2Proof.Machine

/-! Targets and transfers (R136 to R138). -/

def execPtgt (t : BitVec 3) (imm : BitVec 21) (s : State) : Out :=
  .next ((s.putT s.cur t.toNat ((s.stream s.cur).pc + imm.signExtend 64 * 4) 1).fin 4 1)
def execPtgtr (t : BitVec 3) (a : F6) (s : State) : Out := .next ((s.putT s.cur t.toNat (s.rs a &&& ~~~3#64) 1).fin 4 1)

/-- A transfer issues: its redirect takes effect after two delay slots, or the slots follow without one. -/
def State.transfer (s : State) (taken : Bool) (target : W64) : State :=
  (s.fin 4 1).modStream s.cur fun x =>
    if taken then { x with redirect := some (target, 2), hold := .none } else { x with slots := 2, hold := .none }
def State.jump (s : State) (t : BitVec 3) (taken : Bool) : State :=
  s.notInSlot fun s => s.transfer taken ((s.stream s.cur).rt t.toNat)

def execJ (t : BitVec 3) (s : State) : Out := .next (s.jump t true)
def execJt (t : BitVec 3) (p : BitVec 4) (s : State) : Out := .next (s.jump t (s.rp p))
def execJf (t : BitVec 3) (p : BitVec 4) (s : State) : Out := .next (s.jump t (!s.rp p))

/-! The return stack (R140, R141). -/

/-- Address bits of RSSP (Table 5-4). -/
def rsspMask : W64 := 0x007FFFFFFFFFFFF8
/-- The word after the second delay slot of the transfer at the program counter. -/
def State.returnAddr (s : State) : W64 :=
  let p := (s.stream s.cur).pc.toNat + 4
  let p1 := p + s.instrLen s.cur p
  BitVec.ofNat 64 (p1 + s.instrLen s.cur p1)
/-- R140: the return address pushed and the redirect taken. -/
def State.callGo (s : State) (t : BitVec 3) : State :=
  let ret := s.returnAddr
  (s.transfer true ((s.stream s.cur).rt t.toNat)).modStream s.cur fun x => { x with rs := ret :: x.rs }

/-- The cycle at which an access issued now and held for is done: its due cycle; on a thread, at its performance. -/
def State.heldUntil (s : State) (p : Phys) : Nat :=
  match s.cur with
  | .job n _ => s.now n + s.latency (n / 128) p
  | .thread _ _ => 0
def State.timeOf (s : State) : Nat :=
  match s.cur with
  | .job n _ => s.now n
  | .thread _ _ => 0

/-- A spill or a fill issues, and the stream holds for it (R140, R141). -/
def State.stackAccess (s : State) (va : W64) (k : Access) (op : StrongOp) (x : W64) (opc : Nat) : State :=
  s.access s.cur va.toNat 8 k fun s ps =>
    match ps with
    | (a, _, p, det) :: _ =>
      let e := match s.cur with
        | .job _ e => e
        | .thread _ _ => .S
      let d := s.heldUntil p
      (s.issueStrong s.cur (mkStrong e op 8 a p det none (x.setWidth 128) false 0 opc) false).modStream s.cur fun z => { z with hold := .spill d }
    | [] => s

/-- CALL (R140). -/
def State.call (s : State) (t : BitVec 3) : State :=
  s.notInSlot fun s =>
    let x := s.stream s.cur
    if x.rs.length < 16 then s.callGo t
    else
      match x.hold with
      | .spill d =>
        if d ≤ s.timeOf then
          (s.modStream s.cur fun x => { x with rssp := (x.rssp + 8) &&& rsspMask, spilled := x.spilled + 1, rs := x.rs.dropLast }).callGo t
        else s
      | _ =>
        s.check [(decide (x.spilled ≠ 65535), 10)] fun s =>
          if x.rssp.toNat % 8 ≠ 0 then s.cause 24
          else s.stackAccess x.rssp accSpill .spill (x.rs.getLastD 0) 0xE
def execCall (t : BitVec 3) (s : State) : Out := .next (s.call t)

/-- RET (R141). -/
def State.ret (s : State) : State :=
  s.notInSlot fun s =>
    let x := s.stream s.cur
    let held := match x.hold with
      | .spill d => decide (s.timeOf < d)
      | _ => false
    if held then s
    else
      match x.rs with
      | r :: rest => (s.transfer true r).modStream s.cur fun z => { z with rs := rest }
      | [] =>
        if x.spilled = 0 then s.cause 10
        else if x.rssp.toNat % 8 ≠ 0 then s.cause 24
        else s.stackAccess ((x.rssp - 8) &&& rsspMask) accFill .fill 0 0xD
def execRet (s : State) : Out := .next s.ret

/-! Hardware loops (R142 to R145, R175). -/

/-- R142: a loop over a body of `len` words; the word at its end must be an ENDL. -/
def State.loop (s : State) (n : BitVec 32) (len : Nat) : State :=
  s.notInSlot fun s =>
    s.check [(decide ((s.stream s.cur).loops.length < 4), 10)] fun s =>
      let x := s.stream s.cur
      let stop := x.pc + BitVec.ofNat 64 (4 * len)
      let go := (s.fin 4 1).modStream s.cur fun z =>
        if n = 0 then { z with pc := stop + 4 } else { z with loops := { start := x.pc + 4, stop := stop, remaining := n } :: z.loops, lbuf := if z.loops = [] then [] else z.lbuf }
      match s.fetchWord s.cur stop.toNat with
      | .fault c a r => s.fetchFault s.cur c a r
      | .park d => s.parkContext (s.cxnOf s.cur) d
      | .word w =>
        match decodeWord (agentEngine s.cur) w 0 with
        | .ok .endl => go
        | .ok .endlRot => go
        | _ => s.cause 10
def execLoop (d l : F6) (s : State) : Out := .next (s.loop ((s.rs d).setWidth 32) (l.toNat + 1))
def execLoopi (l : F6) (n : BitVec 18) (s : State) : Out := .next (s.loop (n.setWidth 32) (l.toNat + 1))

/-- R175: the rotating base one lower. -/
def rotate (x : W64) : W64 :=
  let vrb := W64.f x 63 56
  let rsz := W64.f x 55 48
  let v := if W64.f x 47 42 < 48 then (if vrb = 0 then rsz - 1 else vrb - 1) else vrb
  let p := (W64.f x 41 39 + 7) % 8
  BitVec.ofNat 64 (v * 2 ^ 56 + W64.f x 55 42 * 2 ^ 42 + p * 2 ^ 39 + W64.f x 38 0)
/-- R143. -/
def State.endLoop (s : State) (rot : Bool) : State :=
  s.notInSlot fun s =>
    let x := s.stream s.cur
    match x.loops with
    | [] => s.cause 10
    | l :: ls =>
      if l.stop ≠ x.pc then s.cause 10
      else
        let s1 := match rot, s.cur with
          | true, .job n .V => s.modCore n fun c => { c with shape := rotate c.shape }
          | _, _ => s
        (s1.fin 4 1).modStream s.cur fun z =>
          if l.remaining = 1 then { z with loops := ls } else { z with pc := l.start, loops := { l with remaining := l.remaining - 1 } :: ls }
def execEndl (s : State) : Out := .next (s.endLoop false)
def execEndlRot (s : State) : Out := .next (s.endLoop true)

/-! Software traps (R168, R318, R319). -/

/-- A stream past a TRAP: the word after it is where it resumes, and a redirect is kept (R138, R168). -/
def Stream.pastTrap (old new : Stream) : Stream :=
  match old.redirect with
  | some (t, 1) => { new with pc := old.pc + 4, redirect := some (t, 0), loops := old.loops }
  | _ => new
/-- TRAP: complete, with the resume address after it; on a thread the queue is Halted, or Faulted inside the handler. -/
def State.trap (s : State) (imm : BitVec 3) : State :=
  let s1 := s.fin 4 1
  match s.cur with
  | .job n e =>
    if (s.core n).stop.isSome then s
    else (s1.modStream s.cur fun x => (s.stream s.cur).pastTrap x).trapJob n e (56 + imm.toNat) 0
  | .thread cxn q => s1.endQueue cxn q (if (s.queue cxn q).hnd then .faulted else .halted) (56 + imm.toNat)
def execTrap (imm : BitVec 3) (s : State) : Out := .next (s.trap imm)

end Sys2Proof.Machine
end

