-- ==== Sys2Proof/Machine/DirNum.lean ====
section
/-! DEFINITION. Chapter 7 of the spec, the arithmetic alone: renormalisation, the exact powers and logarithm, cosines and
the canonical test, on direction elements as integers. -/
namespace Sys2Proof.Machine

/-- The zero code of a norm (R49). -/
def zeroNorm : BitVec 32 := 0x80000000

/-- A directional value: direction elements and norm (R48, R49). -/
structure DVal where
  dir : List Int
  norm : BitVec 32
deriving DecidableEq, Repr

def DVal.zero (L : Nat) : DVal := ⟨List.replicate L 0, zeroNorm⟩

/-- rnei of x / 2^k (R211). -/
def rneShift (x : Int) (k : Nat) : Int :=
  let n := x.natAbs
  let u := (n / 2 ^ k, n % 2 ^ k, 2 ^ k)
  signed (decide (x < 0)) (if roundUp .rne false u.1 u.2.1 u.2.2 then u.1 + 1 else u.1)

/-- R211's digit recurrence: the largest y with y * y * S at most lim, from bit `k - 1` down. -/
def rsqrtBits (S lim : Nat) : Nat → Nat → Nat
  | 0, y => y
  | k + 1, y => rsqrtBits S lim k (if (y + 2 ^ k) * (y + 2 ^ k) * S ≤ lim then y + 2 ^ k else y)

/-- Bits of the fractional part of a logarithm by repeated squaring of a mantissa bracketed by `lo` and `hi` over 2^192;
none when the bracket no longer decides a bit. -/
def logBits : Nat → Nat → Nat → Nat → Option Nat
  | 0, _, _, acc => some acc
  | n + 1, lo, hi, acc =>
    let lo2 := lo * lo / 2 ^ 192
    let hi2 := (hi * hi + 2 ^ 192 - 1) / 2 ^ 192
    if 2 ^ 193 ≤ lo2 then logBits n (lo2 / 2) ((hi2 + 1) / 2) (2 * acc + 1)
    else if hi2 < 2 ^ 193 then logBits n lo2 hi2 (2 * acc)
    else none

/-- floor(2^21 * log2 S), exact (R211): the bracket decides every bit, or else the power itself is formed. -/
def log2Scaled (S : Nat) : Nat :=
  let b := Nat.log2 S
  match logBits 21 (S * 2 ^ 192 / 2 ^ b) ((S * 2 ^ 192 + 2 ^ b - 1) / 2 ^ b) 0 with
  | some f => b * 2 ^ 21 + f
  | none => Nat.log2 (S ^ 2 ^ 21)

/-- The integer square root by digits, from bit `k - 1` down. -/
def sqrtBits (x : Nat) : Nat → Nat → Nat
  | 0, y => y
  | k + 1, y => sqrtBits x k (if (y + 2 ^ k) * (y + 2 ^ k) ≤ x then y + 2 ^ k else y)

/-- Brackets over 2^160 of 2^(nf / 2^22), taking the bits of nf from the highest: `r` brackets 2^(2^-i). -/
def powBracket : Nat → Nat → Nat → Nat → Nat → Nat → Nat × Nat
  | 0, _, _, _, lo, hi => (lo, hi)
  | n + 1, nf, rlo, rhi, lo, hi =>
    let slo := sqrtBits (rlo * 2 ^ 160) 162 0
    let shi := sqrtBits (rhi * 2 ^ 160) 162 0 + 1
    if nf.testBit n then
      powBracket n nf slo shi (lo * slo / 2 ^ 160) ((hi * shi + 2 ^ 160 - 1) / 2 ^ 160)
    else powBracket n nf slo shi lo hi

/-- The largest y below 2^k with y^(2^22) at most lim. -/
def rootBits (lim : Nat) : Nat → Nat → Nat
  | 0, y => y
  | k + 1, y => rootBits lim k (if (y + 2 ^ k) ^ 2 ^ 22 ≤ lim then y + 2 ^ k else y)

/-- floor(2^(ni + nf / 2^22)), exact (R214, R219): the bracket decides it, or else the power itself is formed. -/
def powFloor (ni nf : Nat) : Nat :=
  if nf = 0 then 2 ^ ni
  else
    let r := powBracket 22 nf (2 ^ 161) (2 ^ 161) (2 ^ 160) (2 ^ 160)
    let lo := r.1 * 2 ^ ni / 2 ^ 160
    let hi := r.2 * 2 ^ ni / 2 ^ 160
    if lo = hi then lo else rootBits (2 ^ (ni * 2 ^ 22 + nf)) (ni + 1) 0

/-- sat(x, -0x7FFF_FFFF, 0x7FFF_FFFF) as a norm code. -/
def satNorm (x : Int) : BitVec 32 :=
  BitVec.ofInt 32 (if x < -0x7FFFFFFF then -0x7FFFFFFF else if 0x7FFFFFFF < x then 0x7FFFFFFF else x)

/-- The sum of squares of integers. -/
def sumSq (ys : List Int) : Nat := ys.foldl (fun s y => s + y.natAbs * y.natAbs) 0

/-- R211. -/
def renorm (ys : List Int) (base : Int) : DVal :=
  let S := sumSq ys
  if S = 0 then .zero ys.length
  else
    let c := Nat.log2 S / 2
    let y := rsqrtBits S (2 ^ (2 * c + 64)) 33 0
    ⟨ys.map (fun Y => rneShift (Y * y) (c + 18)), satNorm (base + log2Scaled S)⟩

/-- The test of R212 on a direction. -/
def dirCanon (dir : List Int) : Bool :=
  dir.all (fun d => decide (d.natAbs ≤ 16384)) &&
    decide (((sumSq dir : Int) - 2 ^ 28).natAbs ≤ dir.length * 2 ^ 15)

/-- R212. -/
def canon (v : DVal) : DVal :=
  if v.norm = zeroNorm then .zero v.dir.length
  else if dirCanon v.dir then v
  else renorm v.dir (v.norm.toInt - 14 * 2 ^ 22)

/-- rz of a finite value into an integer. -/
def truncFp : Fp → Int
  | .fin n m e => signed n (toUnits m e 0).1
  | _ => 0

/-- R213, for exact values of the elements. -/
def dnorm (xs : List Fp) : DVal :=
  if xs.any Fp.isNan then .zero xs.length
  else if xs.any Fp.isInf then
    ⟨(renorm (xs.map fun x => match x with
      | .inf n => signed n (2 ^ 30)
      | _ => 0) 0).dir, 0x7FFFFFFF⟩
  else
    match xs.filterMap (fun x => match x with
      | .fin _ m e => if m = 0 then none else some (log2Of m e)
      | _ => none) with
    | [] => .zero xs.length
    | e0 :: es =>
      let E := es.foldl max e0
      renorm (xs.map fun x => truncFp (x.scale (30 - E))) ((E - 30) * 2 ^ 22)

/-- R214: the elements of DEXP in a format. -/
def dexp (f : FpF) (v : DVal) : List Nat :=
  if v.norm = zeroNorm then v.dir.map fun _ => 0
  else
    let ni := v.norm.toInt / 2 ^ 22
    let nf := (v.norm.toInt % 2 ^ 22).toNat
    let P := powFloor 40 nf
    v.dir.map fun d => (roundFp f .rne (.fin (decide (d < 0)) (d.natAbs * P) (ni - 54))).bits

/-- R215: the cosine, Q1.14. -/
def ddot (a b : DVal) : Int :=
  if a.norm = zeroNorm ∨ b.norm = zeroNorm then 0
  else
    let x := rneShift ((a.dir.zip b.dir).foldl (fun s p => s + p.1 * p.2) 0) 14
    if x < -16384 then -16384 else if 16384 < x then 16384 else x

/-- R217. -/
def dscale (v : DVal) (k : BitVec 32) : DVal :=
  let c := canon v
  if c.norm = zeroNorm then c else ⟨c.dir, satNorm (c.norm.toInt + k.toInt)⟩

/-- R218. -/
def dneg (v : DVal) : DVal :=
  let c := canon v
  ⟨c.dir.map (fun d => -d), c.norm⟩

/-- The direction of an operand of DADD: all zeros for a zero code (R219). -/
def addDir (v : DVal) : List Int := if v.norm = zeroNorm then v.dir.map (fun _ => 0) else v.dir

/-- R219, with the sign of the second operand. -/
def dadd (sb : Int) (a b : DVal) : DVal :=
  let swap := decide (a.norm.toInt < b.norm.toInt)
  let P := if swap then b else a
  let Q := if swap then a else b
  let sp := if swap then sb else 1
  let sq := if swap then 1 else sb
  let delta := P.norm.toInt - Q.norm.toInt
  let G : Nat :=
    if Q.norm = zeroNorm ∨ 30 * 2 ^ 22 < delta then 0
    else
      let r := 30 * 2 ^ 22 - delta.toNat
      powFloor (r / 2 ^ 22) (r % 2 ^ 22)
  renorm (((addDir P).zip (addDir Q)).map fun p => sp * p.1 * 2 ^ 30 + sq * p.2 * G) (P.norm.toInt - 44 * 2 ^ 22)

/-- R221: DTEST's word (Table 7-4). RANGE is computed from the elements of a zero vector too, which R49 has every directional instruction ignore
and for which Table 7-4 makes no exception (DESIGN CHOICE, log 39). -/
def dtest (v : DVal) : Nat :=
  let z := decide (v.norm = zeroNorm)
  (if z then 0 else sumSq v.dir * 2 ^ 24)
    + (if v.norm = 0x7FFFFFFF ∨ v.norm = 0x80000001 then 8 else 0)
    + (if v.dir.any (fun d => decide (16384 < d.natAbs)) then 4 else 0)
    + (if !z && dirCanon v.dir then 2 else 0)
    + (if z then 1 else 0)

end Sys2Proof.Machine
end

