-- ==== Sys2Proof/Machine/Directional.lean ====
section
/-! DEFINITION. The directional instructions (R207 to R221). -/
namespace Sys2Proof.Machine

/-- The first L elements of a directional register with its norm. -/
def Core.dval (c : Core) (r L : Nat) : DVal :=
  let x := vget c.dirs (r % 16) 0
  { dir := (List.range L).map fun i => ((x >>> (16 * i)).setWidth 16 : BitVec 16).toInt, norm := vget c.norms (r % 16) 0 }
/-- Their taint, norm included. -/
def Core.dtaint (c : Core) (r L : Nat) : Bool :=
  ((List.range L).any fun i => (vget c.dirT (r % 16) 0).getLsbD i) || c.normT.getLsbD (r % 16)

/-- Elements as the register's bits; those beyond the list are zero (R208). -/
def dirBits (l : List Int) : DWord := BitVec.ofNat 4096 (packBits 16 (l.map fun x => ofI 16 x))
/-- R210: direction and norm written, the norm two cycles later. -/
def State.putD (s : State) (n : Nat) (d : F6) (v : DVal) (t : Bool) (lat : Nat) : State :=
  (s.addPend n lat false (.d d.toNat (dirBits v.dir) (if t then BitVec.ofNat 256 (2 ^ v.dir.length - 1) else 0))).addPend n (lat + 2) false
    (.n d.toNat v.norm t)

/-- A directional word whose length is the shape's (R208). -/
def State.dword (s : State) (g : Guard) (peek : BitVec 1) (fields : Bool) (srcs : Shape → List (F6 × Nat)) (dst : Shape → Option (F6 × Nat))
    (conds : Shape → List (Bool × Nat)) (interval : Shape → Nat) (k : State → Nat → Core → Nat → List VVal → State) : Out :=
  s.vword g peek (fun _ c =>
      { conds := [(fields, 10), (decide (c.sh.n ≤ 256), 8)] ++ conds c.sh, srcs := srcs c.sh, dst := dst c.sh, interval := interval c.sh })
    fun s n c vs => k s n c c.sh.n vs

/-- DNORM (R213). -/
def execDnorm (g : Guard) (d a : F6) (p : BitVec 1) (s : State) : Out :=
  s.dword g p (dOk d) (fun h => [(a, h.nb)]) (fun _ => none) (fun h => [(decide (h.ty ≠ .raw 8) && decide (h.ty ≠ .raw 32), 10)]) (fun _ => 2)
    fun s n c _ vs =>
      let es := c.sh.elems (vAt vs 0)
      let v := if c.sh.ty = .raw 16 then ⟨es.map fun x => toS 16 x.1, 0⟩ else dnorm (es.map fun x => elemVal c.sh.ty x.1)
      s.putD n d v (es.any Prod.snd) 24
/-- DEXP (R214). -/
def execDexp (g : Guard) (d a : F6) (m : BitVec 1) (s : State) : Out :=
  let w := if m = 1 then 16 else 32
  s.dword g 0 (dOk a) (fun _ => []) (fun h => some (d, h.n * w / 8)) (fun _ => []) (fun h => h.beats w)
    fun s n c L _ =>
      let t := c.dtaint a.toNat L
      s.putV n d (L * w / 8) (packElems w ((dexp (if m = 1 then .bf16 else .f32) (c.dval a.toNat L)).map fun x => (x, t))) 8
/-- DDOT (R215). -/
def execDdot (g : Guard) (d a b : F6) (m : BitVec 1) (s : State) : Out :=
  s.dword g 0 (dOk a && dOk b && (if m = 1 then vOk d else sOk d)) (fun _ => []) (fun _ => none) (fun _ => []) (fun _ => 1)
    fun s n c L _ =>
      let x := ddot (c.dval a.toNat L) (c.dval b.toNat L)
      let t := c.dtaint a.toNat L || c.dtaint b.toNat L
      if m = 1 then s.addPend n 6 false (.v (c.physV d) (BitVec.ofNat 8192 (ofI 32 x)) (if t then 1 else 0) 0 4)
      else s.putS s.cur d.toNat (BitVec.ofInt 64 x) t 6
/-- DDOTM (R216). -/
def execDdotm (g : Guard) (d a b : F6) (s : State) : Out :=
  s.dword g 0 (vOk d && dOk a && dOk b) (fun _ => []) (fun _ => none) (fun _ => []) (fun _ => 4)
    fun s n c L _ =>
      let js := List.range (16 - b.toNat)
      let t := c.dtaint a.toNat L || js.any fun j => c.dtaint (b.toNat + j) L
      s.putV n d 1024 (packElems 32 (js.map fun j => (ofI 32 (ddot (c.dval a.toNat L) (c.dval (b.toNat + j) L)), t))) 10
/-- DSCALE (R217). -/
def execDscale (g : Guard) (d a b : F6) (s : State) : Out :=
  s.dword g 0 (dOk d && dOk a && sOk b) (fun _ => []) (fun _ => none) (fun _ => []) (fun _ => 1)
    fun s n c L _ => s.putD n d (dscale (c.dval a.toNat L) ((s.rs b).setWidth 32)) (c.dtaint a.toNat L || s.rsT b) 6
/-- DADD and DSUB (R219). -/
def State.dirSum (s : State) (sb : Int) (g : Guard) (d a b : F6) : Out :=
  s.dword g 0 (dOk d && dOk a && dOk b) (fun _ => []) (fun _ => none) (fun _ => []) (fun _ => 2)
    fun s n c L _ => s.putD n d (dadd sb (c.dval a.toNat L) (c.dval b.toNat L)) (c.dtaint a.toNat L || c.dtaint b.toNat L) 28
def execDadd (g : Guard) (d a b : F6) (s : State) : Out := s.dirSum 1 g d a b
def execDsub (g : Guard) (d a b : F6) (s : State) : Out := s.dirSum (-1) g d a b
/-- DNEG (R218). -/
def execDneg (g : Guard) (d a : F6) (s : State) : Out :=
  s.dword g 0 (dOk d && dOk a) (fun _ => []) (fun _ => none) (fun _ => []) (fun _ => 1)
    fun s n c L _ => s.putD n d (dneg (c.dval a.toNat L)) (c.dtaint a.toNat L) 6
/-- DMOVN (R220). -/
def execDmovn (g : Guard) (d a : F6) (s : State) : Out :=
  s.vword g 0 (fun _ _ => { conds := [(sOk d && dOk a, 10)], srcs := [], dst := none, interval := 1 })
    fun s _ c _ => s.putS s.cur d.toNat ((vget c.norms (a.toNat % 16) 0).signExtend 64) (c.normT.getLsbD (a.toNat % 16)) 2
/-- DSETN (R220). -/
def execDsetn (g : Guard) (d a : F6) (s : State) : Out :=
  s.vword g 0 (fun _ _ => { conds := [(dOk d && sOk a, 10)], srcs := [], dst := none, interval := 1 })
    fun s n _ _ =>
      let x := (s.rs a).setWidth 32
      let t := s.rsT a
      let s1 := if x = zeroNorm then s.addPend n 1 false (.d d.toNat 0 (if t then BitVec.allOnes 256 else 0)) else s
      s1.addPend n 3 false (.n d.toNat x t)
/-- DTEST (R221). -/
def execDtest (g : Guard) (d a : F6) (s : State) : Out :=
  s.dword g 0 (sOk d && dOk a) (fun _ => []) (fun _ => none) (fun _ => []) (fun _ => 1)
    fun s _ c L _ => s.putS s.cur d.toNat (BitVec.ofNat 64 (dtest (c.dval a.toNat L))) (c.dtaint a.toNat L) 6

end Sys2Proof.Machine
end

