-- ==== Sys2Proof/Machine/Scalar.lean ====
section
/-! DEFINITION. Integer and address arithmetic, predicates, compares and select (R132 to R135). -/
namespace Sys2Proof.Machine

/-- A two-source integer operation (R132, R58). -/
def State.alu (s : State) (f : W64 → W64 → W64) (lat : Nat) (d a b : F6) : State :=
  s.scalar d (f (s.rs a) (s.rs b)) (s.rsT a || s.rsT b) lat
/-- An integer operation on a source and an immediate. -/
def State.aluImm (s : State) (f : W64 → W64) (lat : Nat) (d a : F6) : State := s.scalar d (f (s.rs a)) (s.rsT a) lat
/-- A sign-extended 12-bit immediate. -/
def imm12 (x : BitVec 12) : W64 := x.signExtend 64

/-- The signed 128-bit product's upper half (Table 5-2). -/
def mulh (a b : W64) : W64 := BitVec.ofInt 64 (a.toInt * b.toInt / 2 ^ 64)
def mulhu (a b : W64) : W64 := BitVec.ofNat 64 (a.toNat * b.toNat / 2 ^ 64)
/-- R133: signed quotient. -/
def sdiv (a b : W64) : W64 := if b = 0 then -1 else BitVec.ofInt 64 (a.toInt.tdiv b.toInt)
def udiv (a b : W64) : W64 := if b = 0 then -1 else BitVec.ofNat 64 (a.toNat / b.toNat)
def srem (a b : W64) : W64 := if b = 0 then a else BitVec.ofInt 64 (a.toInt.tmod b.toInt)
def urem (a b : W64) : W64 := if b = 0 then a else BitVec.ofNat 64 (a.toNat % b.toNat)
/-- A shift count: bits 5:0. -/
def shamt (b : W64) : Nat := b.toNat % 64
def smin (a b : W64) : W64 := if a.toInt ≤ b.toInt then a else b
def smax (a b : W64) : W64 := if a.toInt ≤ b.toInt then b else a
def umin (a b : W64) : W64 := if a.toNat ≤ b.toNat then a else b
def umax (a b : W64) : W64 := if a.toNat ≤ b.toNat then b else a

def execAdd (d a b : F6) (s : State) : Out := .next (s.alu (· + ·) 1 d a b)
def execSub (d a b : F6) (s : State) : Out := .next (s.alu (· - ·) 1 d a b)
def execMul (d a b : F6) (s : State) : Out := .next (s.alu (· * ·) 3 d a b)
def execMulh (d a b : F6) (s : State) : Out := .next (s.alu mulh 3 d a b)
def execMulhu (d a b : F6) (s : State) : Out := .next (s.alu mulhu 3 d a b)
def execDiv (d a b : F6) (s : State) : Out := .next (s.alu sdiv 20 d a b)
def execDivu (d a b : F6) (s : State) : Out := .next (s.alu udiv 20 d a b)
def execRem (d a b : F6) (s : State) : Out := .next (s.alu srem 20 d a b)
def execRemu (d a b : F6) (s : State) : Out := .next (s.alu urem 20 d a b)
def execAnd (d a b : F6) (s : State) : Out := .next (s.alu (· &&& ·) 1 d a b)
def execOr (d a b : F6) (s : State) : Out := .next (s.alu (· ||| ·) 1 d a b)
def execXor (d a b : F6) (s : State) : Out := .next (s.alu (· ^^^ ·) 1 d a b)
def execShl (d a b : F6) (s : State) : Out := .next (s.alu (fun x y => x <<< shamt y) 1 d a b)
def execShr (d a b : F6) (s : State) : Out := .next (s.alu (fun x y => x >>> shamt y) 1 d a b)
def execSra (d a b : F6) (s : State) : Out := .next (s.alu (fun x y => x.sshiftRight (shamt y)) 1 d a b)
def execMin (d a b : F6) (s : State) : Out := .next (s.alu smin 1 d a b)
def execMinu (d a b : F6) (s : State) : Out := .next (s.alu umin 1 d a b)
def execMax (d a b : F6) (s : State) : Out := .next (s.alu smax 1 d a b)
def execMaxu (d a b : F6) (s : State) : Out := .next (s.alu umax 1 d a b)

/-- SEL (R135): the predicate's taint joins that of the selected source. -/
def execSel (d a b : F6) (p : BitVec 4) (s : State) : Out :=
  .next (s.scalar d (if s.rp p then s.rs a else s.rs b) ((if s.rp p then s.rsT a else s.rsT b) || s.rpT p) 1)

def execAddi (d a : F6) (imm : BitVec 12) (s : State) : Out := .next (s.aluImm (· + imm12 imm) 1 d a)
def execAndi (d a : F6) (imm : BitVec 12) (s : State) : Out := .next (s.aluImm (· &&& imm12 imm) 1 d a)
def execOri (d a : F6) (imm : BitVec 12) (s : State) : Out := .next (s.aluImm (· ||| imm12 imm) 1 d a)
def execXori (d a : F6) (imm : BitVec 12) (s : State) : Out := .next (s.aluImm (· ^^^ imm12 imm) 1 d a)
def execShli (d a imm : F6) (s : State) : Out := .next (s.aluImm (· <<< imm.toNat) 1 d a)
def execShri (d a imm : F6) (s : State) : Out := .next (s.aluImm (· >>> imm.toNat) 1 d a)
def execSrai (d a imm : F6) (s : State) : Out := .next (s.aluImm (·.sshiftRight imm.toNat) 1 d a)
def execMuli (d a : F6) (imm : BitVec 12) (s : State) : Out := .next (s.aluImm (· * imm12 imm) 3 d a)

/-- LI and LIH (R134). -/
def execLi (d : F6) (imm : BitVec 18) (s : State) : Out := .next (s.scalar d (imm.signExtend 64) false 1)
def execLih (d : F6) (imm : BitVec 18) (s : State) : Out :=
  .next (s.scalar d (s.rs d <<< 18 ||| imm.setWidth 64) (s.rsT d) 1)

/-- Address forms (R134). -/
def execAdda (d a : BitVec 4) (b : F6) (s : State) : Out :=
  .next ((s.putA s.cur d.toNat (s.ra a + s.rs b) (s.raT a || s.rsT b) 1).fin 4 1)
def execAddai (d a : BitVec 4) (imm : BitVec 12) (s : State) : Out :=
  .next ((s.putA s.cur d.toNat (s.ra a + imm12 imm) (s.raT a) 1).fin 4 1)
def execMova (d : BitVec 4) (a : F6) (s : State) : Out := .next ((s.putA s.cur d.toNat (s.rs a) (s.rsT a) 1).fin 4 1)
def execMovs (d : F6) (a : BitVec 4) (s : State) : Out := .next (s.scalar d (s.ra a) (s.raT a) 1)

/-- The conditions of CMP (R135). -/
def compare (c : BitVec 2) (a b : W64) : Bool :=
  match c.toNat with
  | 0 => a == b
  | 1 => decide (a.toInt < b.toInt)
  | 2 => decide (a.toNat < b.toNat)
  | _ => a &&& b != 0
def execCmp (c : BitVec 2) (p : BitVec 4) (a b : F6) (s : State) : Out :=
  .next ((s.putP s.cur p.toNat (compare c (s.rs a) (s.rs b)) (s.rsT a || s.rsT b) 1).fin 4 1)
def execCmpi (c : BitVec 2) (p : BitVec 4) (a : F6) (imm : BitVec 12) (s : State) : Out :=
  .next ((s.putP s.cur p.toNat (compare c (s.rs a) (imm12 imm)) (s.rsT a) 1).fin 4 1)

/-- A predicate operation (R135). -/
def State.pred (s : State) (f : Bool → Bool → Bool) (d a b : BitVec 4) : State :=
  (s.putP s.cur d.toNat (f (s.rp a) (s.rp b)) (s.rpT a || s.rpT b) 1).fin 4 1
def execPand (d a b : BitVec 4) (s : State) : Out := .next (s.pred (· && ·) d a b)
def execPor (d a b : BitVec 4) (s : State) : Out := .next (s.pred (· || ·) d a b)
def execPxor (d a b : BitVec 4) (s : State) : Out := .next (s.pred (fun x y => x != y) d a b)
def execPandn (d a b : BitVec 4) (s : State) : Out := .next (s.pred (fun x y => x && !y) d a b)

end Sys2Proof.Machine
end

