-- ==== Sys2Proof/Machine/Vector.lean ====
section
/-! DEFINITION. Element-wise arithmetic, compares, predicates, conversions, reductions, permutes and moves (R180 to R194), and
VSHAPE's neighbours in the V table that touch no memory. -/
namespace Sys2Proof.Machine

/-! Element-wise arithmetic (R180, R181). -/

/-- L of an element-wise operation (Table 6-2). -/
def VOp.lat (op : VOp) (t : ElTy) : Nat :=
  match op with
  | .and | .or | .xor | .shl | .shr | .sra => 2
  | .mul | .fma | .fms | .mulh => 4
  | _ => if t.isFp then 4 else 2
/-- Whether an operation reads its destination as the addend. -/
def VOp.addend : VOp → Bool
  | .fma => true
  | .fms => true
  | _ => false
/-- Whether an operation has a second source. -/
def VOp.binary : VOp → Bool
  | .abs => false
  | .neg => false
  | _ => true

/-- Elements of one operation with taint and flags. -/
def vApply (t : ElTy) (rm : Rm) (op : VOp) (a b d : List Elem) : List (Rounded × Bool) :=
  (List.range a.length).map fun i =>
    let x := a.getD i (0, false)
    let y := b.getD i (0, false)
    let z := d.getD i (0, false)
    (vElem t rm op x.1 y.1 z.1, x.2 || y.2 || z.2)
/-- A list of results as a register value. -/
def packRes (w : Nat) (l : List (Rounded × Bool)) : VVal := packElems w (l.map fun x => (x.1.bits, x.2))
def resFlags (l : List (Rounded × Bool)) : Nat := flagsOf (l.map Prod.fst)

/-- An element-wise instruction. -/
def State.elementwise (s : State) (op : VOp) (g : Guard) (d a b : F6) (p : BitVec 1) : Out :=
  s.vword g p (fun _ c =>
      let nb := c.sh.nb
      { conds := [(op.okFor c.sh.ty, 10), (!op.addend || vOk d, 10)], srcs := [(a, nb)] ++ (if op.binary then [(b, nb)] else [])
        dst := if op.addend then vOnly d nb else some (d, nb), interval := c.sh.b })
    fun s n c vs =>
      let h := c.sh
      let r := vApply h.ty c.rm op (h.elems (vAt vs 0)) (if op.binary then h.elems (vAt vs 1) else []) (if op.addend then h.elems (c.vname d) else [])
      (s.putV n d h.nb (packRes h.w r) (op.lat h.ty)).putFlags n (resFlags r) (op.lat h.ty)

def execVadd (g : Guard) (d a b : F6) (p : BitVec 1) (s : State) : Out := s.elementwise .add g d a b p
def execVsub (g : Guard) (d a b : F6) (p : BitVec 1) (s : State) : Out := s.elementwise .sub g d a b p
def execVmul (g : Guard) (d a b : F6) (p : BitVec 1) (s : State) : Out := s.elementwise .mul g d a b p
def execVfma (g : Guard) (d a b : F6) (p : BitVec 1) (s : State) : Out := s.elementwise .fma g d a b p
def execVfms (g : Guard) (d a b : F6) (p : BitVec 1) (s : State) : Out := s.elementwise .fms g d a b p
def execVmin (g : Guard) (d a b : F6) (p : BitVec 1) (s : State) : Out := s.elementwise .min g d a b p
def execVmax (g : Guard) (d a b : F6) (p : BitVec 1) (s : State) : Out := s.elementwise .max g d a b p
def execVabs (g : Guard) (d a : F6) (p : BitVec 1) (s : State) : Out := s.elementwise .abs g d a 0 p
def execVneg (g : Guard) (d a : F6) (p : BitVec 1) (s : State) : Out := s.elementwise .neg g d a 0 p
def execVand (g : Guard) (d a b : F6) (p : BitVec 1) (s : State) : Out := s.elementwise .and g d a b p
def execVor (g : Guard) (d a b : F6) (p : BitVec 1) (s : State) : Out := s.elementwise .or g d a b p
def execVxor (g : Guard) (d a b : F6) (p : BitVec 1) (s : State) : Out := s.elementwise .xor g d a b p
def execVshl (g : Guard) (d a b : F6) (p : BitVec 1) (s : State) : Out := s.elementwise .shl g d a b p
def execVshr (g : Guard) (d a b : F6) (p : BitVec 1) (s : State) : Out := s.elementwise .shr g d a b p
def execVsra (g : Guard) (d a b : F6) (p : BitVec 1) (s : State) : Out := s.elementwise .sra g d a b p
def execVmulh (g : Guard) (d a b : F6) (p : BitVec 1) (s : State) : Out := s.elementwise .mulh g d a b p
def execVadds (g : Guard) (d a b : F6) (p : BitVec 1) (s : State) : Out := s.elementwise .adds g d a b p
def execVsubs (g : Guard) (d a b : F6) (p : BitVec 1) (s : State) : Out := s.elementwise .subs g d a b p

/-! Compares, select and predicates (R182 to R185). -/

/-- VCMP (R182): the condition's low bits in c, its high bit in h. -/
def execVcmp (g : Guard) (c : BitVec 2) (v : BitVec 4) (a b : F6) (p h : BitVec 1) (s : State) : Out :=
  let cc := h.toNat * 4 + c.toNat
  s.vword g p (fun _ k => { conds := [(cmpOk k.sh.ty cc, 10)], srcs := [(a, k.sh.nb), (b, k.sh.nb)], dst := none, interval := k.sh.b })
    fun s n k vs =>
      let x := k.sh.elems (vAt vs 0)
      let y := k.sh.elems (vAt vs 1)
      s.putVp n v.toNat ((x.zip y).map fun z => (cmpElem k.sh.ty cc z.1.1 z.2.1, z.1.2 || z.2.2))
/-- VSEL (R183). -/
def execVsel (g : Guard) (d a b : F6) (p : BitVec 1) (s : State) : Out :=
  s.vword g p (fun _ c => { conds := [(vOk d && vpOk b, 10)], srcs := [(a, c.sh.nb)], dst := vOnly d c.sh.nb, interval := c.sh.b })
    fun s n c vs =>
      let h := c.sh
      let sel := c.vpBits b.toNat h.n
      let r := (sel.zip ((h.elems (vAt vs 0)).zip (h.elems (c.vname d)))).map fun z =>
        let e := if z.1.1 then z.2.1 else z.2.2
        (e.1, e.2 || z.1.2)
      s.putV n d h.nb (packElems h.w r) 2

/-- VPAND, VPOR, VPXOR (R184). -/
def State.vpOp (s : State) (f : Bool → Bool → Bool) (g : Guard) (d a b : F6) (x : BitVec 1) : Out :=
  s.vword g 0 (fun _ c => { conds := [(vpOk d && vpOk a && vpOk b, 10)], srcs := [], dst := none, interval := c.sh.b })
    fun s n c _ =>
      let m := c.sh.n
      s.putVp n d.toNat (((c.vpBits a.toNat m).zip (c.vpBits b.toNat m)).map fun z => (f z.1.1 (z.2.1 != (x == 1)), z.1.2 || z.2.2))
def execVpand (g : Guard) (d a b : F6) (n : BitVec 1) (s : State) : Out := s.vpOp (· && ·) g d a b n
def execVpor (g : Guard) (d a b : F6) (n : BitVec 1) (s : State) : Out := s.vpOp (· || ·) g d a b n
def execVpxor (g : Guard) (d a b : F6) (n : BitVec 1) (s : State) : Out := s.vpOp (· != ·) g d a b n

/-- VANY and VALL (R185): to a predicate, or to a guard slot as if issued at v + 1. -/
def State.vpReduce (s : State) (all : Bool) (g : Guard) (d : BitVec 4) (a : F6) (m : BitVec 1) : Out :=
  s.vword g 0 (fun _ _ => { conds := [(vpOk a, 10)], srcs := [], dst := none, interval := 1 })
    fun s n c _ =>
      let bs := c.vpBits a.toNat c.sh.n
      -- a resolution counts as issued at the next cycle
      let v := if all then bs.all Prod.fst else bs.any Prod.fst
      if m = 1 then s.resolve n .V (oneSlot d) true v 2 else s.putP s.cur d.toNat v (bs.any Prod.snd) 2
def execVany (g : Guard) (d : BitVec 4) (a : F6) (m : BitVec 1) (s : State) : Out := s.vpReduce false g d a m
def execVall (g : Guard) (d : BitVec 4) (a : F6) (m : BitVec 1) (s : State) : Out := s.vpReduce true g d a m

/-- VPMOV (R184). -/
def execVpmov (g : Guard) (d a : F6) (m : BitVec 1) (s : State) : Out :=
  if m = 0 then
    s.vword g 0 (fun _ c => { conds := [(vpOk d && vOk a, 10)], srcs := if isChan a then [] else [(a, c.sh.nb)], dst := none, interval := c.sh.b })
      fun s n c vs => s.putVp n d.toNat ((c.sh.elems (vAt vs 0)).map fun x => (x.1 != 0, x.2))
  else
    s.vword g 0 (fun _ c => { conds := [(vOk d && vpOk a, 10)], srcs := [], dst := vOnly d c.sh.nb, interval := c.sh.b })
      fun s n c _ =>
        let h := c.sh
        s.putV n d h.nb (packElems h.w ((c.vpBits a.toNat h.n).map fun x => (if x.1 then 2 ^ h.w - 1 else 0, x.2))) 2

/-! Conversions (R186 to R189). -/

/-- Bytes of VCVT's source (R177, Table 6-4). -/
def cvtBytes (t : ElTy) (n : Nat) : Nat := if t = .qc4 then 1024 else n * t.width / 8
/-- The conditions of VCVT from a source type into the shape's. -/
def cvtConds (h : Shape) (src : Option ElTy) : List (Bool × Nat) :=
  match src with
  | none => [(false, 10)]
  | some t =>
    [(decide (t.width < 64), 10), (decide (h.n * t.width ≤ 8192), 8), (decide (t ≠ .qc4) || decide (h.n % 64 = 0), 8),
     (decide (t ≠ .qc4) || h.ty.isFp, 10), (!(t.isRaw || h.ty.isRaw) || decide (t.width = h.ty.width), 10)]
/-- Elements of a QC4 register record decoded (R46, R188). -/
def recordElems (h : Shape) (v : VVal) : List (Rounded × Bool) :=
  let f := match h.ty with
    | .fp f => f
    | _ => .f32
  let byte := fun (k : Nat) => v.data.toNat >>> (8 * k) % 256
  let tnt := fun (k : Nat) => v.taint.getLsbD (k / 4)
  let sup := v.data.toNat >>> 8160 % 2 ^ 32
  (List.range h.n).map fun i =>
    (⟨qcDecode f (byte (768 + i / 64)) sup (byte (i / 2) / (if i % 2 = 0 then 1 else 16) % 16), 0⟩,
     tnt (i / 2) || tnt (768 + i / 64) || tnt 1020)
/-- VCVT's results. -/
def cvtResults (h : Shape) (rm : Rm) (t : ElTy) (v : VVal) : List (Rounded × Bool) :=
  if t = .qc4 then recordElems h v
  else (unpackElems t.width h.n v).map fun x => (if t.isRaw || h.ty.isRaw then ⟨x.1, 0⟩ else cvtElem t h.ty rm x.1, x.2)
/-- VCVT (R186). -/
def execVcvt (g : Guard) (d a : F6) (t : BitVec 5) (p : BitVec 1) (s : State) : Out :=
  let src := ElTy.ofCode t.toNat
  let ty := src.getD .qc4
  s.vword g p (fun _ c =>
      { conds := cvtConds c.sh src, srcs := [(a, if src.isSome then cvtBytes ty c.sh.n else 0)], dst := some (d, c.sh.nb)
        interval := max c.sh.b (c.sh.beats ty.width) })
    fun s n c vs =>
      let r := cvtResults c.sh c.rm ty (vAt vs 0)
      (s.putV n d c.sh.nb (packRes c.sh.w r) 4).putFlags n (resFlags r) 4
/-- VCVTS (R187). -/
def execVcvts (g : Guard) (d a b : F6) (p : BitVec 1) (s : State) : Out :=
  s.vword g p (fun _ c =>
      { conds := [(vOk b, 10), (decide (c.sh.ty ≠ .fp .f32) && !c.sh.ty.isRaw, 10), (decide (c.sh.n * 32 ≤ 8192), 8)]
        srcs := [(a, 4 * c.sh.n)], dst := some (d, c.sh.nb), interval := max c.sh.b (c.sh.beats 32) })
    fun s n c vs =>
      let h := c.sh
      let r := ((unpackElems 32 h.n (vAt vs 0)).zip (unpackElems 16 h.n (c.vname b))).map fun z => (cvtsElem h.ty z.2.1 z.1.1, z.1.2 || z.2.2)
      (s.putV n d h.nb (packRes h.w r) 4).putFlags n (resFlags r) 4

/-- VQUANT's record and its flags (R189). -/
def quantRecord (h : Shape) (sup s0 : Nat) (st : Bool) (v : VVal) : VVal × Nat :=
  let es := h.elems v
  let blocks := (List.range (h.n / 64)).map fun k =>
    let xs := (es.drop (64 * k)).take 64
    (quantise sup s0 (xs.map fun x => elemVal h.ty x.1), st || xs.any Prod.snd)
  let codes := blocks.flatMap fun b => (List.range 32).map fun k =>
    (BitVec.ofNat 8 (b.1.2.1.getD (2 * k) 0 + 16 * b.1.2.1.getD (2 * k + 1) 0), b.2)
  let scales := blocks.map fun b => (BitVec.ofNat 8 b.1.1, b.2)
  let pad := fun (n : Nat) => List.replicate n ((0 : Byte), false)
  (VVal.ofBytes (codes ++ pad (768 - codes.length) ++ scales ++ pad (252 - scales.length) ++ tainted st (leBytes 4 sup)),
   blocks.foldl (fun f b => f ||| b.1.2.2) 0)
/-- VQUANT (R189). -/
def execVquant (g : Guard) (d a b : F6) (p : BitVec 1) (s : State) : Out :=
  s.vword g p (fun _ c =>
      { conds := [(sOk b, 10), (c.sh.ty = .fp .f32 || c.sh.ty = .fp .f16 || c.sh.ty = .fp .bf16, 10), (decide (c.sh.n % 64 = 0), 8)]
        srcs := [(a, c.sh.nb)], dst := some (d, 1024), interval := 2 })
    fun s n c vs =>
      let r := quantRecord c.sh (W64.f (s.rs b) 31 0) (W64.f (s.rs b) 39 32) (s.rsT b) (vAt vs 0)
      (s.putV n d 1024 r.1 20).putFlags n r.2 20

/-! Reductions (R190). -/

/-- The elements each result reduces. -/
def redGroups (h : Shape) (row : Bool) : List (List Nat) :=
  if row then (List.range h.rows).map fun r => (List.range h.cols).map fun c => r * h.cols + c
  else (List.range h.cols).map fun c => (List.range h.rows).map fun r => r * h.cols + c
def State.vred (s : State) (op : RedOp) (row : Bool) (g : Guard) (d a : F6) (p : BitVec 1) : Out :=
  s.vword g p (fun _ c => { conds := [(vOk d, 10), (!c.sh.ty.isRaw, 10)], srcs := [(a, c.sh.nb)], dst := vOnly d c.sh.nb, interval := c.sh.b })
    fun s n c vs =>
      let h := c.sh
      let es := h.elems (vAt vs 0)
      let r := (redGroups h row).map fun g =>
        let xs := g.map fun i => es.getD i (0, false)
        (reduceElems h.ty c.rm op (xs.map Prod.fst), xs.any Prod.snd)
      (s.putV n d h.nb (packRes h.w r) 6).putFlags n (resFlags r) 6
def execVrsum (g : Guard) (d a : F6) (p : BitVec 1) (s : State) : Out := s.vred .sum true g d a p
def execVcsum (g : Guard) (d a : F6) (p : BitVec 1) (s : State) : Out := s.vred .sum false g d a p
def execVrmax (g : Guard) (d a : F6) (p : BitVec 1) (s : State) : Out := s.vred .max true g d a p
def execVcmax (g : Guard) (d a : F6) (p : BitVec 1) (s : State) : Out := s.vred .max false g d a p
def execVrmin (g : Guard) (d a : F6) (p : BitVec 1) (s : State) : Out := s.vred .min true g d a p
def execVcmin (g : Guard) (d a : F6) (p : BitVec 1) (s : State) : Out := s.vred .min false g d a p

/-! Permutes, broadcasts and moves (R191 to R194). -/

/-- VPERM (R191). -/
def execVperm (g : Guard) (d a b : F6) (p : BitVec 1) (s : State) : Out :=
  s.vword g p (fun _ c =>
      { conds := [(vOk d, 10), (decide (c.sh.n ≤ 512), 8)], srcs := [(a, c.sh.nb), (b, 2 * c.sh.n)], dst := vOnly d c.sh.nb, interval := c.sh.b })
    fun s n c vs =>
      let h := c.sh
      let es := h.elems (vAt vs 0)
      let r := (unpackElems 16 h.n (vAt vs 1)).map fun x =>
        let e := if x.1 < h.n then es.getD x.1 (0, false) else (0, false)
        (e.1, e.2 || x.2)
      s.putV n d h.nb (packElems h.w r) 4

/-- A move of elements by index, each with the taint t joined. -/
def State.vmove (s : State) (n : Nat) (c : Core) (d : F6) (v : VVal) (t : Bool) (lat : Nat) (src : Shape → Nat → Nat) : State :=
  let h := c.sh
  let es := h.elems v
  s.putV n d h.nb (packElems h.w ((List.range h.n).map fun i => ((es.getD (src h i) (0, false)).1, (es.getD (src h i) (0, false)).2 || t))) lat
/-- VBCR (R192). -/
def execVbcr (g : Guard) (d a b : F6) (p : BitVec 1) (s : State) : Out :=
  s.vword g p (fun s c =>
      { conds := [(vOk d && sOk b, 10), (decide ((s.rs b).toNat < c.sh.rows), 8)], srcs := [(a, c.sh.nb)], dst := vOnly d c.sh.nb, interval := c.sh.b })
    fun s n c vs => s.vmove n c d (vAt vs 0) (s.rsT b) 4 fun h i => (s.rs b).toNat * h.cols + i % h.cols
/-- VBCC (R192). -/
def execVbcc (g : Guard) (d a b : F6) (p : BitVec 1) (s : State) : Out :=
  s.vword g p (fun s c =>
      { conds := [(vOk d && sOk b, 10), (decide ((s.rs b).toNat < c.sh.cols), 8)], srcs := [(a, c.sh.nb)], dst := vOnly d c.sh.nb, interval := c.sh.b })
    fun s n c vs => s.vmove n c d (vAt vs 0) (s.rsT b) 4 fun h i => i / h.cols * h.cols + (s.rs b).toNat
/-- VTRN (R193). -/
def execVtrn (g : Guard) (d a : F6) (p : BitVec 1) (s : State) : Out :=
  s.vword g p (fun _ c => { conds := [(vOk d, 10)], srcs := [(a, c.sh.nb)], dst := vOnly d c.sh.nb, interval := c.sh.b })
    fun s n c vs => s.vmove n c d (vAt vs 0) false 4 fun h i => i % h.rows * h.cols + i / h.rows
/-- VMOV (R194). -/
def execVmov (g : Guard) (d a : F6) (p : BitVec 1) (s : State) : Out :=
  s.vword g p (fun _ c => { conds := [], srcs := [(a, c.sh.nb)], dst := some (d, c.sh.nb), interval := c.sh.b })
    fun s n c vs => s.vmove n c d (vAt vs 0) false 2 fun _ i => i
/-- VBCS (R194). -/
def execVbcs (g : Guard) (d a : F6) (s : State) : Out :=
  s.vword g 0 (fun _ c => { conds := [(vOk d && sOk a, 10)], srcs := [], dst := vOnly d c.sh.nb, interval := c.sh.b })
    fun s n c _ => s.putV n d c.sh.nb (packElems c.sh.w (List.replicate c.sh.n ((s.rs a).toNat, s.rsT a))) 2

end Sys2Proof.Machine
end

