-- ==== Sys2Proof/Machine/Dispatch.lean ====
section
/-! DEFINITION. One arm for each constructor of `Instr`: a direct call of its meaning. -/
namespace Sys2Proof.Machine

/-- The meaning of every row of the opcode table. -/
def exec (i : Instr) (s : State) : Host.Outcome State Fault Refusal :=
  match i with
  | .add d a b => Sys2Proof.Machine.execAdd d a b s
  | .sub d a b => Sys2Proof.Machine.execSub d a b s
  | .mul d a b => Sys2Proof.Machine.execMul d a b s
  | .mulh d a b => Sys2Proof.Machine.execMulh d a b s
  | .mulhu d a b => Sys2Proof.Machine.execMulhu d a b s
  | .div d a b => Sys2Proof.Machine.execDiv d a b s
  | .divu d a b => Sys2Proof.Machine.execDivu d a b s
  | .rem d a b => Sys2Proof.Machine.execRem d a b s
  | .remu d a b => Sys2Proof.Machine.execRemu d a b s
  | .and d a b => Sys2Proof.Machine.execAnd d a b s
  | .or d a b => Sys2Proof.Machine.execOr d a b s
  | .xor d a b => Sys2Proof.Machine.execXor d a b s
  | .shl d a b => Sys2Proof.Machine.execShl d a b s
  | .shr d a b => Sys2Proof.Machine.execShr d a b s
  | .sra d a b => Sys2Proof.Machine.execSra d a b s
  | .min d a b => Sys2Proof.Machine.execMin d a b s
  | .minu d a b => Sys2Proof.Machine.execMinu d a b s
  | .max d a b => Sys2Proof.Machine.execMax d a b s
  | .maxu d a b => Sys2Proof.Machine.execMaxu d a b s
  | .sel d a b p => Sys2Proof.Machine.execSel d a b p s
  | .addi d a imm => Sys2Proof.Machine.execAddi d a imm s
  | .andi d a imm => Sys2Proof.Machine.execAndi d a imm s
  | .ori d a imm => Sys2Proof.Machine.execOri d a imm s
  | .xori d a imm => Sys2Proof.Machine.execXori d a imm s
  | .shli d a imm => Sys2Proof.Machine.execShli d a imm s
  | .shri d a imm => Sys2Proof.Machine.execShri d a imm s
  | .srai d a imm => Sys2Proof.Machine.execSrai d a imm s
  | .muli d a imm => Sys2Proof.Machine.execMuli d a imm s
  | .li d imm => Sys2Proof.Machine.execLi d imm s
  | .lih d imm => Sys2Proof.Machine.execLih d imm s
  | .adda d a b => Sys2Proof.Machine.execAdda d a b s
  | .addai d a imm => Sys2Proof.Machine.execAddai d a imm s
  | .mova d a => Sys2Proof.Machine.execMova d a s
  | .movs d a => Sys2Proof.Machine.execMovs d a s
  | .cmp c p a b => Sys2Proof.Machine.execCmp c p a b s
  | .cmpi c p a imm => Sys2Proof.Machine.execCmpi c p a imm s
  | .pand d a b => Sys2Proof.Machine.execPand d a b s
  | .por d a b => Sys2Proof.Machine.execPor d a b s
  | .pxor d a b => Sys2Proof.Machine.execPxor d a b s
  | .pandn d a b => Sys2Proof.Machine.execPandn d a b s
  | .ptgt t imm => Sys2Proof.Machine.execPtgt t imm s
  | .ptgtr t a => Sys2Proof.Machine.execPtgtr t a s
  | .j t => Sys2Proof.Machine.execJ t s
  | .jt t p => Sys2Proof.Machine.execJt t p s
  | .jf t p => Sys2Proof.Machine.execJf t p s
  | .call t => Sys2Proof.Machine.execCall t s
  | .ret => Sys2Proof.Machine.execRet s
  | .loop d l => Sys2Proof.Machine.execLoop d l s
  | .loopi l n => Sys2Proof.Machine.execLoopi l n s
  | .endl => Sys2Proof.Machine.execEndl s
  | .endlRot => Sys2Proof.Machine.execEndlRot s
  | .ld sr a z o => Sys2Proof.Machine.execLd sr a z o s
  | .ldu sr a z o => Sys2Proof.Machine.execLdu sr a z o s
  | .st sr a z o => Sys2Proof.Machine.execSt sr a z o s
  | .ldsp sr a z o => Sys2Proof.Machine.execLdsp sr a z o s
  | .ldspu sr a z o => Sys2Proof.Machine.execLdspu sr a z o s
  | .stsp sr a z o => Sys2Proof.Machine.execStsp sr a z o s
  | .gres g p => Sys2Proof.Machine.execGres g p s
  | .gset g v => Sys2Proof.Machine.execGset g v s
  | .gmaskT m => Sys2Proof.Machine.execGmaskT m s
  | .gmaskF m => Sys2Proof.Machine.execGmaskF m s
  | .gclr m => Sys2Proof.Machine.execGclr m s
  | .chcfg c a b => Sys2Proof.Machine.execChcfg c a b s
  | .chwaitFull c n => Sys2Proof.Machine.execChwaitFull c n s
  | .chwaitFree c n => Sys2Proof.Machine.execChwaitFree c n s
  | .chadvCons c n => Sys2Proof.Machine.execChadvCons c n s
  | .chadvProd c n => Sys2Proof.Machine.execChadvProd c n s
  | .chrst c => Sys2Proof.Machine.execChrst c s
  | .semsig sr n => Sys2Proof.Machine.execSemsig sr n s
  | .semwait sr n => Sys2Proof.Machine.execSemwait sr n s
  | .twait t => Sys2Proof.Machine.execTwait t s
  | .ttest p t => Sys2Proof.Machine.execTtest p t s
  | .tffr d a => Sys2Proof.Machine.execTffr d a s
  | .vcwait a imm => Sys2Proof.Machine.execVcwait a imm s
  | .cbwait a => Sys2Proof.Machine.execCbwait a s
  | .cbtest p a => Sys2Proof.Machine.execCbtest p a s
  | .phaseG => Sys2Proof.Machine.execPhaseG s
  | .phaseK => Sys2Proof.Machine.execPhaseK s
  | .phaseX => Sys2Proof.Machine.execPhaseX s
  | .fence l e => Sys2Proof.Machine.execFence l e s
  | .rdv => Sys2Proof.Machine.execRdv s
  | .iflush => Sys2Proof.Machine.execIflush s
  | .trap imm => Sys2Proof.Machine.execTrap imm s
  | .eret => Sys2Proof.Machine.execEret s
  | .eretAt a => Sys2Proof.Machine.execEretAt a s
  | .rdst d sr => Sys2Proof.Machine.execRdst d sr s
  | .wrst a sr => Sys2Proof.Machine.execWrst a sr s
  | .nop => Sys2Proof.Machine.execNop s
  | .hint k imm => Sys2Proof.Machine.execHint k imm s
  | .atadd g d a b w => Sys2Proof.Machine.execAtadd g d a b w s
  | .atand g d a b w => Sys2Proof.Machine.execAtand g d a b w s
  | .ator g d a b w => Sys2Proof.Machine.execAtor g d a b w s
  | .atxor g d a b w => Sys2Proof.Machine.execAtxor g d a b w s
  | .atmin g d a b w => Sys2Proof.Machine.execAtmin g d a b w s
  | .atmax g d a b w => Sys2Proof.Machine.execAtmax g d a b w s
  | .atminu g d a b w => Sys2Proof.Machine.execAtminu g d a b w s
  | .atmaxu g d a b w => Sys2Proof.Machine.execAtmaxu g d a b w s
  | .atswp g d a b w => Sys2Proof.Machine.execAtswp g d a b w s
  | .atcas g d a b w => Sys2Proof.Machine.execAtcas g d a b w s
  | .atcas16 g d a b => Sys2Proof.Machine.execAtcas16 g d a b s
  | .atfadd g d a b => Sys2Proof.Machine.execAtfadd g d a b s
  | .aredOrd g a b => Sys2Proof.Machine.execAredOrd g a b s
  | .ldS g d a z x => Sys2Proof.Machine.execLdS g d a z x s
  | .stS g d a z => Sys2Proof.Machine.execStS g d a z s
  | .bar g => Sys2Proof.Machine.execBar g s
  | .kbar g => Sys2Proof.Machine.execKbar g s
  | .launch g d a b => Sys2Proof.Machine.execLaunch g d a b s
  | .kwait g d a => Sys2Proof.Machine.execKwait g d a s
  | .kstat g d a => Sys2Proof.Machine.execKstat g d a s
  | .qrd g d a => Sys2Proof.Machine.execQrd g d a s
  | .qwr g a b => Sys2Proof.Machine.execQwr g a b s
  | .cxrd g d a => Sys2Proof.Machine.execCxrd g d a s
  | .cxwr g a b => Sys2Proof.Machine.execCxwr g a b s
  | .trrd g d a => Sys2Proof.Machine.execTrrd g d a s
  | .trwr g a b => Sys2Proof.Machine.execTrwr g a b s
  | .pcrd g d a => Sys2Proof.Machine.execPcrd g d a s
  | .eclr g a b => Sys2Proof.Machine.execEclr g a b s
  | .npbeg g a => Sys2Proof.Machine.execNpbeg g a s
  | .npend g => Sys2Proof.Machine.execNpend g s
  | .qsig g a => Sys2Proof.Machine.execQsig g a s
  | .vadd g d a b p => Sys2Proof.Machine.execVadd g d a b p s
  | .vsub g d a b p => Sys2Proof.Machine.execVsub g d a b p s
  | .vmul g d a b p => Sys2Proof.Machine.execVmul g d a b p s
  | .vfma g d a b p => Sys2Proof.Machine.execVfma g d a b p s
  | .vfms g d a b p => Sys2Proof.Machine.execVfms g d a b p s
  | .vmin g d a b p => Sys2Proof.Machine.execVmin g d a b p s
  | .vmax g d a b p => Sys2Proof.Machine.execVmax g d a b p s
  | .vabs g d a p => Sys2Proof.Machine.execVabs g d a p s
  | .vneg g d a p => Sys2Proof.Machine.execVneg g d a p s
  | .vand g d a b p => Sys2Proof.Machine.execVand g d a b p s
  | .vor g d a b p => Sys2Proof.Machine.execVor g d a b p s
  | .vxor g d a b p => Sys2Proof.Machine.execVxor g d a b p s
  | .vshl g d a b p => Sys2Proof.Machine.execVshl g d a b p s
  | .vshr g d a b p => Sys2Proof.Machine.execVshr g d a b p s
  | .vsra g d a b p => Sys2Proof.Machine.execVsra g d a b p s
  | .vmulh g d a b p => Sys2Proof.Machine.execVmulh g d a b p s
  | .vadds g d a b p => Sys2Proof.Machine.execVadds g d a b p s
  | .vsubs g d a b p => Sys2Proof.Machine.execVsubs g d a b p s
  | .vexp2 g d a p => Sys2Proof.Machine.execVexp2 g d a p s
  | .vlog2 g d a p => Sys2Proof.Machine.execVlog2 g d a p s
  | .vrcp g d a p => Sys2Proof.Machine.execVrcp g d a p s
  | .vrsq g d a p => Sys2Proof.Machine.execVrsq g d a p s
  | .vsinpi g d a p => Sys2Proof.Machine.execVsinpi g d a p s
  | .vcospi g d a p => Sys2Proof.Machine.execVcospi g d a p s
  | .vtanh g d a p => Sys2Proof.Machine.execVtanh g d a p s
  | .vcmp g c v a b p h => Sys2Proof.Machine.execVcmp g c v a b p h s
  | .vsel g d a b p => Sys2Proof.Machine.execVsel g d a b p s
  | .vpand g d a b n => Sys2Proof.Machine.execVpand g d a b n s
  | .vpor g d a b n => Sys2Proof.Machine.execVpor g d a b n s
  | .vpxor g d a b n => Sys2Proof.Machine.execVpxor g d a b n s
  | .vany g d a m => Sys2Proof.Machine.execVany g d a m s
  | .vall g d a m => Sys2Proof.Machine.execVall g d a m s
  | .vcvt g d a t p => Sys2Proof.Machine.execVcvt g d a t p s
  | .vcvts g d a b p => Sys2Proof.Machine.execVcvts g d a b p s
  | .vquant g d a b p => Sys2Proof.Machine.execVquant g d a b p s
  | .vrsum g d a p => Sys2Proof.Machine.execVrsum g d a p s
  | .vcsum g d a p => Sys2Proof.Machine.execVcsum g d a p s
  | .vrmax g d a p => Sys2Proof.Machine.execVrmax g d a p s
  | .vcmax g d a p => Sys2Proof.Machine.execVcmax g d a p s
  | .vrmin g d a p => Sys2Proof.Machine.execVrmin g d a p s
  | .vcmin g d a p => Sys2Proof.Machine.execVcmin g d a p s
  | .vperm g d a b p => Sys2Proof.Machine.execVperm g d a b p s
  | .vbcr g d a b p => Sys2Proof.Machine.execVbcr g d a b p s
  | .vbcc g d a b p => Sys2Proof.Machine.execVbcc g d a b p s
  | .vtrn g d a p => Sys2Proof.Machine.execVtrn g d a p s
  | .vmov g d a p => Sys2Proof.Machine.execVmov g d a p s
  | .vbcs g d a => Sys2Proof.Machine.execVbcs g d a s
  | .vld g d a => Sys2Proof.Machine.execVld g d a s
  | .vst g a b p => Sys2Proof.Machine.execVst g a b p s
  | .vldm g d a => Sys2Proof.Machine.execVldm g d a s
  | .vstm g a b p => Sys2Proof.Machine.execVstm g a b p s
  | .vgath g d a b p => Sys2Proof.Machine.execVgath g d a b p s
  | .vscat g d a b p => Sys2Proof.Machine.execVscat g d a b p s
  | .vrand g d a b => Sys2Proof.Machine.execVrand g d a b s
  | .vbucket g d a b p => Sys2Proof.Machine.execVbucket g d a b p s
  | .ecnt g d a => Sys2Proof.Machine.execEcnt g d a s
  | .vshape g a => Sys2Proof.Machine.execVshape g a s
  | .dnorm g d a p => Sys2Proof.Machine.execDnorm g d a p s
  | .dexp g d a m => Sys2Proof.Machine.execDexp g d a m s
  | .ddot g d a b m => Sys2Proof.Machine.execDdot g d a b m s
  | .ddotm g d a b => Sys2Proof.Machine.execDdotm g d a b s
  | .dscale g d a b => Sys2Proof.Machine.execDscale g d a b s
  | .dadd g d a b => Sys2Proof.Machine.execDadd g d a b s
  | .dsub g d a b => Sys2Proof.Machine.execDsub g d a b s
  | .dneg g d a => Sys2Proof.Machine.execDneg g d a s
  | .dmovn g d a => Sys2Proof.Machine.execDmovn g d a s
  | .dsetn g d a => Sys2Proof.Machine.execDsetn g d a s
  | .dtest g d a => Sys2Proof.Machine.execDtest g d a s
  | .vpmov g d a m => Sys2Proof.Machine.execVpmov g d a m s
  | .mlda g a p => Sys2Proof.Machine.execMlda g a p s
  | .mldb g a p => Sys2Proof.Machine.execMldb g a p s
  | .mldas g a => Sys2Proof.Machine.execMldas g a s
  | .mldbs g a => Sys2Proof.Machine.execMldbs g a s
  | .mma g a b p z prof fa fb km1 => Sys2Proof.Machine.execMma g a b p z prof fa fb km1 s
  | .mzero g => Sys2Proof.Machine.execMzero g s
  | .mshift g d a => Sys2Proof.Machine.execMshift g d a s
  | .mwaitf g => Sys2Proof.Machine.execMwaitf g s
  | .mspill g d => Sys2Proof.Machine.execMspill g d s
  | .mfill g a => Sys2Proof.Machine.execMfill g a s
  | .mcfg g a => Sys2Proof.Machine.execMcfg g a s
  | .mstat g d => Sys2Proof.Machine.execMstat g d s
  | .xcopy g d a b tag ndm1 es f due => Sys2Proof.Machine.execXcopy g d a b tag ndm1 es f due s
  | .xfill g d a b tag ndm1 es f due => Sys2Proof.Machine.execXfill g d a b tag ndm1 es f due s
  | .xdrain g d a b tag ndm1 es f due => Sys2Proof.Machine.execXdrain g d a b tag ndm1 es f due s
  | .xgath g d a b => Sys2Proof.Machine.execXgath g d a b s
  | .xscat g d a b => Sys2Proof.Machine.execXscat g d a b s
  | .xallred g d a b tag ty rop duex => Sys2Proof.Machine.execXallred g d a b tag ty rop duex s
  | .xallgath g d a b tag ty rop duex => Sys2Proof.Machine.execXallgath g d a b tag ty rop duex s
  | .xredscat g d a b tag ty rop duex => Sys2Proof.Machine.execXredscat g d a b tag ty rop duex s
  | .xall2all g d a b tag ty rop duex => Sys2Proof.Machine.execXall2all g d a b tag ty rop duex s
  | .xfetch g d a b tag due => Sys2Proof.Machine.execXfetch g d a b tag due s
  | .xfetchTry g d a b tag due => Sys2Proof.Machine.execXfetchTry g d a b tag due s
  | .xpref g a b => Sys2Proof.Machine.execXpref g a b s
  | .xtclr g a => Sys2Proof.Machine.execXtclr g a s
  | .xtst g d a => Sys2Proof.Machine.execXtst g d a s
  | .virtualCycle cxn h g => Sys2Proof.Machine.execVirtualCycle cxn h g s
  | .pendingWriteLand core seq => Sys2Proof.Machine.execPendingWriteLand core seq s
  | .groupUnpause cxn h g => Sys2Proof.Machine.execGroupUnpause cxn h g s
  | .guardResolutionEffect core => Sys2Proof.Machine.execGuardResolutionEffect core s
  | .phaseRelease cxn h g => Sys2Proof.Machine.execPhaseRelease cxn h g s
  | .rendezvous core => Sys2Proof.Machine.execRendezvous core s
  | .barrierRelease cxn h g => Sys2Proof.Machine.execBarrierRelease cxn h g s
  | .copyComplete core tag => Sys2Proof.Machine.execCopyComplete core tag s
  | .copyWritePerformed core tag n => Sys2Proof.Machine.execCopyWritePerformed core tag n s
  | .xfillSlotReserve core tag => Sys2Proof.Machine.execXfillSlotReserve core tag s
  | .xfillSlotFilled core tag => Sys2Proof.Machine.execXfillSlotFilled core tag s
  | .xdrainSlotTake core tag => Sys2Proof.Machine.execXdrainSlotTake core tag s
  | .xdrainSlotRelease core tag => Sys2Proof.Machine.execXdrainSlotRelease core tag s
  | .xfetchTryFallback core tag => Sys2Proof.Machine.execXfetchTryFallback core tag s
  | .copyLateCause core tag => Sys2Proof.Machine.execCopyLateCause core tag s
  | .atomicPerformed ag => Sys2Proof.Machine.execAtomicPerformed ag s
  | .aredContributionAck ag => Sys2Proof.Machine.execAredContributionAck ag s
  | .mmaStart core => Sys2Proof.Machine.execMmaStart core s
  | .arrayStep core => Sys2Proof.Machine.execArrayStep core s
  | .mmaFin core => Sys2Proof.Machine.execMmaFin core s
  | .joinStart core => Sys2Proof.Machine.execJoinStart core s
  | .translationComplete cxn => Sys2Proof.Machine.execTranslationComplete cxn s
  | .tierFetchComplete cxn ipa => Sys2Proof.Machine.execTierFetchComplete cxn ipa s
  | .tierFetchFailed cxn ipa => Sys2Proof.Machine.execTierFetchFailed cxn ipa s
  | .invalidationComplete cxn => Sys2Proof.Machine.execInvalidationComplete cxn s
  | .s1invComplete cxn => Sys2Proof.Machine.execS1invComplete cxn s
  | .admission cxn => Sys2Proof.Machine.execAdmission cxn s
  | .admissionLoadsDone cxn h => Sys2Proof.Machine.execAdmissionLoadsDone cxn h s
  | .iterationPlaced cxn h g ord => Sys2Proof.Machine.execIterationPlaced cxn h g ord s
  | .jobStart core => Sys2Proof.Machine.execJobStart core s
  | .instanceComplete cxn h => Sys2Proof.Machine.execInstanceComplete cxn h s
  | .handlerEntry cxn q => Sys2Proof.Machine.execHandlerEntry cxn q s
  | .qctlHalt cxn q => Sys2Proof.Machine.execQctlHalt cxn q s
  | .qrsmRead cxn q => Sys2Proof.Machine.execQrsmRead cxn q s
  | .npBoundExpired cxn q => Sys2Proof.Machine.execNpBoundExpired cxn q s
  | .watchdog cxn q => Sys2Proof.Machine.execWatchdog cxn q s
  | .deferredPreemptStart cxn => Sys2Proof.Machine.execDeferredPreemptStart cxn s
  | .tokenRefill => Sys2Proof.Machine.execTokenRefill s
  | .timetableChange => Sys2Proof.Machine.execTimetableChange s
  | .congestionMark cxn fabric => Sys2Proof.Machine.execCongestionMark cxn fabric s
  | .peerRequest dcn off write bytes => Sys2Proof.Machine.execPeerRequest dcn off write bytes s
  | .trainingComplete port width full => Sys2Proof.Machine.execTrainingComplete port width full s
  | .trainingFailed port => Sys2Proof.Machine.execTrainingFailed port s
  | .lanesLost port width => Sys2Proof.Machine.execLanesLost port width s
  | .linkReplayExhausted port => Sys2Proof.Machine.execLinkReplayExhausted port s
  | .linkLevelReplay port => Sys2Proof.Machine.execLinkLevelReplay port s
  | .drainComplete port => Sys2Proof.Machine.execDrainComplete port s
  | .trailModeChange cxn q mode => Sys2Proof.Machine.execTrailModeChange cxn q mode s
  | .trailWaitRelease cxn => Sys2Proof.Machine.execTrailWaitRelease cxn s
  | .replayClockPassed cxn => Sys2Proof.Machine.execReplayClockPassed cxn s
  | .replayStallTimeout cxn => Sys2Proof.Machine.execReplayStallTimeout cxn s
  | .replayPhaseRestart core => Sys2Proof.Machine.execReplayPhaseRestart core s
  | .replayClassAPoint cxn h g => Sys2Proof.Machine.execReplayClassAPoint cxn h g s
  | .pipelineError site => Sys2Proof.Machine.execPipelineError site s
  | .sramEccError core e double => Sys2Proof.Machine.execSramEccError core e double s
  | .llcEccError part double dirty => Sys2Proof.Machine.execLlcEccError part double dirty s
  | .patrolScrub part uncorrectable => Sys2Proof.Machine.execPatrolScrub part uncorrectable s
  | .railBelowThreshold die => Sys2Proof.Machine.execRailBelowThreshold die s
  | .dectedSwitchComplete die => Sys2Proof.Machine.execDectedSwitchComplete die s
  | .thermalWarning die => Sys2Proof.Machine.execThermalWarning die s
  | .thermalShutdown die => Sys2Proof.Machine.execThermalShutdown die s
  | .hamperValid cxn => Sys2Proof.Machine.execHamperValid cxn s
  | .scrubComplete cxn => Sys2Proof.Machine.execScrubComplete cxn s
  | .migrationPrecopyRound cxn => Sys2Proof.Machine.execMigrationPrecopyRound cxn s
  | .migrationStep cxn => Sys2Proof.Machine.execMigrationStep cxn s
  | .migrationResumeAck cxn => Sys2Proof.Machine.execMigrationResumeAck cxn s
  | .bind op => Sys2Proof.Machine.execBind op s
  | .unbind op => Sys2Proof.Machine.execUnbind op s
  | .shares op => Sys2Proof.Machine.execShares op s
  | .setquant op => Sys2Proof.Machine.execSetquant op s
  | .setpcal op => Sys2Proof.Machine.execSetpcal op s
  | .preempt op => Sys2Proof.Machine.execPreempt op s
  | .resume op => Sys2Proof.Machine.execResume op s
  | .migout op => Sys2Proof.Machine.execMigout op s
  | .migin op => Sys2Proof.Machine.execMigin op s
  | .stop op => Sys2Proof.Machine.execStop op s
  | .rebind op => Sys2Proof.Machine.execRebind op s
  | .abort op => Sys2Proof.Machine.execAbort op s
  | .s2root op => Sys2Proof.Machine.execS2root op s
  | .s2inv op => Sys2Proof.Machine.execS2inv op s
  | .winset op => Sys2Proof.Machine.execWinset op s
  | .track op => Sys2Proof.Machine.execTrack op s
  | .setgen op => Sys2Proof.Machine.execSetgen op s
  | .frset op => Sys2Proof.Machine.execFrset op s
  | .frclr op => Sys2Proof.Machine.execFrclr op s
  | .resolve op => Sys2Proof.Machine.execResolve op s
  | .deny op => Sys2Proof.Machine.execDeny op s
  | .evread op => Sys2Proof.Machine.execEvread op s
  | .ebread op => Sys2Proof.Machine.execEbread op s
  | .pcread op => Sys2Proof.Machine.execPcread op s
  | .portsts op => Sys2Proof.Machine.execPortsts op s
  | .mext op => Sys2Proof.Machine.execMext op s
  | .eccnorm op => Sys2Proof.Machine.execEccnorm op s
  | .scrubper op => Sys2Proof.Machine.execScrubper op s
  | .devnum op => Sys2Proof.Machine.execDevnum op s
  | .routeset op => Sys2Proof.Machine.execRouteset op s
  | .portup op => Sys2Proof.Machine.execPortup op s
  | .portdrain op => Sys2Proof.Machine.execPortdrain op s
  | .portdown op => Sys2Proof.Machine.execPortdown op s
  | .reset op => Sys2Proof.Machine.execReset op s
  | .unknownCommand code => Sys2Proof.Machine.execUnknownCommand code s
  | .qstartWrite vf q val => Sys2Proof.Machine.execQstartWrite vf q val s
  | .s1rootWrite vf val => Sys2Proof.Machine.execS1rootWrite vf val s
  | .s1invWrite vf val => Sys2Proof.Machine.execS1invWrite vf val s
  | .registerWrite fn off bytes => Sys2Proof.Machine.execRegisterWrite fn off bytes s
  | .hostWrite vf off bytes => Sys2Proof.Machine.execHostWrite vf off bytes s
  | .hostRead vf off len => Sys2Proof.Machine.execHostRead vf off len s
  | .hostAtomicop vf off op size x y => Sys2Proof.Machine.execHostAtomicop vf off op size x y s
  | .pfBar2Access off acc => Sys2Proof.Machine.execPfBar2Access off acc s
  | .vfFlr vf => Sys2Proof.Machine.execVfFlr vf s
  | .pfFlr => Sys2Proof.Machine.execPfFlr s
  | .coldReset => Sys2Proof.Machine.execColdReset s
  | .getVersion fn => Sys2Proof.Machine.execGetVersion fn s
  | .getCapabilities fn => Sys2Proof.Machine.execGetCapabilities fn s
  | .negotiateAlgorithms fn asym hash => Sys2Proof.Machine.execNegotiateAlgorithms fn asym hash s
  | .getDigests fn => Sys2Proof.Machine.execGetDigests fn s
  | .getCertificate fn slot off len => Sys2Proof.Machine.execGetCertificate fn slot off len s
  | .challenge fn slot nonce => Sys2Proof.Machine.execChallenge fn slot nonce s
  | .getMeasurements fn index sign nonce => Sys2Proof.Machine.execGetMeasurements fn index sign nonce s
  | .spdmUnsupportedRequest fn code => Sys2Proof.Machine.execSpdmUnsupportedRequest fn code s
  | .illegalInstruction g cause => Sys2Proof.Machine.execIllegalInstruction g cause s
  | .timetableSlot => Sys2Proof.Machine.execTimetableSlot s
  | .hbmEccError part uncorrectable => Sys2Proof.Machine.execHbmEccError part uncorrectable s
  | .migrationAbortReceived cxn => Sys2Proof.Machine.execMigrationAbortReceived cxn s
  | .quantumExpiry cxn => Sys2Proof.Machine.execQuantumExpiry cxn s
  | .doeDiscovery fn index => Sys2Proof.Machine.execDoeDiscovery fn index s

end Sys2Proof.Machine
end

