-- ==== Sys2Proof/Machine/Order.lean ====
section
/-! DEFINITION. The order between the streams of one job (R71, edge 2) that its semaphores, channel slots, tag waits and guard slots fix,
which FENCE asks for (R83, R164): what each act on a core adds to it. -/
namespace Sys2Proof.Machine

/-! Semaphores: a wait uses the oldest increments that no wait has used (log 22). -/

/-- The increments of a semaphore that a wait for m uses: what they came after, and what is left. -/
def takeSem (k : Nat) : Nat → List (Nat × Nat × Past) → Past × List (Nat × Nat × Past)
  | _, [] => (.reset, [])
  | m, x :: l =>
    if x.1 = k ∧ m ≠ 0 then
      if x.2.1 ≤ m then
        let r := takeSem k (m - x.2.1) l
        (x.2.2.join r.1, r.2)
      else (x.2.2, (k, x.2.1 - m, x.2.2) :: l)
    else
      let r := takeSem k m l
      (r.1, x :: r.2)
/-- Stream e passes its wait on semaphore k for m. -/
def Order.waited (o : Order) (e : Engine) (k m : Nat) : Order :=
  let r := takeSem k m o.sems
  ({ o with sems := r.2 } : Order).learn e r.1

/-! Channel slots. -/

/-- The newest of a list, or more of what came after nothing, for a number of slots. -/
def fitted (l : List Past) (n : Nat) : List Past := List.replicate (n - l.length) .reset ++ l.drop (l.length - n)
/-- What is noted of a channel, as its counts stand. -/
def Core.chanLog (c : Core) (k : Nat) : ChanLog :=
  let x := (c.order.chans.find? (·.chan == k)).getD { chan := k, fills := [], takes := [] }
  let ch := c.chan k
  let held := ch.avail + ch.rsv.length
  { x with fills := fitted x.fills held, takes := x.takes.drop (x.takes.length + held - ch.count) }
/-- The slots that a channel's change takes, and those that it fills or reserves. -/
def Chan.taking (c d : Chan) : Nat := if c.epoch = d.epoch then c.avail - d.avail else 0
def Chan.giving (c d : Chan) : Nat := if c.epoch = d.epoch then (d.filled + d.rsv.length) - (c.filled + c.rsv.length) else 0
/-- Taken slots which would have to be filled again for `free` more slots. -/
def ChanLog.again (x : ChanLog) (count free : Nat) : Nat := x.fills.length + x.takes.length + free - count
/-- What an act that takes `t` slots and fills `g`, or waits for `full` filled and `free` free ones, comes after. -/
def ChanLog.past (x : ChanLog) (count t g full free : Nat) : Past :=
  joinAll (x.fills.take (max t full) ++ x.takes.take (x.again count (max g free)))
/-- What is noted of the channel after it. -/
def ChanLog.after (x : ChanLog) (count t g : Nat) (p : Past) : ChanLog :=
  { x with fills := x.fills.drop t ++ List.replicate g p, takes := (x.takes ++ List.replicate t p).drop (x.again count g) }

/-! Guard slots. -/

/-- The resolution of slot k that holds at a cycle: the latest, and in one cycle the last of S, V, M, X (R150). -/
def Order.slotAt (o : Order) (k now : Nat) : Option (Nat × Nat × Nat × Past) :=
  o.slots.foldl (fun b x =>
    if x.1 = k ∧ x.2.1 ≤ now then
      match b with
      | some y => if y.2.1 < x.2.1 ∨ (y.2.1 = x.2.1 ∧ y.2.2.1 ≤ x.2.2.1) then some x else b
      | none => some x
    else b) none
/-- A resolution joins those noted, and those that no cycle from now on sees leave. -/
def Order.noteSlot (o : Order) (now k cycle eng : Nat) (p : Past) : Order :=
  let old := (o.slotAt k now).map (·.2.1)
  { o with slots := (o.slots.filter fun x => x.1 != k || old.all fun z => decide (z ≤ x.2.1)) ++ [(k, cycle, eng, p)] }

/-! An act on a core. -/

/-- The stream whose act on a core it is, and the tag of the copy that acts for it. -/
def orderSite : Act → Option (Nat × Engine × Option Nat)
  | .issue (.job n e) => some (n, e, none)
  | .ev (.xfillSlotReserve n t) => some (n, .X, some t)
  | .ev (.xdrainSlotTake n t) => some (n, .X, some t)
  | _ => none
/-- The slots that a channel wait names: how many filled, and how many free. -/
def chanWait : Option Instr → Nat → Nat × Nat
  | some (.chwaitFull c n), k => (if c.toNat = k then n.toNat else 0, 0)
  | some (.chwaitFree c n), k => (0, if c.toNat = k then n.toNat else 0)
  | _, _ => (0, 0)
/-- The semaphore that stream f waits for at its instruction, and the number. -/
def Core.semWait (c : Core) (f e : Engine) (i : Option Instr) : Option (Nat × Nat) :=
  match (c.str f).hold with
  | .sem k m => some (k, m)
  | .semDue k m => some (k, m)
  | _ => match i with
    | some (.semwait k m) => if f = e then some (k.toNat, m.toNat) else none
    | _ => none

/-- What stream e comes after once it has issued: the guard slots and tags that it waited for, and the channel slots. -/
def State.learned (s : State) (n : Nat) (e : Engine) (i : Option Instr) (d : Core) : Past :=
  let c := s.core n
  let ag := Agent.job n e
  let a := (s.stream ag).pc.toNat
  let slots := if c.order.slots.isEmpty then [] else
    s.guardAt ag a :: (match i, c.m.follow with
      | some (.mwaitf _), x :: _ => [guardOf x.1]
      | _, _ => [])
  let tags := match i with
    | some (.twait t) => 1#64 <<< t.toNat
    | some (.cbwait f) => vget (c.str e).s f.toNat 0
    | _ => 0
  joinAll ((slots.filterMap fun g => (c.order.slotAt (g.toNat % 16) (s.now n)).map (·.2.2.2)) ++
    ((c.order.tags.filter fun x => tags.getLsbD x.1).map (·.2)) ++
    (List.range 16).map fun k =>
      (c.chanLog k).past (c.chan k).count ((c.chan k).taking (d.chan k)) ((c.chan k).giving (d.chan k)) (chanWait i k).1 (chanWait i k).2)
/-- The channels' notes after an act that came after p. -/
def chansAfter (c d : Core) (p : Past) : List ChanLog :=
  ((List.range 16).map fun k => (c.chanLog k).after (c.chan k).count ((c.chan k).taking (d.chan k)) ((c.chan k).giving (d.chan k)) p).filter
    fun x => !x.fills.isEmpty || !x.takes.isEmpty
/-- The order after stream e has issued `i` at core n, whose core it leaves as d (R71). -/
def State.orderIssued (s : State) (n : Nat) (e : Engine) (i : Option Instr) (d : Core) : Order :=
  let c := s.core n
  let now := s.now n
  let o1 := d.order.learn e (s.learned n e i d)
  let p := (vget o1.known (engNum e) .reset).own e d.seq now
  let o2 := { o1 with
    chans := chansAfter c d p
    sems := match i with
      | some (.semsig k m) => if m = 0 then o1.sems else o1.sems ++ [(k.toNat, m.toNat, p)]
      | _ => o1.sems
    tags := (d.copies.filter fun x => !(c.tag x.tag).infl).foldl (fun l x => aset l x.tag { p with cp := max p.cp (now + 1) }) o1.tags }
  (d.gpend.filter fun x => x.eng == engNum e && !c.gpend.contains x).foldl (fun o x =>
    (List.range 16).foldl (fun o k => if x.mask.getLsbD k then o.noteSlot now k x.cycle x.eng p else o) o) o2
/-- The waits on semaphores that an act has served. -/
def Core.orderServed (c : Core) (e : Engine) (i : Option Instr) (d : Core) (now : Nat) (o : Order) : Order :=
  engines.foldl (fun o f =>
    match c.semWait f e i with
    | some (k, m) => if now < (d.str f).nextIssue then o.waited f k m else o
    | none => o) o
/-- The order after a copy's act on a channel. -/
def orderCopied (c d : Core) (tag : Nat) : Order :=
  let got := joinAll ((List.range 16).map fun k =>
    (c.chanLog k).past (c.chan k).count ((c.chan k).taking (d.chan k)) ((c.chan k).giving (d.chan k)) 0 0)
  let p := ((aget? d.order.tags tag).getD .reset).join got
  { d.order with tags := aset d.order.tags tag p, chans := chansAfter c d p }

/-- What an act adds to the order of its core: nothing where it ends or restarts the job. -/
def State.noteOrder (s t : State) (a : Act) (i : Option Instr) : State :=
  match orderSite a with
  | none => t
  | some (n, e, via) =>
    let c := s.core n
    let d := t.core n
    if c.job ≠ d.job ∨ d.job = none ∨ c.loading ≠ d.loading then t
    else
      let o := match via with
        | some tag => orderCopied c d tag
        | none =>
          if s.now n < (d.str e).nextIssue then s.orderIssued n e i d else d.order
      let o' := c.orderServed e i d (s.now n) o
      t.modCore n fun x => { x with
        order := o', strong := x.strong.map fun y => if c.seq ≤ y.id then { y with past := (vget o'.known (engNum e) .reset).own e c.seq (s.now n) } else y }
/-- An outcome with the order that the act adds. -/
def State.ordered (s : State) (a : Act) (i : Option Instr) : Out → Out
  | .next t => .next (s.noteOrder t a i)
  | x => x

end Sys2Proof.Machine
end

