-- ==== Sys2Proof/Machine/Place.lean ====
section
/-! DEFINITION. One instruction placed where the next step issues it: a running context whose memory is mapped one to one onto local
HBM, a program of one instruction, and the turn of the agent that issues it (log 11). -/
namespace Sys2Proof.Machine

/-- The forms that only a queue thread issues (R118, R299, R308). -/
def threadForm : Instr → Bool
  | .launch _ _ _ _ => true
  | .kwait _ _ _ => true
  | .kstat _ _ _ => true
  | .qrd _ _ _ => true
  | .qwr _ _ _ => true
  | .cxrd _ _ _ => true
  | .cxwr _ _ _ => true
  | .trrd _ _ _ => true
  | .trwr _ _ _ => true
  | .eclr _ _ _ => true
  | .npbeg _ _ => true
  | .npend _ => true
  | .qsig _ _ => true
  | .eret => true
  | .eretAt _ => true
  | _ => false

/-- Where the one leaf of the stage-2 table stands, and the program. -/
def placeTable : Nat := 0x10000
def placeCode : Nat := 0x20000
/-- A level-0 leaf with R, W and X over the first 2^42 bytes of local HBM (Table 16-2). -/
def placeLeaf : Nat := 0x71

/-- The instance and group of the placed job. -/
def placeInst : Inst :=
  { mkInst 16 0 { code := placeCode, argp := 0, lcnt := [1, 0, 0, 0, 0, 0], ndep := 0, deps := [] } 0 0 0 [] with
    state := .walking, counts := [1], kinds := [1], codeOff := [0, 0, 0, 0], partw := partdReset
    groups := [{ mkGroup 0 0 [0] with state := .lockstep, nextJ := 1, tuples := 2 }] }

/-- Words in local HBM, untainted and without poison. -/
def State.placeBytes (s : State) (a : Nat) (bs : List Byte) : State :=
  { s with
    hbm := s.hbm.write a bs, hbmT := (s.hbmT.del (a / 16)), hbmP := s.hbmP.del (a / 16), llcP := s.llcP.del (a / 16) }

/-- Context 0 runs, with the table as its stage 2 and stage 1 off. -/
def Ctx.forPlace (c : Ctx) : Ctx :=
  { c with
    state := .running, restoring := false, s1root := 0, s2root := placeTable, clmask := 1, runs := [(0, 1)], insts := [placeInst] }
/-- A stream or thread about to issue at the program. -/
def Stream.forPlace (x : Stream) : Stream :=
  { x with pc := BitVec.ofNat 64 placeCode, redirect := none, slots := 0, loops := [], lbuf := [], hold := .none, nextIssue := 0 }
/-- Core 0 runs the placed job. -/
def Core.forPlace (c : Core) (e : Engine) : Core :=
  { c with
    owner := some 0, member := some (0, 16, 0, 0), job := some { cxn := 0, handle := 16, gidx := 0, ord := 0, i := 0, j := 0 }
    stop := none, loading := false, retrans := false, stopClass := 0, partw := partdReset }.setStr e (c.str e).forPlace
/-- Queue 0 runs its thread. -/
def Queue.forPlace (k : Queue) : Queue := { k with state := .running, thread := k.thread.forPlace, strong := [], waitLink := none }

/-- The agent that issues an instruction read by an engine's tables. -/
def placeAgent (e : Engine) (i : Option Instr) : Agent :=
  match i with
  | some i => if threadForm i then .thread 0 0 else .job 0 e
  | none => .job 0 e
/-- The bytes of an instruction where the next step issues them, by the agent that may. -/
def State.place1 (s : State) (ag : Agent) (bs : List Byte) : State :=
  let s1 := (s.placeBytes placeTable (leBytes 8 placeLeaf)).placeBytes placeCode bs
  let s2 := (s1.modGuide fun g => { g with boot := 8, err := 0, rdy := true, powered := true }).modCtx 0 Ctx.forPlace
  let s3 := match ag with
    | .job _ e => s2.modCore 0 (·.forPlace e)
    | .thread _ _ => s2.modQueue 0 0 Queue.forPlace
  { s3 with agenda := [.issue ag] }

end Sys2Proof.Machine
end

