-- ==== Sys2Proof/Machine/Step.lean ====
section
/-! DEFINITION. One step of the machine: a boot step, an action of the clock cycle under way, an input, or the plan of the next
clock cycle (log 1). -/
namespace Sys2Proof.Machine

/-- The turn of an agent (R94): the instruction at its program counter runs, and is noted in the order of its job (R71). -/
def issueStep (s : State) (ag : Agent) : Host.Outcome State Fault Refusal :=
  match s.turn ag with
  | .run i s1 => s1.ordered (.issue ag) (some i) (exec i s1)
  | .illegal g c s1 => execIllegalInstruction g c s1
  | .done s1 => .next s1

/-- One action of the clock cycle under way. -/
def actStep (s : State) : Act → Host.Outcome State Fault Refusal
  | .ev i => s.ordered (.ev i) (some i) (exec i s)
  | .auto a => runAuto a s
  | .issue ag => issueStep s ag

/-- An input of a module without power: only a cold reset restarts it (R463). -/
def darkStep (s : State) : Host.Outcome State Fault Refusal :=
  match s.inbox with
  | [] => .fault .powerRemoved
  | i :: rest => if i == .coldReset then execColdReset { s with inbox := rest } else .next { s with inbox := rest }

/-- One step. -/
def step (s : State) : Host.Outcome State Fault Refusal :=
  if !s.guide.powered then darkStep s
  else if s.guide.booting then .next s.bootStep
  else
    match s.agenda, s.takeInput false s.inbox with
    | a :: rest, _ => actStep { s with agenda := rest } a
    | [], some (i, rest) => exec i { s with inbox := rest }
    | [], none => .next s.planCycle

/-- The instruction a row's bits are, where the next step issues it: by a stream of a job, or by a queue thread where only a
thread may (log 11). -/
def State.withFetchWord (s : State) (nbits w : Nat) : State :=
  let v := w % 2 ^ nbits
  let w0 := BitVec.ofNat 32 v
  let w1 := BitVec.ofNat 32 (v / 2 ^ 32)
  s.place1 (placeAgent (tableEngine w0 w1) (decodeTableWord nbits w)) (bytesOfWords [w0, w1])

end Sys2Proof.Machine
end

