-- ==== Sys2Proof/Laws/Bytes.lean ====
section
/-! SUPPORT. Byte memories keep their canonical form, read after write, and the laws of sets and keyed lists. -/
namespace Sys2Proof.Machine

/-! Keyed lists. -/

@[simp] theorem aget?_aset_same {α : Type} (l : List (Nat × α)) (a : Nat) (b : α) : aget? (aset l a b) a = some b := by
  induction l with
  | nil => simp [aset, aget?]
  | cons x l ih =>
    obtain ⟨k, v⟩ := x
    simp only [aset]
    split
    · simp [aget?]
    · split
      · simp [aget?]
      · simp [aget?, *]

theorem aget?_aset_ne {α : Type} (l : List (Nat × α)) (a c : Nat) (b : α) (h : c ≠ a) : aget? (aset l a b) c = aget? l c := by
  induction l with
  | nil => simp [aset, aget?, Ne.symm h]
  | cons x l ih =>
    obtain ⟨k, v⟩ := x
    simp only [aset]
    split
    · rename_i e
      subst e
      simp [aget?, Ne.symm h]
    · split
      · simp [aget?, Ne.symm h]
      · simp [aget?, ih]

@[simp] theorem aset_aset {α : Type} (l : List (Nat × α)) (a : Nat) (b c : α) : aset (aset l a b) a c = aset l a c := by
  induction l with
  | nil => simp [aset]
  | cons x l ih =>
    obtain ⟨k, v⟩ := x
    simp only [aset]
    split
    · simp [aset]
    · split
      · simp [aset]
      · simp [aset, *]

/-! Vectors. -/

theorem vget_setIfInBounds {α : Type} {n : Nat} (v : Vector α n) (k j : Nat) (x d : α) :
    vget (v.setIfInBounds k x) j d = if k = j ∧ j < n then x else vget v j d := by
  simp only [vget, Vector.getElem?_setIfInBounds]
  split <;> split <;> simp_all <;> intro _ <;> omega

/-! Byte memories. -/

theorem Mem.wfFrom_le {m : Mem} {a b : Nat} (h : Mem.wfFrom (some a) m) (hb : b ≤ a) : Mem.wfFrom (some b) m := by
  cases m with
  | nil => rfl
  | cons x m =>
    simp only [Mem.wfFrom, Bool.and_eq_true, decide_eq_true_eq] at h ⊢
    exact ⟨⟨by omega, h.1.2⟩, h.2⟩

theorem Mem.wfFrom_none {m : Mem} {a : Nat} (h : Mem.wfFrom (some a) m) : Mem.wfFrom none m := by
  cases m with
  | nil => rfl
  | cons x m =>
    simp only [Mem.wfFrom, Bool.and_eq_true, decide_eq_true_eq] at h ⊢
    exact ⟨⟨trivial, h.1.2⟩, h.2⟩

theorem Mem.wfFrom_drop {lo : Option Nat} {m : Mem} (h : Mem.wfFrom lo m) (a : Nat) : Mem.wfFrom lo (Mem.drop m a) := by
  induction m generalizing lo with
  | nil => exact h
  | cons x m ih =>
    obtain ⟨k, v⟩ := x
    simp only [Mem.drop]
    have hs : Mem.wfFrom (some k) m := by
      simp only [Mem.wfFrom, Bool.and_eq_true] at h
      exact h.2
    split
    · cases lo with
      | none => exact Mem.wfFrom_none hs
      | some l =>
        simp only [Mem.wfFrom, Bool.and_eq_true, decide_eq_true_eq] at h
        exact Mem.wfFrom_le hs (by omega)
    · split
      · exact h
      · simp only [Mem.wfFrom, Bool.and_eq_true] at h ⊢
        exact ⟨h.1, ih hs⟩

theorem Mem.wfFrom_put {lo : Option Nat} {m : Mem} (h : Mem.wfFrom lo m) (a : Nat) (b : Byte) (hb : b ≠ 0)
    (hl : match lo with
      | none => True
      | some l => l < a) : Mem.wfFrom lo (Mem.put m a b) := by
  induction m generalizing lo with
  | nil => cases lo <;> simp_all [Mem.put, Mem.wfFrom]
  | cons x m ih =>
    obtain ⟨k, v⟩ := x
    simp only [Mem.wfFrom, Bool.and_eq_true, decide_eq_true_eq] at h
    simp only [Mem.put]
    split
    · rename_i e
      subst e
      cases lo <;> simp_all [Mem.wfFrom]
    · split
      · cases lo <;> simp_all [Mem.wfFrom]
      · simp only [Mem.wfFrom, Bool.and_eq_true, decide_eq_true_eq]
        exact ⟨h.1, ih h.2 (by show k < a; omega)⟩

/-- A write of a byte keeps the canonical form. -/
theorem Mem.wf_set {m : Mem} (h : m.wf) (a : Nat) (b : Byte) : (m.set a b).wf := by
  simp only [Mem.wf, Mem.set] at *
  split
  · exact Mem.wfFrom_drop h a
  · exact Mem.wfFrom_put h a b ‹_› trivial

/-- A write of bytes keeps the canonical form. -/
theorem Mem.wf_write {m : Mem} (h : m.wf) (a : Nat) (bs : List Byte) : (m.write a bs).wf := by
  induction bs generalizing m a with
  | nil => exact h
  | cons b bs ih => exact ih (Mem.wf_set h a b) (a + 1)

theorem Mem.wfFrom_filter {lo : Option Nat} {m : Mem} (h : Mem.wfFrom lo m) (p : Nat × Byte → Bool) :
    Mem.wfFrom lo (m.filter p) := by
  induction m generalizing lo with
  | nil => exact h
  | cons x m ih =>
    obtain ⟨k, v⟩ := x
    simp only [Mem.wfFrom, Bool.and_eq_true, decide_eq_true_eq] at h
    have hm := ih h.2
    simp only [List.filter_cons]
    split
    · simp only [Mem.wfFrom, Bool.and_eq_true, decide_eq_true_eq]
      exact ⟨h.1, hm⟩
    · cases lo with
      | none => exact Mem.wfFrom_none hm
      | some l => exact Mem.wfFrom_le hm (by simp at h; omega)

/-- Clearing addresses keeps the canonical form. -/
theorem Mem.wf_clear {m : Mem} (h : m.wf) (p : Nat → Bool) : (m.clear p).wf := Mem.wfFrom_filter h _

@[simp] theorem Mem.wf_nil : Mem.wf [] = true := rfl

theorem Mem.get_of_below {m : Mem} {a l : Nat} (h : Mem.wfFrom (some l) m) (ha : a ≤ l) : m.get a = 0 := by
  induction m generalizing l with
  | nil => rfl
  | cons x m ih =>
    obtain ⟨k, v⟩ := x
    simp only [Mem.wfFrom, Bool.and_eq_true, decide_eq_true_eq] at h
    simp only [Mem.get]
    rw [if_neg (by omega)]
    exact ih h.2 (by omega)

theorem Mem.get_drop {lo : Option Nat} {m : Mem} (h : Mem.wfFrom lo m) (a c : Nat) :
    (Mem.drop m a).get c = if c = a then 0 else m.get c := by
  induction m generalizing lo with
  | nil => simp [Mem.drop, Mem.get]
  | cons x m ih =>
    obtain ⟨k, v⟩ := x
    simp only [Mem.wfFrom, Bool.and_eq_true, decide_eq_true_eq] at h
    simp only [Mem.drop]
    split
    · rename_i e
      subst e
      simp only [Mem.get]
      split
      · rename_i e
        subst e
        exact Mem.get_of_below h.2 (Nat.le_refl _)
      · rw [if_neg (by omega)]
    · split
      · split
        · rename_i e
          subst e
          simp only [Mem.get]
          rw [if_neg (by omega)]
          exact Mem.get_of_below h.2 (by omega)
        · rfl
      · simp only [Mem.get, ih h.2]
        split <;> split <;> simp_all

theorem Mem.get_put (m : Mem) (a c : Nat) (b : Byte) : (Mem.put m a b).get c = if c = a then b else m.get c := by
  induction m with
  | nil => simp only [Mem.put, Mem.get, eq_comm]
  | cons x m ih =>
    obtain ⟨k, v⟩ := x
    by_cases hc : c = a
    · subst hc
      simp only [Mem.put]
      split
      · simp [Mem.get]
      · split
        · simp [Mem.get]
        · simp only [Mem.get, ih]
          simp [*]
    · have hc' : ¬ a = c := fun e => hc e.symm
      simp only [Mem.put, hc, if_false] at ih ⊢
      split
      · rename_i e
        simp only [Mem.get, e, hc', if_false]
      · split
        · simp only [Mem.get, hc', if_false]
        · simp only [Mem.get, ih]

/-- A read after a write of a byte. -/
theorem Mem.get_set {m : Mem} (h : m.wf) (a c : Nat) (b : Byte) : (m.set a b).get c = if c = a then b else m.get c := by
  simp only [Mem.set]
  split
  · rw [Mem.get_drop h]
    split <;> simp_all
  · exact Mem.get_put m a c b

end Sys2Proof.Machine
end

