-- ==== Sys2Proof/Laws/State.lean ====
section
/-! SUPPORT. What each update of the state leaves as it was, one lemma for each field. -/
namespace Sys2Proof.Machine

@[simp] theorem State.setCore_cur (s : State) (n : Nat) (c : Core) : (s.setCore n c).cur = s.cur := rfl
@[simp] theorem State.setCore_agenda (s : State) (n : Nat) (c : Core) : (s.setCore n c).agenda = s.agenda := rfl
@[simp] theorem State.setCore_inbox (s : State) (n : Nat) (c : Core) : (s.setCore n c).inbox = s.inbox := rfl
@[simp] theorem State.setCore_ctxs (s : State) (n : Nat) (c : Core) : (s.setCore n c).ctxs = s.ctxs := rfl
@[simp] theorem State.setCore_hbm (s : State) (n : Nat) (c : Core) : (s.setCore n c).hbm = s.hbm := rfl
@[simp] theorem State.setCore_hbmT (s : State) (n : Nat) (c : Core) : (s.setCore n c).hbmT = s.hbmT := rfl
@[simp] theorem State.setCore_hbmP (s : State) (n : Nat) (c : Core) : (s.setCore n c).hbmP = s.hbmP := rfl
@[simp] theorem State.setCore_llcP (s : State) (n : Nat) (c : Core) : (s.setCore n c).llcP = s.llcP := rfl
@[simp] theorem State.setCore_llc (s : State) (n : Nat) (c : Core) : (s.setCore n c).llc = s.llc := rfl
@[simp] theorem State.setCore_remote (s : State) (n : Nat) (c : Core) : (s.setCore n c).remote = s.remote := rfl
@[simp] theorem State.setCore_remoteT (s : State) (n : Nat) (c : Core) : (s.setCore n c).remoteT = s.remoteT := rfl
@[simp] theorem State.setCore_guide (s : State) (n : Nat) (c : Core) : (s.setCore n c).guide = s.guide := rfl
@[simp] theorem State.setCore_pcyc (s : State) (n : Nat) (c : Core) : (s.setCore n c).pcyc = s.pcyc := rfl
@[simp] theorem State.setCore_free (s : State) (n : Nat) (c : Core) : (s.setCore n c).free = s.free := rfl
@[simp] theorem State.setCore_out (s : State) (n : Nat) (c : Core) : (s.setCore n c).out = s.out := rfl
@[simp] theorem State.setCore_issued (s : State) (n : Nat) (c : Core) : (s.setCore n c).issued = s.issued := rfl
@[simp] theorem State.setCore_lastThread (s : State) (n : Nat) (c : Core) : (s.setCore n c).lastThread = s.lastThread := rfl

@[simp] theorem State.modCore_cur (s : State) (n : Nat) (f : Core → Core) : (s.modCore n f).cur = s.cur := rfl
@[simp] theorem State.modCore_agenda (s : State) (n : Nat) (f : Core → Core) : (s.modCore n f).agenda = s.agenda := rfl
@[simp] theorem State.modCore_inbox (s : State) (n : Nat) (f : Core → Core) : (s.modCore n f).inbox = s.inbox := rfl
@[simp] theorem State.modCore_ctxs (s : State) (n : Nat) (f : Core → Core) : (s.modCore n f).ctxs = s.ctxs := rfl
@[simp] theorem State.modCore_hbm (s : State) (n : Nat) (f : Core → Core) : (s.modCore n f).hbm = s.hbm := rfl
@[simp] theorem State.modCore_hbmT (s : State) (n : Nat) (f : Core → Core) : (s.modCore n f).hbmT = s.hbmT := rfl
@[simp] theorem State.modCore_hbmP (s : State) (n : Nat) (f : Core → Core) : (s.modCore n f).hbmP = s.hbmP := rfl
@[simp] theorem State.modCore_llcP (s : State) (n : Nat) (f : Core → Core) : (s.modCore n f).llcP = s.llcP := rfl
@[simp] theorem State.modCore_llc (s : State) (n : Nat) (f : Core → Core) : (s.modCore n f).llc = s.llc := rfl
@[simp] theorem State.modCore_remote (s : State) (n : Nat) (f : Core → Core) : (s.modCore n f).remote = s.remote := rfl
@[simp] theorem State.modCore_remoteT (s : State) (n : Nat) (f : Core → Core) : (s.modCore n f).remoteT = s.remoteT := rfl
@[simp] theorem State.modCore_guide (s : State) (n : Nat) (f : Core → Core) : (s.modCore n f).guide = s.guide := rfl
@[simp] theorem State.modCore_pcyc (s : State) (n : Nat) (f : Core → Core) : (s.modCore n f).pcyc = s.pcyc := rfl
@[simp] theorem State.modCore_free (s : State) (n : Nat) (f : Core → Core) : (s.modCore n f).free = s.free := rfl
@[simp] theorem State.modCore_out (s : State) (n : Nat) (f : Core → Core) : (s.modCore n f).out = s.out := rfl
@[simp] theorem State.modCore_issued (s : State) (n : Nat) (f : Core → Core) : (s.modCore n f).issued = s.issued := rfl
@[simp] theorem State.modCore_lastThread (s : State) (n : Nat) (f : Core → Core) : (s.modCore n f).lastThread = s.lastThread := rfl

@[simp] theorem State.setCtx_cur (s : State) (n : Nat) (c : Ctx) : (s.setCtx n c).cur = s.cur := rfl
@[simp] theorem State.setCtx_agenda (s : State) (n : Nat) (c : Ctx) : (s.setCtx n c).agenda = s.agenda := rfl
@[simp] theorem State.setCtx_inbox (s : State) (n : Nat) (c : Ctx) : (s.setCtx n c).inbox = s.inbox := rfl
@[simp] theorem State.setCtx_cores (s : State) (n : Nat) (c : Ctx) : (s.setCtx n c).cores = s.cores := rfl
@[simp] theorem State.setCtx_hbm (s : State) (n : Nat) (c : Ctx) : (s.setCtx n c).hbm = s.hbm := rfl
@[simp] theorem State.setCtx_hbmT (s : State) (n : Nat) (c : Ctx) : (s.setCtx n c).hbmT = s.hbmT := rfl
@[simp] theorem State.setCtx_hbmP (s : State) (n : Nat) (c : Ctx) : (s.setCtx n c).hbmP = s.hbmP := rfl
@[simp] theorem State.setCtx_llcP (s : State) (n : Nat) (c : Ctx) : (s.setCtx n c).llcP = s.llcP := rfl
@[simp] theorem State.setCtx_llc (s : State) (n : Nat) (c : Ctx) : (s.setCtx n c).llc = s.llc := rfl
@[simp] theorem State.setCtx_remote (s : State) (n : Nat) (c : Ctx) : (s.setCtx n c).remote = s.remote := rfl
@[simp] theorem State.setCtx_remoteT (s : State) (n : Nat) (c : Ctx) : (s.setCtx n c).remoteT = s.remoteT := rfl
@[simp] theorem State.setCtx_guide (s : State) (n : Nat) (c : Ctx) : (s.setCtx n c).guide = s.guide := rfl
@[simp] theorem State.setCtx_pcyc (s : State) (n : Nat) (c : Ctx) : (s.setCtx n c).pcyc = s.pcyc := rfl
@[simp] theorem State.setCtx_free (s : State) (n : Nat) (c : Ctx) : (s.setCtx n c).free = s.free := rfl
@[simp] theorem State.setCtx_out (s : State) (n : Nat) (c : Ctx) : (s.setCtx n c).out = s.out := rfl
@[simp] theorem State.setCtx_issued (s : State) (n : Nat) (c : Ctx) : (s.setCtx n c).issued = s.issued := rfl
@[simp] theorem State.setCtx_lastThread (s : State) (n : Nat) (c : Ctx) : (s.setCtx n c).lastThread = s.lastThread := rfl

@[simp] theorem State.modCtx_cur (s : State) (n : Nat) (f : Ctx → Ctx) : (s.modCtx n f).cur = s.cur := rfl
@[simp] theorem State.modCtx_agenda (s : State) (n : Nat) (f : Ctx → Ctx) : (s.modCtx n f).agenda = s.agenda := rfl
@[simp] theorem State.modCtx_inbox (s : State) (n : Nat) (f : Ctx → Ctx) : (s.modCtx n f).inbox = s.inbox := rfl
@[simp] theorem State.modCtx_cores (s : State) (n : Nat) (f : Ctx → Ctx) : (s.modCtx n f).cores = s.cores := rfl
@[simp] theorem State.modCtx_hbm (s : State) (n : Nat) (f : Ctx → Ctx) : (s.modCtx n f).hbm = s.hbm := rfl
@[simp] theorem State.modCtx_hbmT (s : State) (n : Nat) (f : Ctx → Ctx) : (s.modCtx n f).hbmT = s.hbmT := rfl
@[simp] theorem State.modCtx_hbmP (s : State) (n : Nat) (f : Ctx → Ctx) : (s.modCtx n f).hbmP = s.hbmP := rfl
@[simp] theorem State.modCtx_llcP (s : State) (n : Nat) (f : Ctx → Ctx) : (s.modCtx n f).llcP = s.llcP := rfl
@[simp] theorem State.modCtx_llc (s : State) (n : Nat) (f : Ctx → Ctx) : (s.modCtx n f).llc = s.llc := rfl
@[simp] theorem State.modCtx_remote (s : State) (n : Nat) (f : Ctx → Ctx) : (s.modCtx n f).remote = s.remote := rfl
@[simp] theorem State.modCtx_remoteT (s : State) (n : Nat) (f : Ctx → Ctx) : (s.modCtx n f).remoteT = s.remoteT := rfl
@[simp] theorem State.modCtx_guide (s : State) (n : Nat) (f : Ctx → Ctx) : (s.modCtx n f).guide = s.guide := rfl
@[simp] theorem State.modCtx_pcyc (s : State) (n : Nat) (f : Ctx → Ctx) : (s.modCtx n f).pcyc = s.pcyc := rfl
@[simp] theorem State.modCtx_free (s : State) (n : Nat) (f : Ctx → Ctx) : (s.modCtx n f).free = s.free := rfl
@[simp] theorem State.modCtx_out (s : State) (n : Nat) (f : Ctx → Ctx) : (s.modCtx n f).out = s.out := rfl
@[simp] theorem State.modCtx_issued (s : State) (n : Nat) (f : Ctx → Ctx) : (s.modCtx n f).issued = s.issued := rfl
@[simp] theorem State.modCtx_lastThread (s : State) (n : Nat) (f : Ctx → Ctx) : (s.modCtx n f).lastThread = s.lastThread := rfl

@[simp] theorem State.modGuide_cur (s : State) (f : Guide → Guide) : (s.modGuide f).cur = s.cur := rfl
@[simp] theorem State.modGuide_agenda (s : State) (f : Guide → Guide) : (s.modGuide f).agenda = s.agenda := rfl
@[simp] theorem State.modGuide_inbox (s : State) (f : Guide → Guide) : (s.modGuide f).inbox = s.inbox := rfl
@[simp] theorem State.modGuide_cores (s : State) (f : Guide → Guide) : (s.modGuide f).cores = s.cores := rfl
@[simp] theorem State.modGuide_ctxs (s : State) (f : Guide → Guide) : (s.modGuide f).ctxs = s.ctxs := rfl
@[simp] theorem State.modGuide_hbm (s : State) (f : Guide → Guide) : (s.modGuide f).hbm = s.hbm := rfl
@[simp] theorem State.modGuide_hbmT (s : State) (f : Guide → Guide) : (s.modGuide f).hbmT = s.hbmT := rfl
@[simp] theorem State.modGuide_hbmP (s : State) (f : Guide → Guide) : (s.modGuide f).hbmP = s.hbmP := rfl
@[simp] theorem State.modGuide_llcP (s : State) (f : Guide → Guide) : (s.modGuide f).llcP = s.llcP := rfl
@[simp] theorem State.modGuide_llc (s : State) (f : Guide → Guide) : (s.modGuide f).llc = s.llc := rfl
@[simp] theorem State.modGuide_remote (s : State) (f : Guide → Guide) : (s.modGuide f).remote = s.remote := rfl
@[simp] theorem State.modGuide_remoteT (s : State) (f : Guide → Guide) : (s.modGuide f).remoteT = s.remoteT := rfl
@[simp] theorem State.modGuide_pcyc (s : State) (f : Guide → Guide) : (s.modGuide f).pcyc = s.pcyc := rfl
@[simp] theorem State.modGuide_free (s : State) (f : Guide → Guide) : (s.modGuide f).free = s.free := rfl
@[simp] theorem State.modGuide_out (s : State) (f : Guide → Guide) : (s.modGuide f).out = s.out := rfl
@[simp] theorem State.modGuide_issued (s : State) (f : Guide → Guide) : (s.modGuide f).issued = s.issued := rfl
@[simp] theorem State.modGuide_lastThread (s : State) (f : Guide → Guide) : (s.modGuide f).lastThread = s.lastThread := rfl

@[simp] theorem State.tick_cur (s : State) (k : Nat) : (s.tick k).cur = s.cur := rfl
@[simp] theorem State.tick_agenda (s : State) (k : Nat) : (s.tick k).agenda = s.agenda := rfl
@[simp] theorem State.tick_inbox (s : State) (k : Nat) : (s.tick k).inbox = s.inbox := rfl
@[simp] theorem State.tick_cores (s : State) (k : Nat) : (s.tick k).cores = s.cores := rfl
@[simp] theorem State.tick_ctxs (s : State) (k : Nat) : (s.tick k).ctxs = s.ctxs := rfl
@[simp] theorem State.tick_hbm (s : State) (k : Nat) : (s.tick k).hbm = s.hbm := rfl
@[simp] theorem State.tick_hbmT (s : State) (k : Nat) : (s.tick k).hbmT = s.hbmT := rfl
@[simp] theorem State.tick_hbmP (s : State) (k : Nat) : (s.tick k).hbmP = s.hbmP := rfl
@[simp] theorem State.tick_llcP (s : State) (k : Nat) : (s.tick k).llcP = s.llcP := rfl
@[simp] theorem State.tick_llc (s : State) (k : Nat) : (s.tick k).llc = s.llc := rfl
@[simp] theorem State.tick_remote (s : State) (k : Nat) : (s.tick k).remote = s.remote := rfl
@[simp] theorem State.tick_remoteT (s : State) (k : Nat) : (s.tick k).remoteT = s.remoteT := rfl
@[simp] theorem State.tick_guide (s : State) (k : Nat) : (s.tick k).guide = s.guide := rfl
@[simp] theorem State.tick_pcyc (s : State) (k : Nat) : (s.tick k).pcyc = s.pcyc := rfl
@[simp] theorem State.tick_out (s : State) (k : Nat) : (s.tick k).out = s.out := rfl
@[simp] theorem State.tick_issued (s : State) (k : Nat) : (s.tick k).issued = s.issued := rfl
@[simp] theorem State.tick_lastThread (s : State) (k : Nat) : (s.tick k).lastThread = s.lastThread := rfl

@[simp] theorem State.send_cur (s : State) (o : Output) : (s.send o).cur = s.cur := rfl
@[simp] theorem State.send_agenda (s : State) (o : Output) : (s.send o).agenda = s.agenda := rfl
@[simp] theorem State.send_inbox (s : State) (o : Output) : (s.send o).inbox = s.inbox := rfl
@[simp] theorem State.send_cores (s : State) (o : Output) : (s.send o).cores = s.cores := rfl
@[simp] theorem State.send_ctxs (s : State) (o : Output) : (s.send o).ctxs = s.ctxs := rfl
@[simp] theorem State.send_hbm (s : State) (o : Output) : (s.send o).hbm = s.hbm := rfl
@[simp] theorem State.send_hbmT (s : State) (o : Output) : (s.send o).hbmT = s.hbmT := rfl
@[simp] theorem State.send_hbmP (s : State) (o : Output) : (s.send o).hbmP = s.hbmP := rfl
@[simp] theorem State.send_llcP (s : State) (o : Output) : (s.send o).llcP = s.llcP := rfl
@[simp] theorem State.send_llc (s : State) (o : Output) : (s.send o).llc = s.llc := rfl
@[simp] theorem State.send_remote (s : State) (o : Output) : (s.send o).remote = s.remote := rfl
@[simp] theorem State.send_remoteT (s : State) (o : Output) : (s.send o).remoteT = s.remoteT := rfl
@[simp] theorem State.send_guide (s : State) (o : Output) : (s.send o).guide = s.guide := rfl
@[simp] theorem State.send_pcyc (s : State) (o : Output) : (s.send o).pcyc = s.pcyc := rfl
@[simp] theorem State.send_free (s : State) (o : Output) : (s.send o).free = s.free := rfl
@[simp] theorem State.send_issued (s : State) (o : Output) : (s.send o).issued = s.issued := rfl
@[simp] theorem State.send_lastThread (s : State) (o : Output) : (s.send o).lastThread = s.lastThread := rfl

@[simp] theorem State.setQueue_cur (s : State) (n q : Nat) (x : Queue) : (s.setQueue n q x).cur = s.cur := rfl
@[simp] theorem State.setQueue_agenda (s : State) (n q : Nat) (x : Queue) : (s.setQueue n q x).agenda = s.agenda := rfl
@[simp] theorem State.setQueue_inbox (s : State) (n q : Nat) (x : Queue) : (s.setQueue n q x).inbox = s.inbox := rfl
@[simp] theorem State.setQueue_cores (s : State) (n q : Nat) (x : Queue) : (s.setQueue n q x).cores = s.cores := rfl
@[simp] theorem State.setQueue_hbm (s : State) (n q : Nat) (x : Queue) : (s.setQueue n q x).hbm = s.hbm := rfl
@[simp] theorem State.setQueue_hbmT (s : State) (n q : Nat) (x : Queue) : (s.setQueue n q x).hbmT = s.hbmT := rfl
@[simp] theorem State.setQueue_hbmP (s : State) (n q : Nat) (x : Queue) : (s.setQueue n q x).hbmP = s.hbmP := rfl
@[simp] theorem State.setQueue_llcP (s : State) (n q : Nat) (x : Queue) : (s.setQueue n q x).llcP = s.llcP := rfl
@[simp] theorem State.setQueue_llc (s : State) (n q : Nat) (x : Queue) : (s.setQueue n q x).llc = s.llc := rfl
@[simp] theorem State.setQueue_remote (s : State) (n q : Nat) (x : Queue) : (s.setQueue n q x).remote = s.remote := rfl
@[simp] theorem State.setQueue_remoteT (s : State) (n q : Nat) (x : Queue) : (s.setQueue n q x).remoteT = s.remoteT := rfl
@[simp] theorem State.setQueue_guide (s : State) (n q : Nat) (x : Queue) : (s.setQueue n q x).guide = s.guide := rfl
@[simp] theorem State.setQueue_pcyc (s : State) (n q : Nat) (x : Queue) : (s.setQueue n q x).pcyc = s.pcyc := rfl
@[simp] theorem State.setQueue_free (s : State) (n q : Nat) (x : Queue) : (s.setQueue n q x).free = s.free := rfl
@[simp] theorem State.setQueue_out (s : State) (n q : Nat) (x : Queue) : (s.setQueue n q x).out = s.out := rfl
@[simp] theorem State.setQueue_issued (s : State) (n q : Nat) (x : Queue) : (s.setQueue n q x).issued = s.issued := rfl
@[simp] theorem State.setQueue_lastThread (s : State) (n q : Nat) (x : Queue) : (s.setQueue n q x).lastThread = s.lastThread := rfl

@[simp] theorem State.modQueue_cur (s : State) (n q : Nat) (f : Queue → Queue) : (s.modQueue n q f).cur = s.cur := rfl
@[simp] theorem State.modQueue_agenda (s : State) (n q : Nat) (f : Queue → Queue) : (s.modQueue n q f).agenda = s.agenda := rfl
@[simp] theorem State.modQueue_inbox (s : State) (n q : Nat) (f : Queue → Queue) : (s.modQueue n q f).inbox = s.inbox := rfl
@[simp] theorem State.modQueue_cores (s : State) (n q : Nat) (f : Queue → Queue) : (s.modQueue n q f).cores = s.cores := rfl
@[simp] theorem State.modQueue_hbm (s : State) (n q : Nat) (f : Queue → Queue) : (s.modQueue n q f).hbm = s.hbm := rfl
@[simp] theorem State.modQueue_hbmT (s : State) (n q : Nat) (f : Queue → Queue) : (s.modQueue n q f).hbmT = s.hbmT := rfl
@[simp] theorem State.modQueue_hbmP (s : State) (n q : Nat) (f : Queue → Queue) : (s.modQueue n q f).hbmP = s.hbmP := rfl
@[simp] theorem State.modQueue_llcP (s : State) (n q : Nat) (f : Queue → Queue) : (s.modQueue n q f).llcP = s.llcP := rfl
@[simp] theorem State.modQueue_llc (s : State) (n q : Nat) (f : Queue → Queue) : (s.modQueue n q f).llc = s.llc := rfl
@[simp] theorem State.modQueue_remote (s : State) (n q : Nat) (f : Queue → Queue) : (s.modQueue n q f).remote = s.remote := rfl
@[simp] theorem State.modQueue_remoteT (s : State) (n q : Nat) (f : Queue → Queue) : (s.modQueue n q f).remoteT = s.remoteT := rfl
@[simp] theorem State.modQueue_guide (s : State) (n q : Nat) (f : Queue → Queue) : (s.modQueue n q f).guide = s.guide := rfl
@[simp] theorem State.modQueue_pcyc (s : State) (n q : Nat) (f : Queue → Queue) : (s.modQueue n q f).pcyc = s.pcyc := rfl
@[simp] theorem State.modQueue_free (s : State) (n q : Nat) (f : Queue → Queue) : (s.modQueue n q f).free = s.free := rfl
@[simp] theorem State.modQueue_out (s : State) (n q : Nat) (f : Queue → Queue) : (s.modQueue n q f).out = s.out := rfl
@[simp] theorem State.modQueue_issued (s : State) (n q : Nat) (f : Queue → Queue) : (s.modQueue n q f).issued = s.issued := rfl
@[simp] theorem State.modQueue_lastThread (s : State) (n q : Nat) (f : Queue → Queue) : (s.modQueue n q f).lastThread = s.lastThread := rfl

@[simp] theorem State.modTrail_cur (s : State) (n : Nat) (f : Trail → Trail) : (s.modTrail n f).cur = s.cur := rfl
@[simp] theorem State.modTrail_agenda (s : State) (n : Nat) (f : Trail → Trail) : (s.modTrail n f).agenda = s.agenda := rfl
@[simp] theorem State.modTrail_inbox (s : State) (n : Nat) (f : Trail → Trail) : (s.modTrail n f).inbox = s.inbox := rfl
@[simp] theorem State.modTrail_cores (s : State) (n : Nat) (f : Trail → Trail) : (s.modTrail n f).cores = s.cores := rfl
@[simp] theorem State.modTrail_hbm (s : State) (n : Nat) (f : Trail → Trail) : (s.modTrail n f).hbm = s.hbm := rfl
@[simp] theorem State.modTrail_hbmT (s : State) (n : Nat) (f : Trail → Trail) : (s.modTrail n f).hbmT = s.hbmT := rfl
@[simp] theorem State.modTrail_hbmP (s : State) (n : Nat) (f : Trail → Trail) : (s.modTrail n f).hbmP = s.hbmP := rfl
@[simp] theorem State.modTrail_llcP (s : State) (n : Nat) (f : Trail → Trail) : (s.modTrail n f).llcP = s.llcP := rfl
@[simp] theorem State.modTrail_llc (s : State) (n : Nat) (f : Trail → Trail) : (s.modTrail n f).llc = s.llc := rfl
@[simp] theorem State.modTrail_remote (s : State) (n : Nat) (f : Trail → Trail) : (s.modTrail n f).remote = s.remote := rfl
@[simp] theorem State.modTrail_remoteT (s : State) (n : Nat) (f : Trail → Trail) : (s.modTrail n f).remoteT = s.remoteT := rfl
@[simp] theorem State.modTrail_guide (s : State) (n : Nat) (f : Trail → Trail) : (s.modTrail n f).guide = s.guide := rfl
@[simp] theorem State.modTrail_pcyc (s : State) (n : Nat) (f : Trail → Trail) : (s.modTrail n f).pcyc = s.pcyc := rfl
@[simp] theorem State.modTrail_free (s : State) (n : Nat) (f : Trail → Trail) : (s.modTrail n f).free = s.free := rfl
@[simp] theorem State.modTrail_out (s : State) (n : Nat) (f : Trail → Trail) : (s.modTrail n f).out = s.out := rfl
@[simp] theorem State.modTrail_issued (s : State) (n : Nat) (f : Trail → Trail) : (s.modTrail n f).issued = s.issued := rfl
@[simp] theorem State.modTrail_lastThread (s : State) (n : Nat) (f : Trail → Trail) : (s.modTrail n f).lastThread = s.lastThread := rfl

@[simp] theorem State.modInst_cur (s : State) (n h : Nat) (f : Inst → Inst) : (s.modInst n h f).cur = s.cur := rfl
@[simp] theorem State.modInst_agenda (s : State) (n h : Nat) (f : Inst → Inst) : (s.modInst n h f).agenda = s.agenda := rfl
@[simp] theorem State.modInst_inbox (s : State) (n h : Nat) (f : Inst → Inst) : (s.modInst n h f).inbox = s.inbox := rfl
@[simp] theorem State.modInst_cores (s : State) (n h : Nat) (f : Inst → Inst) : (s.modInst n h f).cores = s.cores := rfl
@[simp] theorem State.modInst_hbm (s : State) (n h : Nat) (f : Inst → Inst) : (s.modInst n h f).hbm = s.hbm := rfl
@[simp] theorem State.modInst_hbmT (s : State) (n h : Nat) (f : Inst → Inst) : (s.modInst n h f).hbmT = s.hbmT := rfl
@[simp] theorem State.modInst_hbmP (s : State) (n h : Nat) (f : Inst → Inst) : (s.modInst n h f).hbmP = s.hbmP := rfl
@[simp] theorem State.modInst_llcP (s : State) (n h : Nat) (f : Inst → Inst) : (s.modInst n h f).llcP = s.llcP := rfl
@[simp] theorem State.modInst_llc (s : State) (n h : Nat) (f : Inst → Inst) : (s.modInst n h f).llc = s.llc := rfl
@[simp] theorem State.modInst_remote (s : State) (n h : Nat) (f : Inst → Inst) : (s.modInst n h f).remote = s.remote := rfl
@[simp] theorem State.modInst_remoteT (s : State) (n h : Nat) (f : Inst → Inst) : (s.modInst n h f).remoteT = s.remoteT := rfl
@[simp] theorem State.modInst_guide (s : State) (n h : Nat) (f : Inst → Inst) : (s.modInst n h f).guide = s.guide := rfl
@[simp] theorem State.modInst_pcyc (s : State) (n h : Nat) (f : Inst → Inst) : (s.modInst n h f).pcyc = s.pcyc := rfl
@[simp] theorem State.modInst_free (s : State) (n h : Nat) (f : Inst → Inst) : (s.modInst n h f).free = s.free := rfl
@[simp] theorem State.modInst_out (s : State) (n h : Nat) (f : Inst → Inst) : (s.modInst n h f).out = s.out := rfl
@[simp] theorem State.modInst_issued (s : State) (n h : Nat) (f : Inst → Inst) : (s.modInst n h f).issued = s.issued := rfl
@[simp] theorem State.modInst_lastThread (s : State) (n h : Nat) (f : Inst → Inst) : (s.modInst n h f).lastThread = s.lastThread := rfl

@[simp] theorem State.modGroup_cur (s : State) (n h g : Nat) (f : Group → Group) : (s.modGroup n h g f).cur = s.cur := rfl
@[simp] theorem State.modGroup_agenda (s : State) (n h g : Nat) (f : Group → Group) : (s.modGroup n h g f).agenda = s.agenda := rfl
@[simp] theorem State.modGroup_inbox (s : State) (n h g : Nat) (f : Group → Group) : (s.modGroup n h g f).inbox = s.inbox := rfl
@[simp] theorem State.modGroup_cores (s : State) (n h g : Nat) (f : Group → Group) : (s.modGroup n h g f).cores = s.cores := rfl
@[simp] theorem State.modGroup_hbm (s : State) (n h g : Nat) (f : Group → Group) : (s.modGroup n h g f).hbm = s.hbm := rfl
@[simp] theorem State.modGroup_hbmT (s : State) (n h g : Nat) (f : Group → Group) : (s.modGroup n h g f).hbmT = s.hbmT := rfl
@[simp] theorem State.modGroup_hbmP (s : State) (n h g : Nat) (f : Group → Group) : (s.modGroup n h g f).hbmP = s.hbmP := rfl
@[simp] theorem State.modGroup_llcP (s : State) (n h g : Nat) (f : Group → Group) : (s.modGroup n h g f).llcP = s.llcP := rfl
@[simp] theorem State.modGroup_llc (s : State) (n h g : Nat) (f : Group → Group) : (s.modGroup n h g f).llc = s.llc := rfl
@[simp] theorem State.modGroup_remote (s : State) (n h g : Nat) (f : Group → Group) : (s.modGroup n h g f).remote = s.remote := rfl
@[simp] theorem State.modGroup_remoteT (s : State) (n h g : Nat) (f : Group → Group) : (s.modGroup n h g f).remoteT = s.remoteT := rfl
@[simp] theorem State.modGroup_guide (s : State) (n h g : Nat) (f : Group → Group) : (s.modGroup n h g f).guide = s.guide := rfl
@[simp] theorem State.modGroup_pcyc (s : State) (n h g : Nat) (f : Group → Group) : (s.modGroup n h g f).pcyc = s.pcyc := rfl
@[simp] theorem State.modGroup_free (s : State) (n h g : Nat) (f : Group → Group) : (s.modGroup n h g f).free = s.free := rfl
@[simp] theorem State.modGroup_out (s : State) (n h g : Nat) (f : Group → Group) : (s.modGroup n h g f).out = s.out := rfl
@[simp] theorem State.modGroup_issued (s : State) (n h g : Nat) (f : Group → Group) : (s.modGroup n h g f).issued = s.issued := rfl
@[simp] theorem State.modGroup_lastThread (s : State) (n h g : Nat) (f : Group → Group) : (s.modGroup n h g f).lastThread = s.lastThread := rfl

@[simp] theorem State.perf_cur (s : State) (n i k : Nat) : (s.perf n i k).cur = s.cur := rfl
@[simp] theorem State.perf_agenda (s : State) (n i k : Nat) : (s.perf n i k).agenda = s.agenda := rfl
@[simp] theorem State.perf_inbox (s : State) (n i k : Nat) : (s.perf n i k).inbox = s.inbox := rfl
@[simp] theorem State.perf_cores (s : State) (n i k : Nat) : (s.perf n i k).cores = s.cores := rfl
@[simp] theorem State.perf_hbm (s : State) (n i k : Nat) : (s.perf n i k).hbm = s.hbm := rfl
@[simp] theorem State.perf_hbmT (s : State) (n i k : Nat) : (s.perf n i k).hbmT = s.hbmT := rfl
@[simp] theorem State.perf_hbmP (s : State) (n i k : Nat) : (s.perf n i k).hbmP = s.hbmP := rfl
@[simp] theorem State.perf_llcP (s : State) (n i k : Nat) : (s.perf n i k).llcP = s.llcP := rfl
@[simp] theorem State.perf_llc (s : State) (n i k : Nat) : (s.perf n i k).llc = s.llc := rfl
@[simp] theorem State.perf_remote (s : State) (n i k : Nat) : (s.perf n i k).remote = s.remote := rfl
@[simp] theorem State.perf_remoteT (s : State) (n i k : Nat) : (s.perf n i k).remoteT = s.remoteT := rfl
@[simp] theorem State.perf_guide (s : State) (n i k : Nat) : (s.perf n i k).guide = s.guide := rfl
@[simp] theorem State.perf_pcyc (s : State) (n i k : Nat) : (s.perf n i k).pcyc = s.pcyc := rfl
@[simp] theorem State.perf_free (s : State) (n i k : Nat) : (s.perf n i k).free = s.free := rfl
@[simp] theorem State.perf_out (s : State) (n i k : Nat) : (s.perf n i k).out = s.out := rfl
@[simp] theorem State.perf_issued (s : State) (n i k : Nat) : (s.perf n i k).issued = s.issued := rfl
@[simp] theorem State.perf_lastThread (s : State) (n i k : Nat) : (s.perf n i k).lastThread = s.lastThread := rfl

@[simp] theorem Core.setStr_owner (c : Core) (e : Engine) (x : Stream) : (c.setStr e x).owner = c.owner := by cases e <;> rfl
@[simp] theorem Core.setStr_member (c : Core) (e : Engine) (x : Stream) : (c.setStr e x).member = c.member := by cases e <;> rfl
@[simp] theorem Core.setStr_job (c : Core) (e : Engine) (x : Stream) : (c.setStr e x).job = c.job := by cases e <;> rfl
@[simp] theorem Core.setStr_asking (c : Core) (e : Engine) (x : Stream) : (c.setStr e x).asking = c.asking := by cases e <;> rfl
@[simp] theorem Core.setStr_ended (c : Core) (e : Engine) (x : Stream) : (c.setStr e x).ended = c.ended := by cases e <;> rfl
@[simp] theorem Core.setStr_placed (c : Core) (e : Engine) (x : Stream) : (c.setStr e x).placed = c.placed := by cases e <;> rfl
@[simp] theorem Core.setStr_stop (c : Core) (e : Engine) (x : Stream) : (c.setStr e x).stop = c.stop := by cases e <;> rfl
@[simp] theorem Core.setStr_partw (c : Core) (e : Engine) (x : Stream) : (c.setStr e x).partw = c.partw := by cases e <;> rfl
@[simp] theorem Core.setStr_ncsr (c : Core) (e : Engine) (x : Stream) : (c.setStr e x).ncsr = c.ncsr := by cases e <;> rfl
@[simp] theorem Core.setStr_phst (c : Core) (e : Engine) (x : Stream) : (c.setStr e x).phst = c.phst := by cases e <;> rfl
@[simp] theorem Core.setStr_shape (c : Core) (e : Engine) (x : Stream) : (c.setStr e x).shape = c.shape := by cases e <;> rfl
@[simp] theorem Core.setStr_gres (c : Core) (e : Engine) (x : Stream) : (c.setStr e x).gres = c.gres := by cases e <;> rfl
@[simp] theorem Core.setStr_gval (c : Core) (e : Engine) (x : Stream) : (c.setStr e x).gval = c.gval := by cases e <;> rfl
@[simp] theorem Core.setStr_gpend (c : Core) (e : Engine) (x : Stream) : (c.setStr e x).gpend = c.gpend := by cases e <;> rfl
@[simp] theorem Core.setStr_chans (c : Core) (e : Engine) (x : Stream) : (c.setStr e x).chans = c.chans := by cases e <;> rfl
@[simp] theorem Core.setStr_sems (c : Core) (e : Engine) (x : Stream) : (c.setStr e x).sems = c.sems := by cases e <;> rfl
@[simp] theorem Core.setStr_tags (c : Core) (e : Engine) (x : Stream) : (c.setStr e x).tags = c.tags := by cases e <;> rfl
@[simp] theorem Core.setStr_dbw0 (c : Core) (e : Engine) (x : Stream) : (c.setStr e x).dbw0 = c.dbw0 := by cases e <;> rfl
@[simp] theorem Core.setStr_dbw1 (c : Core) (e : Engine) (x : Stream) : (c.setStr e x).dbw1 = c.dbw1 := by cases e <;> rfl
@[simp] theorem Core.setStr_pend (c : Core) (e : Engine) (x : Stream) : (c.setStr e x).pend = c.pend := by cases e <;> rfl
@[simp] theorem Core.setStr_seq (c : Core) (e : Engine) (x : Stream) : (c.setStr e x).seq = c.seq := by cases e <;> rfl
@[simp] theorem Core.setStr_strong (c : Core) (e : Engine) (x : Stream) : (c.setStr e x).strong = c.strong := by cases e <;> rfl
@[simp] theorem Core.setStr_pool (c : Core) (e : Engine) (x : Stream) : (c.setStr e x).pool = c.pool := by cases e <;> rfl
@[simp] theorem Core.setStr_poolT (c : Core) (e : Engine) (x : Stream) : (c.setStr e x).poolT = c.poolT := by cases e <;> rfl
@[simp] theorem Core.setStr_coef (c : Core) (e : Engine) (x : Stream) : (c.setStr e x).coef = c.coef := by cases e <;> rfl
@[simp] theorem Core.setStr_coefLost (c : Core) (e : Engine) (x : Stream) : (c.setStr e x).coefLost = c.coefLost := by cases e <;> rfl
@[simp] theorem Core.setStr_vp (c : Core) (e : Engine) (x : Stream) : (c.setStr e x).vp = c.vp := by cases e <;> rfl
@[simp] theorem Core.setStr_vpT (c : Core) (e : Engine) (x : Stream) : (c.setStr e x).vpT = c.vpT := by cases e <;> rfl
@[simp] theorem Core.setStr_dirs (c : Core) (e : Engine) (x : Stream) : (c.setStr e x).dirs = c.dirs := by cases e <;> rfl
@[simp] theorem Core.setStr_dirT (c : Core) (e : Engine) (x : Stream) : (c.setStr e x).dirT = c.dirT := by cases e <;> rfl
@[simp] theorem Core.setStr_norms (c : Core) (e : Engine) (x : Stream) : (c.setStr e x).norms = c.norms := by cases e <;> rfl
@[simp] theorem Core.setStr_normT (c : Core) (e : Engine) (x : Stream) : (c.setStr e x).normT = c.normT := by cases e <;> rfl
@[simp] theorem Core.setStr_m (c : Core) (e : Engine) (x : Stream) : (c.setStr e x).m = c.m := by cases e <;> rfl
@[simp] theorem Core.setStr_copies (c : Core) (e : Engine) (x : Stream) : (c.setStr e x).copies = c.copies := by cases e <;> rfl
@[simp] theorem Core.setStr_psb (c : Core) (e : Engine) (x : Stream) : (c.setStr e x).psb = c.psb := by cases e <;> rfl
@[simp] theorem Core.setStr_psbFull (c : Core) (e : Engine) (x : Stream) : (c.setStr e x).psbFull = c.psbFull := by cases e <;> rfl
@[simp] theorem Core.setStr_snap (c : Core) (e : Engine) (x : Stream) : (c.setStr e x).snap = c.snap := by cases e <;> rfl
@[simp] theorem Core.setStr_epend (c : Core) (e : Engine) (x : Stream) : (c.setStr e x).epend = c.epend := by cases e <;> rfl
@[simp] theorem Core.setStr_aredN (c : Core) (e : Engine) (x : Stream) : (c.setStr e x).aredN = c.aredN := by cases e <;> rfl
@[simp] theorem Core.setStr_collN (c : Core) (e : Engine) (x : Stream) : (c.setStr e x).collN = c.collN := by cases e <;> rfl
@[simp] theorem Core.setStr_rp (c : Core) (e : Engine) (x : Stream) : (c.setStr e x).rp = c.rp := by cases e <;> rfl
@[simp] theorem Core.setStr_refetch (c : Core) (e : Engine) (x : Stream) : (c.setStr e x).refetch = c.refetch := by cases e <;> rfl
@[simp] theorem Core.setStr_doneCopies (c : Core) (e : Engine) (x : Stream) : (c.setStr e x).doneCopies = c.doneCopies := by cases e <;> rfl
@[simp] theorem Core.setStr_rb (c : Core) (e : Engine) (x : Stream) : (c.setStr e x).rb = c.rb := by cases e <;> rfl
@[simp] theorem Core.setStr_rbDone (c : Core) (e : Engine) (x : Stream) : (c.setStr e x).rbDone = c.rbDone := by cases e <;> rfl
@[simp] theorem Core.setStr_loading (c : Core) (e : Engine) (x : Stream) : (c.setStr e x).loading = c.loading := by cases e <;> rfl
@[simp] theorem Core.setStr_retrans (c : Core) (e : Engine) (x : Stream) : (c.setStr e x).retrans = c.retrans := by cases e <;> rfl
@[simp] theorem Core.setStr_refetching (c : Core) (e : Engine) (x : Stream) : (c.setStr e x).refetching = c.refetching := by cases e <;> rfl
@[simp] theorem Core.setStr_lateErr (c : Core) (e : Engine) (x : Stream) : (c.setStr e x).lateErr = c.lateErr := by cases e <;> rfl
@[simp] theorem Core.setStr_stopClass (c : Core) (e : Engine) (x : Stream) : (c.setStr e x).stopClass = c.stopClass := by cases e <;> rfl

@[simp] theorem Core.addPend_owner (c : Core) (d : Nat) (l : Bool) (t : PendTarget) : (c.addPend d l t).owner = c.owner := rfl
@[simp] theorem Core.addPend_member (c : Core) (d : Nat) (l : Bool) (t : PendTarget) : (c.addPend d l t).member = c.member := rfl
@[simp] theorem Core.addPend_job (c : Core) (d : Nat) (l : Bool) (t : PendTarget) : (c.addPend d l t).job = c.job := rfl
@[simp] theorem Core.addPend_asking (c : Core) (d : Nat) (l : Bool) (t : PendTarget) : (c.addPend d l t).asking = c.asking := rfl
@[simp] theorem Core.addPend_ended (c : Core) (d : Nat) (l : Bool) (t : PendTarget) : (c.addPend d l t).ended = c.ended := rfl
@[simp] theorem Core.addPend_placed (c : Core) (d : Nat) (l : Bool) (t : PendTarget) : (c.addPend d l t).placed = c.placed := rfl
@[simp] theorem Core.addPend_stop (c : Core) (d : Nat) (l : Bool) (t : PendTarget) : (c.addPend d l t).stop = c.stop := rfl
@[simp] theorem Core.addPend_partw (c : Core) (d : Nat) (l : Bool) (t : PendTarget) : (c.addPend d l t).partw = c.partw := rfl
@[simp] theorem Core.addPend_strS (c : Core) (d : Nat) (l : Bool) (t : PendTarget) : (c.addPend d l t).strS = c.strS := rfl
@[simp] theorem Core.addPend_strV (c : Core) (d : Nat) (l : Bool) (t : PendTarget) : (c.addPend d l t).strV = c.strV := rfl
@[simp] theorem Core.addPend_strM (c : Core) (d : Nat) (l : Bool) (t : PendTarget) : (c.addPend d l t).strM = c.strM := rfl
@[simp] theorem Core.addPend_strX (c : Core) (d : Nat) (l : Bool) (t : PendTarget) : (c.addPend d l t).strX = c.strX := rfl
@[simp] theorem Core.addPend_ncsr (c : Core) (d : Nat) (l : Bool) (t : PendTarget) : (c.addPend d l t).ncsr = c.ncsr := rfl
@[simp] theorem Core.addPend_phst (c : Core) (d : Nat) (l : Bool) (t : PendTarget) : (c.addPend d l t).phst = c.phst := rfl
@[simp] theorem Core.addPend_shape (c : Core) (d : Nat) (l : Bool) (t : PendTarget) : (c.addPend d l t).shape = c.shape := rfl
@[simp] theorem Core.addPend_gres (c : Core) (d : Nat) (l : Bool) (t : PendTarget) : (c.addPend d l t).gres = c.gres := rfl
@[simp] theorem Core.addPend_gval (c : Core) (d : Nat) (l : Bool) (t : PendTarget) : (c.addPend d l t).gval = c.gval := rfl
@[simp] theorem Core.addPend_gpend (c : Core) (d : Nat) (l : Bool) (t : PendTarget) : (c.addPend d l t).gpend = c.gpend := rfl
@[simp] theorem Core.addPend_chans (c : Core) (d : Nat) (l : Bool) (t : PendTarget) : (c.addPend d l t).chans = c.chans := rfl
@[simp] theorem Core.addPend_sems (c : Core) (d : Nat) (l : Bool) (t : PendTarget) : (c.addPend d l t).sems = c.sems := rfl
@[simp] theorem Core.addPend_tags (c : Core) (d : Nat) (l : Bool) (t : PendTarget) : (c.addPend d l t).tags = c.tags := rfl
@[simp] theorem Core.addPend_dbw0 (c : Core) (d : Nat) (l : Bool) (t : PendTarget) : (c.addPend d l t).dbw0 = c.dbw0 := rfl
@[simp] theorem Core.addPend_dbw1 (c : Core) (d : Nat) (l : Bool) (t : PendTarget) : (c.addPend d l t).dbw1 = c.dbw1 := rfl
@[simp] theorem Core.addPend_strong (c : Core) (d : Nat) (l : Bool) (t : PendTarget) : (c.addPend d l t).strong = c.strong := rfl
@[simp] theorem Core.addPend_pool (c : Core) (d : Nat) (l : Bool) (t : PendTarget) : (c.addPend d l t).pool = c.pool := rfl
@[simp] theorem Core.addPend_poolT (c : Core) (d : Nat) (l : Bool) (t : PendTarget) : (c.addPend d l t).poolT = c.poolT := rfl
@[simp] theorem Core.addPend_coef (c : Core) (d : Nat) (l : Bool) (t : PendTarget) : (c.addPend d l t).coef = c.coef := rfl
@[simp] theorem Core.addPend_coefLost (c : Core) (d : Nat) (l : Bool) (t : PendTarget) : (c.addPend d l t).coefLost = c.coefLost := rfl
@[simp] theorem Core.addPend_vp (c : Core) (d : Nat) (l : Bool) (t : PendTarget) : (c.addPend d l t).vp = c.vp := rfl
@[simp] theorem Core.addPend_vpT (c : Core) (d : Nat) (l : Bool) (t : PendTarget) : (c.addPend d l t).vpT = c.vpT := rfl
@[simp] theorem Core.addPend_dirs (c : Core) (d : Nat) (l : Bool) (t : PendTarget) : (c.addPend d l t).dirs = c.dirs := rfl
@[simp] theorem Core.addPend_dirT (c : Core) (d : Nat) (l : Bool) (t : PendTarget) : (c.addPend d l t).dirT = c.dirT := rfl
@[simp] theorem Core.addPend_norms (c : Core) (d : Nat) (l : Bool) (t : PendTarget) : (c.addPend d l t).norms = c.norms := rfl
@[simp] theorem Core.addPend_normT (c : Core) (d : Nat) (l : Bool) (t : PendTarget) : (c.addPend d l t).normT = c.normT := rfl
@[simp] theorem Core.addPend_m (c : Core) (d : Nat) (l : Bool) (t : PendTarget) : (c.addPend d l t).m = c.m := rfl
@[simp] theorem Core.addPend_copies (c : Core) (d : Nat) (l : Bool) (t : PendTarget) : (c.addPend d l t).copies = c.copies := rfl
@[simp] theorem Core.addPend_psb (c : Core) (d : Nat) (l : Bool) (t : PendTarget) : (c.addPend d l t).psb = c.psb := rfl
@[simp] theorem Core.addPend_psbFull (c : Core) (d : Nat) (l : Bool) (t : PendTarget) : (c.addPend d l t).psbFull = c.psbFull := rfl
@[simp] theorem Core.addPend_snap (c : Core) (d : Nat) (l : Bool) (t : PendTarget) : (c.addPend d l t).snap = c.snap := rfl
@[simp] theorem Core.addPend_epend (c : Core) (d : Nat) (l : Bool) (t : PendTarget) : (c.addPend d l t).epend = c.epend := rfl
@[simp] theorem Core.addPend_aredN (c : Core) (d : Nat) (l : Bool) (t : PendTarget) : (c.addPend d l t).aredN = c.aredN := rfl
@[simp] theorem Core.addPend_collN (c : Core) (d : Nat) (l : Bool) (t : PendTarget) : (c.addPend d l t).collN = c.collN := rfl
@[simp] theorem Core.addPend_rp (c : Core) (d : Nat) (l : Bool) (t : PendTarget) : (c.addPend d l t).rp = c.rp := rfl
@[simp] theorem Core.addPend_refetch (c : Core) (d : Nat) (l : Bool) (t : PendTarget) : (c.addPend d l t).refetch = c.refetch := rfl
@[simp] theorem Core.addPend_doneCopies (c : Core) (d : Nat) (l : Bool) (t : PendTarget) : (c.addPend d l t).doneCopies = c.doneCopies := rfl
@[simp] theorem Core.addPend_rb (c : Core) (d : Nat) (l : Bool) (t : PendTarget) : (c.addPend d l t).rb = c.rb := rfl
@[simp] theorem Core.addPend_rbDone (c : Core) (d : Nat) (l : Bool) (t : PendTarget) : (c.addPend d l t).rbDone = c.rbDone := rfl
@[simp] theorem Core.addPend_loading (c : Core) (d : Nat) (l : Bool) (t : PendTarget) : (c.addPend d l t).loading = c.loading := rfl
@[simp] theorem Core.addPend_retrans (c : Core) (d : Nat) (l : Bool) (t : PendTarget) : (c.addPend d l t).retrans = c.retrans := rfl
@[simp] theorem Core.addPend_refetching (c : Core) (d : Nat) (l : Bool) (t : PendTarget) : (c.addPend d l t).refetching = c.refetching := rfl
@[simp] theorem Core.addPend_lateErr (c : Core) (d : Nat) (l : Bool) (t : PendTarget) : (c.addPend d l t).lateErr = c.lateErr := rfl
@[simp] theorem Core.addPend_stopClass (c : Core) (d : Nat) (l : Bool) (t : PendTarget) : (c.addPend d l t).stopClass = c.stopClass := rfl

end Sys2Proof.Machine
end

