-- ==== Sys2Proof/Laws/Ops.lean ====
section
/-! SUPPORT. Reading back what the named operations of the state have written. -/
namespace Sys2Proof.Machine

/-! Cores. -/

theorem State.core_setCore (s : State) (n m : Nat) (c : Core) : (s.setCore n c).core m = if m = n then c else s.core m := by
  simp only [State.core, State.setCore]
  split
  · subst_vars
    simp
  · rw [aget?_aset_ne _ _ _ _ ‹_›]
@[simp] theorem State.core_setCore_same (s : State) (n : Nat) (c : Core) : (s.setCore n c).core n = c := by simp [State.core_setCore]
theorem State.core_modCore (s : State) (n m : Nat) (f : Core → Core) : (s.modCore n f).core m = if m = n then f (s.core m) else s.core m := by
  simp only [State.modCore, State.core_setCore]
  split
  · subst_vars
    rfl
  · rfl
@[simp] theorem State.core_modCore_same (s : State) (n : Nat) (f : Core → Core) : (s.modCore n f).core n = f (s.core n) := by
  simp [State.core_modCore]
@[simp] theorem State.ctx_setCore (s : State) (n m : Nat) (c : Core) : (s.setCore n c).ctx m = s.ctx m := rfl
@[simp] theorem State.ctx_modCore (s : State) (n m : Nat) (f : Core → Core) : (s.modCore n f).ctx m = s.ctx m := rfl
@[simp] theorem State.setCore_setCore (s : State) (n : Nat) (c d : Core) : (s.setCore n c).setCore n d = s.setCore n d := by
  simp [State.setCore]
@[simp] theorem State.modCore_setCore (s : State) (n : Nat) (c : Core) (f : Core → Core) : (s.setCore n c).modCore n f = s.setCore n (f c) := by
  simp [State.modCore]
theorem State.modCore_modCore (s : State) (n : Nat) (f g : Core → Core) : (s.modCore n f).modCore n g = s.modCore n fun c => g (f c) := by
  simp [State.modCore]

@[simp] theorem Core.str_setStr (c : Core) (e : Engine) (x : Stream) : (c.setStr e x).str e = x := by cases e <;> rfl
theorem Core.str_setStr_ne (c : Core) (e f : Engine) (x : Stream) (h : f ≠ e) : (c.setStr e x).str f = c.str f := by
  cases e <;> cases f <;> first | rfl | exact absurd rfl h
@[simp] theorem Core.setStr_setStr (c : Core) (e : Engine) (x y : Stream) : (c.setStr e x).setStr e y = c.setStr e y := by cases e <;> rfl
@[simp] theorem Core.addPend_str (c : Core) (d : Nat) (l : Bool) (t : PendTarget) (e : Engine) : (c.addPend d l t).str e = c.str e := by
  cases e <;> rfl

@[simp] theorem State.inst?_modCore (s : State) (n c h : Nat) (f : Core → Core) : (s.modCore n f).inst? c h = s.inst? c h := rfl
@[simp] theorem State.group?_modCore (s : State) (n c h g : Nat) (f : Core → Core) : (s.modCore n f).group? c h g = s.group? c h g := rfl
/-- A change of a core that keeps its membership. -/
theorem State.member_modCore (s : State) (n m : Nat) (f : Core → Core) (h : (f (s.core n)).member = (s.core n).member) :
    ((s.modCore n f).core m).member = (s.core m).member := by
  simp only [State.core_modCore]
  split
  · subst_vars
    exact h
  · rfl
theorem State.groupOf_modCore (s : State) (n m : Nat) (f : Core → Core) (h : (f (s.core n)).member = (s.core n).member) :
    (s.modCore n f).groupOf m = s.groupOf m := by
  simp only [State.groupOf, State.member_modCore s n m f h, State.group?_modCore]
/-- The virtual cycle of a core hangs on its group alone. -/
theorem State.now_modCore (s : State) (n m : Nat) (f : Core → Core) (h : (f (s.core n)).member = (s.core n).member) :
    (s.modCore n f).now m = s.now m := by
  simp only [State.now, State.groupOf_modCore s n m f h]
@[simp] theorem State.now_addPend (s : State) (n m l : Nat) (b : Bool) (t : PendTarget) : (s.addPend n l b t).now m = s.now m :=
  State.now_modCore s n m _ rfl
theorem State.cxnOf_modCore (s : State) (n : Nat) (f : Core → Core) (ag : Agent) (h : (f (s.core n)).member = (s.core n).member) :
    (s.modCore n f).cxnOf ag = s.cxnOf ag := by
  cases ag with
  | job m e =>
    simp only [State.cxnOf, State.member_modCore s n m f h]
  | thread c q => rfl

/-! Contexts and queues. -/

theorem State.ctx_setCtx (s : State) (n m : Nat) (c : Ctx) : (s.setCtx n c).ctx m = if n = m ∧ m < 32 then c else s.ctx m := by
  simp only [State.ctx, State.setCtx, vget_setIfInBounds]
@[simp] theorem State.core_setCtx (s : State) (n m : Nat) (c : Ctx) : (s.setCtx n c).core m = s.core m := rfl
@[simp] theorem State.core_modCtx (s : State) (n m : Nat) (f : Ctx → Ctx) : (s.modCtx n f).core m = s.core m := rfl
theorem State.ctx_modCtx (s : State) (n m : Nat) (f : Ctx → Ctx) : (s.modCtx n f).ctx m = if n = m ∧ m < 32 then f (s.ctx m) else s.ctx m := by
  simp only [State.modCtx, State.ctx_setCtx]
  split
  · rename_i h
    rw [h.1]
  · rfl
theorem Ctx.queue_setQueue (c : Ctx) (q r : Nat) (x : Queue) : (c.setQueue q x).queue r = if q = r ∧ r < 16 then x else c.queue r := by
  simp only [Ctx.queue, Ctx.setQueue, vget_setIfInBounds]

/-! Registers. -/

@[simp] theorem Stream.rs?_zero (x : Stream) : x.rs? 0 = 0 := rfl
@[simp] theorem Stream.ws_zero (x : Stream) (v : W64) (t : Bool) : x.ws 0 v t = x := rfl
theorem Stream.rs?_ws (x : Stream) (r k : Nat) (v : W64) (t : Bool) (hr : 0 < r) (hk : r < 64) :
    (x.ws r v t).rs? k = if k = r then v else x.rs? k := by
  have h0 : r ≠ 0 := by omega
  by_cases hk0 : k = 0
  · subst hk0
    simp [Stream.rs?, Ne.symm h0]
  · by_cases e : k = r
    · subst e
      simp [Stream.rs?, Stream.ws, h0, vget_setIfInBounds, hk]
    · simp [Stream.rs?, Stream.ws, h0, vget_setIfInBounds, hk0, e, Ne.symm e]

end Sys2Proof.Machine
end

