-- ==== Sys2Proof/Safety.lean ====
section
/-! DEFINITION. The terms claims are stated in: what an instruction that issued leaves changed, the canonical form of memory, and the
states no run leaves. -/
namespace Sys2Proof.Machine

/-! An instruction that issued. -/

/-- A core whose stream has gone past an instruction of `len` bytes at cycle `now`, free to issue k cycles later. -/
def Core.past (c : Core) (e : Engine) (now len k : Nat) : Core :=
  c.setStr e { (c.str e).advance len with nextIssue := now + k, hold := .none }
/-- All that a job's instruction changes: its core, by f and past the instruction, and the note that its context issued. -/
def State.jobDid (s : State) (n : Nat) (e : Engine) (len k : Nat) (f : Core → Core) : State :=
  { s.setCore n ((f (s.core n)).past e (s.now n) len k) with issued := s.issued.add (s.cxnOf (.job n e)) }
/-- All that a job's instruction of one register result changes: one more pending write, due at its latency (R129). -/
def State.jobPut (s : State) (n : Nat) (e : Engine) (t : PendTarget) (lat : Nat) : State :=
  s.jobDid n e 4 1 (·.addPend (s.now n + lat) false t)
/-- A queue past an instruction of its thread. -/
def Queue.past (k : Queue) (len : Nat) : Queue := { k with thread := k.thread.advance len, icount := (k.icount + 1) % 2 ^ 32 }
/-- All that a thread's instruction changes: its queue, by f and past the instruction. -/
def State.threadDid (s : State) (cxn q len : Nat) (f : Queue → Queue) : State :=
  { s.modQueue cxn q fun k => (f k).past len with threadIssued := s.threadIssued.add cxn }
/-- A queue whose thread's registers change by f (R131). -/
def Queue.onThread (f : Stream → Stream) (k : Queue) : Queue := { k with thread := f k.thread }
/-- A guard lets its word execute (R101). -/
def Core.guardOpen (c : Core) (g : Guard) : Prop :=
  g = 0 ∨ g = 16 ∨ (c.gres.getLsbD (g.toNat % 16) = true ∧ c.gval.getLsbD (g.toNat % 16) = decide (16 ≤ g.toNat))
/-- A guard whose slot is resolved otherwise (R101). -/
def Core.guardShut (c : Core) (g : Guard) : Prop :=
  g ≠ 0 ∧ g ≠ 16 ∧ c.gres.getLsbD (g.toNat % 16) = true ∧ c.gval.getLsbD (g.toNat % 16) ≠ decide (16 ≤ g.toNat)

/-- A word with a guard (R101): its guard and its bytes; none for an instruction of the shared tables, and for an event. -/
def guardedWord : Instr → Option (Guard × Nat)
  | .atadd g _ _ _ _ => some (g, 4)
  | .atand g _ _ _ _ => some (g, 4)
  | .ator g _ _ _ _ => some (g, 4)
  | .atxor g _ _ _ _ => some (g, 4)
  | .atmin g _ _ _ _ => some (g, 4)
  | .atmax g _ _ _ _ => some (g, 4)
  | .atminu g _ _ _ _ => some (g, 4)
  | .atmaxu g _ _ _ _ => some (g, 4)
  | .atswp g _ _ _ _ => some (g, 4)
  | .atcas g _ _ _ _ => some (g, 4)
  | .atcas16 g _ _ _ => some (g, 4)
  | .atfadd g _ _ _ => some (g, 4)
  | .aredOrd g _ _ => some (g, 4)
  | .ldS g _ _ _ _ => some (g, 4)
  | .stS g _ _ _ => some (g, 4)
  | .bar g => some (g, 4)
  | .kbar g => some (g, 4)
  | .launch g _ _ _ => some (g, 4)
  | .kwait g _ _ => some (g, 4)
  | .kstat g _ _ => some (g, 4)
  | .qrd g _ _ => some (g, 4)
  | .qwr g _ _ => some (g, 4)
  | .cxrd g _ _ => some (g, 4)
  | .cxwr g _ _ => some (g, 4)
  | .trrd g _ _ => some (g, 4)
  | .trwr g _ _ => some (g, 4)
  | .pcrd g _ _ => some (g, 4)
  | .eclr g _ _ => some (g, 4)
  | .npbeg g _ => some (g, 4)
  | .npend g => some (g, 4)
  | .qsig g _ => some (g, 4)
  | .vadd g _ _ _ _ => some (g, 4)
  | .vsub g _ _ _ _ => some (g, 4)
  | .vmul g _ _ _ _ => some (g, 4)
  | .vfma g _ _ _ _ => some (g, 4)
  | .vfms g _ _ _ _ => some (g, 4)
  | .vmin g _ _ _ _ => some (g, 4)
  | .vmax g _ _ _ _ => some (g, 4)
  | .vabs g _ _ _ => some (g, 4)
  | .vneg g _ _ _ => some (g, 4)
  | .vand g _ _ _ _ => some (g, 4)
  | .vor g _ _ _ _ => some (g, 4)
  | .vxor g _ _ _ _ => some (g, 4)
  | .vshl g _ _ _ _ => some (g, 4)
  | .vshr g _ _ _ _ => some (g, 4)
  | .vsra g _ _ _ _ => some (g, 4)
  | .vmulh g _ _ _ _ => some (g, 4)
  | .vadds g _ _ _ _ => some (g, 4)
  | .vsubs g _ _ _ _ => some (g, 4)
  | .vexp2 g _ _ _ => some (g, 4)
  | .vlog2 g _ _ _ => some (g, 4)
  | .vrcp g _ _ _ => some (g, 4)
  | .vrsq g _ _ _ => some (g, 4)
  | .vsinpi g _ _ _ => some (g, 4)
  | .vcospi g _ _ _ => some (g, 4)
  | .vtanh g _ _ _ => some (g, 4)
  | .vcmp g _ _ _ _ _ _ => some (g, 4)
  | .vsel g _ _ _ _ => some (g, 4)
  | .vpand g _ _ _ _ => some (g, 4)
  | .vpor g _ _ _ _ => some (g, 4)
  | .vpxor g _ _ _ _ => some (g, 4)
  | .vany g _ _ _ => some (g, 4)
  | .vall g _ _ _ => some (g, 4)
  | .vcvt g _ _ _ _ => some (g, 4)
  | .vcvts g _ _ _ _ => some (g, 4)
  | .vquant g _ _ _ _ => some (g, 4)
  | .vrsum g _ _ _ => some (g, 4)
  | .vcsum g _ _ _ => some (g, 4)
  | .vrmax g _ _ _ => some (g, 4)
  | .vcmax g _ _ _ => some (g, 4)
  | .vrmin g _ _ _ => some (g, 4)
  | .vcmin g _ _ _ => some (g, 4)
  | .vperm g _ _ _ _ => some (g, 4)
  | .vbcr g _ _ _ _ => some (g, 4)
  | .vbcc g _ _ _ _ => some (g, 4)
  | .vtrn g _ _ _ => some (g, 4)
  | .vmov g _ _ _ => some (g, 4)
  | .vbcs g _ _ => some (g, 4)
  | .vld g _ _ => some (g, 4)
  | .vst g _ _ _ => some (g, 4)
  | .vldm g _ _ => some (g, 4)
  | .vstm g _ _ _ => some (g, 4)
  | .vgath g _ _ _ _ => some (g, 4)
  | .vscat g _ _ _ _ => some (g, 4)
  | .vrand g _ _ _ => some (g, 4)
  | .vbucket g _ _ _ _ => some (g, 4)
  | .ecnt g _ _ => some (g, 4)
  | .vshape g _ => some (g, 4)
  | .dnorm g _ _ _ => some (g, 4)
  | .dexp g _ _ _ => some (g, 4)
  | .ddot g _ _ _ _ => some (g, 4)
  | .ddotm g _ _ _ => some (g, 4)
  | .dscale g _ _ _ => some (g, 4)
  | .dadd g _ _ _ => some (g, 4)
  | .dsub g _ _ _ => some (g, 4)
  | .dneg g _ _ => some (g, 4)
  | .dmovn g _ _ => some (g, 4)
  | .dsetn g _ _ => some (g, 4)
  | .dtest g _ _ => some (g, 4)
  | .vpmov g _ _ _ => some (g, 4)
  | .mlda g _ _ => some (g, 4)
  | .mldb g _ _ => some (g, 4)
  | .mldas g _ => some (g, 4)
  | .mldbs g _ => some (g, 4)
  | .mma g _ _ _ _ _ _ _ _ => some (g, 8)
  | .mzero g => some (g, 4)
  | .mshift g _ _ => some (g, 4)
  | .mwaitf g => some (g, 4)
  | .mspill g _ => some (g, 4)
  | .mfill g _ => some (g, 4)
  | .mcfg g _ => some (g, 4)
  | .mstat g _ => some (g, 4)
  | .xcopy g _ _ _ _ _ _ _ _ => some (g, 8)
  | .xfill g _ _ _ _ _ _ _ _ => some (g, 8)
  | .xdrain g _ _ _ _ _ _ _ _ => some (g, 8)
  | .xgath g _ _ _ => some (g, 4)
  | .xscat g _ _ _ => some (g, 4)
  | .xallred g _ _ _ _ _ _ _ => some (g, 8)
  | .xallgath g _ _ _ _ _ _ _ => some (g, 8)
  | .xredscat g _ _ _ _ _ _ _ => some (g, 8)
  | .xall2all g _ _ _ _ _ _ _ => some (g, 8)
  | .xfetch g _ _ _ _ _ => some (g, 8)
  | .xfetchTry g _ _ _ _ _ => some (g, 8)
  | .xpref g _ _ => some (g, 4)
  | .xtclr g _ => some (g, 4)
  | .xtst g _ _ => some (g, 4)
  | _ => none

/-! Vector words. -/

/-- A V word's conditions hold, its source slots are available and its destination has a free slot (R102 to R105, R127). -/
def Core.vReady (c : Core) (v : VSpec) (peek : BitVec 1) : Prop := lowest (v.allConds c) = 0 ∧ v.ready c (peek == 1) = true
/-- A V word that issued: its sources are consumed, `put` makes its result of their values, counter 3 counts it, and its stream goes past
it for its interval (R104, R179, Table 10-11). -/
def State.vDid (s : State) (n : Nat) (e : Engine) (peek : BitVec 1) (v : VSpec) (put : State → List VVal → State) : State :=
  ((put (if peek = 1 then s else s.setCore n ((s.core n).consume v.srcs)) (v.sources.map (s.core n).source)).perf (s.cxnOf (.job n e)) 3 1).finish
    (.job n e) 4 v.interval

/-! Accesses that raise no cause. -/

/-- An access of n bytes translates into pieces, whose links are up and whose owners let it in (R397, R405, R435). -/
def State.accessOk (s : State) (ag : Agent) (va n : Nat) (k : Access) (ps : List (Nat × Nat × Phys × Bool)) : Prop :=
  s.transRange (s.cxnOf ag) (s.genOf ag) va n k = .ok ps ∧
    (k.acc = 0 → ∀ x ∈ ps, s.linked x.2.2.1 = true) ∧ (lateRefusal k = false → ∀ x ∈ ps, s.refused (s.cxnOf ag) x.2.2.1 k.w k.r = false)
/-- A strong access of the current agent meets no cause (R76, R80, R88, R337, R367): it is one piece, at a place. -/
def State.strongOk (s : State) (va n : Nat) (k : Access) (host tainted : Bool) (a : Nat) (p : Phys) (det : Bool) : Prop :=
  (∃ len rest, s.accessOk s.cur va n k ((a, len, p, det) :: rest)) ∧
    (lateRefusal k = true → s.refused (s.cxnOf s.cur) p k.w k.r = false) ∧ (∀ h, p = .host h → host = true) ∧ p.isView = false ∧ va % n = 0 ∧
    s.mixClash (s.cxnOf s.cur) n p = false ∧ s.taintStop s.cur det tainted = false

/-! Copies. -/

/-- A copy that has issued: in flight under its tag with its form and due cycle, its stream past the instruction and free two cycles or
one later; no byte of memory has changed (R251 to R254). -/
def State.copyIssued (s t : State) (n : Nat) (e : Engine) (tag : Nat) (form : CopyForm) (lat len k : Nat) : Prop :=
  (∃ x, (t.core n).copy? tag = some x ∧ x.form = form ∧ x.issue = s.now n ∧ x.due = s.now n + lat) ∧ ((t.core n).tag tag).infl = true ∧
    ((t.core n).str e).pc = (((s.core n).str e).advance len).pc ∧ ((t.core n).str e).nextIssue = s.now n + k ∧
    (t.core n).stop = (s.core n).stop ∧ t.hbm = s.hbm ∧ ∀ m, m ≠ n → t.core m = s.core m
/-- A footprint whose translation found nothing wrong (R251). -/
def Foot.fine (f : Foot) : Prop := f.park = none ∧ f.bad = none

/-! A trap that a job takes. -/

/-- The job on a core stands stopped by a cause at its stream's instruction, before the handler has it (R168). -/
def Core.stoppedBy (c : Core) (e : Engine) (cause faddr now : Nat) : Prop :=
  c.stop = some { cause := cause, strm := e, faddr := faddr, held := false, parked := false, cycle := now }

/-- A step of a job that takes a cause and has no other effect: the core stands stopped, the group's pause is noted, and nothing else
changes (R168). -/
def State.trapsTo (s t : State) (n : Nat) (e : Engine) (cause faddr : Nat) : Prop :=
  t.core n = { s.core n with stop := some { cause := cause, strm := e, faddr := faddr, held := false, parked := false, cycle := s.now n } } ∧
    (∀ m, m ≠ n → t.core m = s.core m) ∧ (∀ c, t.ctx c = { s.ctx c with insts := (t.ctx c).insts }) ∧
    t = { s with cores := t.cores, ctxs := t.ctxs }

/-- A taken transfer of a job: past it, with the redirect two delay slots away (R137). -/
def State.jumped (s : State) (n : Nat) (e : Engine) (target : W64) : State :=
  (s.jobDid n e 4 1 id).modCore n fun c => c.setStr e { c.str e with redirect := some (target, 2) }

/-! Commands. -/

/-- The Guide runs, and no command is under way (R456, R457). -/
def State.idleGuide (s : State) : Prop := s.guide.rdy = true ∧ s.guide.waitInv = none
/-- A command has ended: BUSY is clear, with RESULT and REASON (R456). -/
def State.ended (t : State) (result reason : Nat) : Prop :=
  t.guide.busy = false ∧ t.guide.result = BitVec.ofNat 4 result ∧ t.guide.reason = BitVec.ofNat 32 reason ∧ t.guide.waitInv = none
/-- Only what the Guide holds and the messages it sends may differ. -/
def State.guideOnly (s t : State) : Prop := t = { s with guide := t.guide, out := t.out }

/-! Invariants. -/

/-- Local HBM stands in the canonical form of memory: addresses strictly rising, no byte equal to what an unlisted one reads as. -/
def State.memWf (s : State) : Prop := s.hbm.wf = true

end Sys2Proof.Machine
end

