-- ==== Sys2Proof/Laws/Issue.lean ====
section
/-! SUPPORT. What each shared operation of an issuing instruction comes to, in the terms of Safety.lean. -/
namespace Sys2Proof.Machine

@[simp] theorem State.core_issued (s : State) (x : NSet) (n : Nat) : ({ s with issued := x } : State).core n = s.core n := rfl

/-- Going past an instruction, by a job. -/
theorem State.finish_job (s : State) (n : Nat) (e : Engine) (len k : Nat) : s.finish (.job n e) len k = s.jobDid n e len k id := by
  simp only [State.finish, State.jobDid, State.modStream, State.setStream, State.stream, State.modCore, Core.past, id]
/-- Going past an instruction after a change of the core that keeps its membership. -/
theorem State.finish_modCore (s : State) (n : Nat) (e : Engine) (len k : Nat) (f : Core → Core)
    (h : (f (s.core n)).member = (s.core n).member) : (s.modCore n f).finish (.job n e) len k = s.jobDid n e len k f := by
  rw [State.finish_job]
  simp only [State.jobDid, State.now_modCore s n n f h, State.cxnOf_modCore s n f _ h, id, State.core_modCore_same]
  simp only [State.modCore, State.setCore, aset_aset, State.core]
/-- A pending write and going past, by a job. -/
theorem State.finish_addPend (s : State) (n : Nat) (e : Engine) (len k lat : Nat) (b : Bool) (t : PendTarget) :
    (s.addPend n lat b t).finish (.job n e) len k = s.jobDid n e len k (·.addPend (s.now n + lat) b t) :=
  State.finish_modCore s n e len k _ rfl
/-- Going past an instruction, by a thread. -/
theorem State.finish_thread (s : State) (c q len k : Nat) : s.finish (.thread c q) len k = s.threadDid c q len id := rfl

@[simp] theorem State.cur_addPend (s : State) (n l : Nat) (b : Bool) (t : PendTarget) : (s.addPend n l b t).cur = s.cur := rfl

theorem State.putS_job {s : State} {n : Nat} {e : Engine} (r : Nat) (v : W64) (t : Bool) (lat len k : Nat) :
    (s.putS (.job n e) r v t lat).finish (.job n e) len k = s.jobDid n e len k (·.addPend (s.now n + lat) false (.s e r v t)) :=
  State.finish_addPend s n e len k lat false _
theorem State.putA_job {s : State} {n : Nat} {e : Engine} (r : Nat) (v : W64) (t : Bool) (lat len k : Nat) :
    (s.putA (.job n e) r v t lat).finish (.job n e) len k = s.jobDid n e len k (·.addPend (s.now n + lat) false (.a e (r % 16) v t)) :=
  State.finish_addPend s n e len k lat false _
theorem State.putP_job {s : State} {n : Nat} {e : Engine} (r : Nat) (v t : Bool) (lat len k : Nat) :
    (s.putP (.job n e) r v t lat).finish (.job n e) len k = s.jobDid n e len k (·.addPend (s.now n + lat) false (.p e (r % 16) v t)) :=
  State.finish_addPend s n e len k lat false _
theorem State.putT_job {s : State} {n : Nat} {e : Engine} (r : Nat) (v : W64) (lat len k : Nat) :
    (s.putT (.job n e) r v lat).finish (.job n e) len k = s.jobDid n e len k (·.addPend (s.now n + lat) false (.t e (r % 8) v)) :=
  State.finish_addPend s n e len k lat false _

/-- A scalar result of a job (R129). -/
theorem State.scalar_job {s : State} {n : Nat} {e : Engine} (h : s.cur = .job n e) (d : F6) (v : W64) (t : Bool) (lat : Nat) :
    s.scalar d v t lat = s.jobPut n e (.s e d.toNat v t) lat := by
  simp only [State.scalar, State.fin, h]
  have hc : (s.putS (.job n e) d.toNat v t lat).cur = .job n e := h
  rw [hc]
  exact State.putS_job ..

/-! Checks. -/

theorem State.jobOnly_job {s : State} {n : Nat} {e : Engine} (h : s.cur = .job n e) (k : Nat → Engine → State) : s.jobOnly k = k n e := by
  simp only [State.jobOnly, h]
theorem State.jobOnly_thread {s : State} {c q : Nat} (h : s.cur = .thread c q) (k : Nat → Engine → State) : s.jobOnly k = s.cause 3 := by
  simp only [State.jobOnly, h]
theorem State.queueOnly_thread {s : State} {c q : Nat} (h : s.cur = .thread c q) (k : Nat → Nat → State) : s.queueOnly k = k c q := by
  simp only [State.queueOnly, h]
theorem State.queueOnly_job {s : State} {n : Nat} {e : Engine} (h : s.cur = .job n e) (k : Nat → Nat → State) : s.queueOnly k = s.cause 3 := by
  simp only [State.queueOnly, h]
theorem State.engineOnly_job {s : State} {n : Nat} {e : Engine} (h : s.cur = .job n e) (k : Nat → Engine → State) : s.engineOnly k = k n e := by
  simp only [State.engineOnly, h]
/-- An open guard lets the word execute. -/
theorem State.guarded_open {s : State} {n : Nat} {e : Engine} (h : s.cur = .job n e) {g : Guard} (hg : (s.core n).guardOpen g) (len : Nat)
    (k : State → State) : s.guarded g len k = k s := by
  simp only [State.guarded, h]
  rcases hg with hg | hg | ⟨h1, h2⟩
  · simp [hg]
  · simp [hg]
  · split
    · rfl
    · simp [h1]
/-- A shut guard discards the word. -/
theorem State.guarded_shut {s : State} {n : Nat} {e : Engine} (h : s.cur = .job n e) {g : Guard} (hg : (s.core n).guardShut g) (len : Nat)
    (k : State → State) : s.guarded g len k = s.jobDid n e len 1 id := by
  obtain ⟨h0, h1, h2, h3⟩ := hg
  simp only [State.guarded, h, h0, h1, h2, h3, or_self, if_false, State.fin]
  exact State.finish_job ..
/-- Conditions that all hold. -/
theorem State.check_ok {s : State} {l : List (Bool × Nat)} (h : ∀ x ∈ l, x.1 = true) (k : State → State) : s.check l k = k s := by
  have : lowest l = 0 := by
    induction l with
    | nil => rfl
    | cons x l ih =>
      obtain ⟨b, c⟩ := x
      have hb : b = true := h (b, c) (by simp)
      subst hb
      simp only [lowest, if_true]
      exact ih fun y hy => h y (by simp [hy])
  simp [State.check, this]

end Sys2Proof.Machine
end

