-- ==== Sys2Proof/Certificates/Slice0/Obligations.lean ====
section
/-! DEFINITION. The statements for the provers. -/
open Sys2Proof Sys2Proof.Machine

/-! Scalar instructions (R132 to R135). -/

/-- R132, R133 and R58: every two-source and immediate integer instruction, of a job or of a queue thread, gives its result with the OR
of its sources' taints. A job's result pends for its latency, a thread's register is written as it issues; nothing else changes, so
division raises no cause and sets no flag. -/
def Obligations.IntegerResults : Prop :=
  ∀ (s : State) (d a b : F6) (imm : BitVec 12) (sh : BitVec 6),
    let x := s.rs a
    let y := s.rs b
    let im := BitVec.ofInt 64 imm.toInt
    let put := fun (i : Instr) (v : W64) (t : Bool) (lat : Nat) =>
      (∀ n e, s.cur = .job n e → exec i s = .next (s.jobPut n e (.s e d.toNat v t) lat)) ∧
      (∀ c q, s.cur = .thread c q → exec i s = .next (s.threadDid c q 4 (Queue.onThread (·.ws d.toNat v t))))
    let put2 := fun (i : Instr) (v : W64) (lat : Nat) => put i v (s.rsT a || s.rsT b) lat
    let put1 := fun (i : Instr) (v : W64) (lat : Nat) => put i v (s.rsT a) lat
    put2 (.add d a b) (x + y) 1 ∧ put2 (.sub d a b) (x - y) 1 ∧ put2 (.mul d a b) (x * y) 3 ∧
    put2 (.mulh d a b) (BitVec.ofInt 64 (x.toInt * y.toInt / 2 ^ 64)) 3 ∧
    put2 (.mulhu d a b) (BitVec.ofNat 64 (x.toNat * y.toNat / 2 ^ 64)) 3 ∧
    put2 (.div d a b) (if y = 0 then BitVec.ofInt 64 (-1) else BitVec.ofInt 64 (x.toInt.tdiv y.toInt)) 20 ∧
    put2 (.divu d a b) (if y = 0 then BitVec.ofNat 64 (2 ^ 64 - 1) else BitVec.ofNat 64 (x.toNat / y.toNat)) 20 ∧
    put2 (.rem d a b) (if y = 0 then x else BitVec.ofInt 64 (x.toInt.tmod y.toInt)) 20 ∧
    put2 (.remu d a b) (if y = 0 then x else BitVec.ofNat 64 (x.toNat % y.toNat)) 20 ∧
    put2 (.and d a b) (x &&& y) 1 ∧ put2 (.or d a b) (x ||| y) 1 ∧ put2 (.xor d a b) (x ^^^ y) 1 ∧
    put2 (.shl d a b) (x <<< (y.toNat % 64)) 1 ∧ put2 (.shr d a b) (x >>> (y.toNat % 64)) 1 ∧
    put2 (.sra d a b) (x.sshiftRight (y.toNat % 64)) 1 ∧
    put2 (.min d a b) (BitVec.ofInt 64 (min x.toInt y.toInt)) 1 ∧ put2 (.max d a b) (BitVec.ofInt 64 (max x.toInt y.toInt)) 1 ∧
    put2 (.minu d a b) (BitVec.ofNat 64 (min x.toNat y.toNat)) 1 ∧ put2 (.maxu d a b) (BitVec.ofNat 64 (max x.toNat y.toNat)) 1 ∧
    put1 (.addi d a imm) (x + im) 1 ∧ put1 (.andi d a imm) (x &&& im) 1 ∧ put1 (.ori d a imm) (x ||| im) 1 ∧ put1 (.xori d a imm) (x ^^^ im) 1 ∧
    put1 (.shli d a sh) (x <<< sh.toNat) 1 ∧ put1 (.shri d a sh) (x >>> sh.toNat) 1 ∧ put1 (.srai d a sh) (x.sshiftRight sh.toNat) 1 ∧
    put1 (.muli d a imm) (x * im) 3

/-- R134: the constant and address forms, of a job or of a queue thread. -/
def Obligations.ConstantAndAddressResults : Prop :=
  ∀ (s : State) (d b : F6) (k l : BitVec 4) (imm : BitVec 12) (wide : BitVec 18),
    let putS := fun (i : Instr) (v : W64) (t : Bool) =>
      (∀ n e, s.cur = .job n e → exec i s = .next (s.jobPut n e (.s e d.toNat v t) 1)) ∧
      (∀ c q, s.cur = .thread c q → exec i s = .next (s.threadDid c q 4 (Queue.onThread (·.ws d.toNat v t))))
    let putA := fun (i : Instr) (v : W64) (t : Bool) =>
      (∀ n e, s.cur = .job n e → exec i s = .next (s.jobPut n e (.a e k.toNat v t) 1)) ∧
      (∀ c q, s.cur = .thread c q → exec i s = .next (s.threadDid c q 4 (Queue.onThread (·.wa k.toNat v t))))
    putS (.li d wide) (BitVec.ofInt 64 wide.toInt) false ∧ putS (.lih d wide) (s.rs d <<< 18 ||| BitVec.ofNat 64 wide.toNat) (s.rsT d) ∧
    putA (.adda k l b) (s.ra l + s.rs b) (s.raT l || s.rsT b) ∧ putA (.addai k l imm) (s.ra l + BitVec.ofInt 64 imm.toInt) (s.raT l) ∧
    putA (.mova k b) (s.rs b) (s.rsT b) ∧ putS (.movs d k) (s.ra k) (s.raT k)

/-- R135: compares, predicate operations and SEL, of a job or of a queue thread; every predicate register, p0 too, is ordinary. -/
def Obligations.CompareAndSelectResults : Prop :=
  ∀ (s : State) (d a b : BitVec 4) (z x y : F6) (imm : BitVec 12),
    let putP := fun (i : Instr) (v t : Bool) =>
      (∀ n e, s.cur = .job n e → exec i s = .next (s.jobPut n e (.p e d.toNat v t) 1)) ∧
      (∀ c q, s.cur = .thread c q → exec i s = .next (s.threadDid c q 4 (Queue.onThread (·.wp d.toNat v t))))
    let im := BitVec.ofInt 64 imm.toInt
    let t2 := s.rsT x || s.rsT y
    let pt := s.rpT a || s.rpT b
    let sel := if s.rp a then s.rs x else s.rs y
    let selT := (if s.rp a then s.rsT x else s.rsT y) || s.rpT a
    putP (.cmp 0 d x y) (decide (s.rs x = s.rs y)) t2 ∧ putP (.cmp 1 d x y) (decide ((s.rs x).toInt < (s.rs y).toInt)) t2 ∧
    putP (.cmp 2 d x y) (decide ((s.rs x).toNat < (s.rs y).toNat)) t2 ∧ putP (.cmp 3 d x y) (decide (s.rs x &&& s.rs y ≠ 0)) t2 ∧
    putP (.cmpi 0 d x imm) (decide (s.rs x = im)) (s.rsT x) ∧ putP (.cmpi 1 d x imm) (decide ((s.rs x).toInt < im.toInt)) (s.rsT x) ∧
    putP (.cmpi 2 d x imm) (decide ((s.rs x).toNat < im.toNat)) (s.rsT x) ∧ putP (.cmpi 3 d x imm) (decide (s.rs x &&& im ≠ 0)) (s.rsT x) ∧
    putP (.pand d a b) (s.rp a && s.rp b) pt ∧ putP (.por d a b) (s.rp a || s.rp b) pt ∧
    putP (.pxor d a b) (xor (s.rp a) (s.rp b)) pt ∧ putP (.pandn d a b) (s.rp a && !s.rp b) pt ∧
    (∀ n e, s.cur = .job n e → exec (.sel z x y a) s = .next (s.jobPut n e (.s e z.toNat sel selT) 1)) ∧
    (∀ c q, s.cur = .thread c q → exec (.sel z x y a) s = .next (s.threadDid c q 4 (Queue.onThread (·.ws z.toNat sel selT)))) ∧
    (∀ (r : Stream) (v w : Bool), (r.wp d.toNat v w).p.getLsbD d.toNat = v)

/-- R131, R137, R147, R304: on a queue thread, targets, transfers, loads and stores, of context memory and of the local store. -/
def Obligations.ThreadResults : Prop :=
  ∀ (s : State) (c q : Nat) (t : BitVec 3) (p a : BitVec 4) (r : F6) (z : BitVec 2) (o : BitVec 12) (imm : BitVec 21), s.cur = .thread c q →
    let k := s.queue c q
    let x := k.thread
    let on := s.threadDid c q 4 id
    let goTo := fun (v : W64) => on.modQueue c q (Queue.onThread fun y => { y with redirect := some (v, 2), hold := .none })
    let past := on.modQueue c q (Queue.onThread fun y => { y with slots := 2, hold := .none })
    let ea := (s.ra a + BitVec.ofInt 64 (o.toInt * 2 ^ z.toNat)).toNat
    let m := 2 ^ z.toNat
    exec .nop s = .next on ∧
    exec (.ptgt t imm) s = .next (s.threadDid c q 4 (Queue.onThread (·.wt t.toNat (x.pc + BitVec.ofInt 64 (4 * imm.toInt))))) ∧
    exec (.ptgtr t r) s = .next (s.threadDid c q 4 (Queue.onThread (·.wt t.toNat (s.rs r &&& ~~~3#64)))) ∧
    (x.inSlot = false →
      exec (.j t) s = .next (goTo (x.rt t.toNat)) ∧ exec (.jt t p) s = .next (if s.rp p then goTo (x.rt t.toNat) else past) ∧
      exec (.jf t p) s = .next (if s.rp p then past else goTo (x.rt t.toNat))) ∧
    (∀ va ph det, s.strongOk ea m accLoad true false va ph det →
      let go := fun (sgn : Bool) => (s.issueStrong (.thread c q) (mkStrong .S (.load sgn) m va ph det (some r.toNat) 0 false 0 0xD) false).threadDid c q 4 id
      exec (.ld r a z o) s = .next (go true) ∧ exec (.ldu r a z o) s = .next (go false)) ∧
    (∀ va ph det, s.strongOk ea m accStore true (s.rsT r) va ph det →
      exec (.st r a z o) s = .next ((s.issueStrong (.thread c q)
        (mkStrong .S .store m va ph det none ((s.rs r).setWidth 128) (s.rsT r) 0 0xE) false).threadDid c q 4 id)) ∧
    (ea % m = 0 →
      let l := k.localRead ea m
      let v := fun (sgn : Bool) => s.threadDid c q 4 (Queue.onThread (·.ws r.toNat (extend sgn m (leNat (bytesOf l))) (taintOf l)))
      exec (.ldsp r a z o) s = .next (v true) ∧ exec (.ldspu r a z o) s = .next (v false) ∧
      exec (.stsp r a z o) s = .next (s.threadDid c q 4 (·.localWrite ea ((leBytes m (s.rs r).toNat).map fun b => (b, s.rsT r)))))

/-! Control (R136 to R145, R168, R169). -/

/-- R136, R137, R140 and R141: targets, transfers, CALL while the return stack has room and RET while it has an entry. The redirect
stands two delay slots away.
R137: an untaken transfer goes on, with two delay slots. -/
def Obligations.TransferResults : Prop :=
  (∀ (s : State) (n : Nat) (e : Engine) (t : BitVec 3) (p : BitVec 4) (a : F6) (imm : BitVec 21), s.cur = .job n e →
     let x := (s.core n).str e
     let target := x.rt t.toNat
     exec (.ptgt t imm) s = .next (s.jobPut n e (.t e t.toNat (x.pc + BitVec.ofInt 64 (4 * imm.toInt))) 1) ∧
     exec (.ptgtr t a) s = .next (s.jobPut n e (.t e t.toNat (s.rs a &&& ~~~3#64)) 1) ∧
     (x.inSlot = false →
       exec (.j t) s = .next (s.jumped n e target) ∧
       (s.rp p = true → exec (.jt t p) s = .next (s.jumped n e target)) ∧ (s.rp p = false → exec (.jf t p) s = .next (s.jumped n e target)) ∧
       (x.rs.length < 16 → exec (.call t) s = .next ((s.jumped n e target).modCore n fun c => c.setStr e { c.str e with rs := s.returnAddr :: x.rs })) ∧
       (∀ r rest, x.rs = r :: rest → (∀ d, x.hold ≠ .spill d) →
         exec .ret s = .next ((s.jumped n e r).modCore n fun c => c.setStr e { c.str e with rs := rest })))) ∧
  (∀ (s : State) (n : Nat) (e : Engine) (t : BitVec 3) (p : BitVec 4), s.cur = .job n e → ((s.core n).str e).inSlot = false →
     let on := (s.jobDid n e 4 1 id).modCore n fun c => c.setStr e { c.str e with slots := 2 }
     (s.rp p = false → exec (.jt t p) s = .next on) ∧ (s.rp p = true → exec (.jf t p) s = .next on))

/-- R138: a pending redirect takes effect after the second delay slot: the instruction issued last goes to the target.
R138: a transfer, a loop form, RDV or ERET in a delay slot raises cause 10 and does nothing else. -/
def Obligations.DelaySlots : Prop :=
  (∀ (x : Stream) (target : W64) (len : Nat), x.redirect = some (target, 2) →
     (x.advance len).pc = x.pc + BitVec.ofNat 64 len ∧ ((x.advance len).advance len).pc = target ∧ ((x.advance len).advance len).redirect = none) ∧
  (∀ (s : State) (n : Nat) (e : Engine) (i : Instr) (t : BitVec 3) (p : BitVec 4) (d l : F6) (k : BitVec 18), s.cur = .job n e →
     ((s.core n).str e).inSlot = true → (s.core n).stop = none →
     i = .j t ∨ i = .jt t p ∨ i = .jf t p ∨ i = .call t ∨ i = .ret ∨ i = .loop d l ∨ i = .loopi l k ∨ i = .endl ∨ i = .endlRot ∨ i = .rdv →
     ∃ u, exec i s = .next u ∧ s.trapsTo u n e 10 0)

/-- R142: a loop whose body ends at an ENDL starts, or is passed over when its count is zero.
R143 and R175: ENDL goes back to the first word of the body or ends the loop; ENDL.rot on the V stream also rotates SHAPE's bases. -/
def Obligations.LoopResults : Prop :=
  (∀ (s : State) (n : Nat) (e : Engine) (d l : F6) (k : BitVec 18) (w : W32), s.cur = .job n e →
     let x := (s.core n).str e
     let stop := x.pc + BitVec.ofNat 64 (4 * (l.toNat + 1))
     x.inSlot = false → x.loops.length < 4 → s.fetchWord s.cur stop.toNat = .word w →
     (decodeWord e w 0 = .ok .endl ∨ decodeWord e w 0 = .ok .endlRot) →
     let on := fun (m : BitVec 32) => (s.jobDid n e 4 1 id).modCore n fun c => c.setStr e
       (if m = 0 then { c.str e with pc := stop + 4 }
        else { c.str e with loops := { start := x.pc + 4, stop := stop, remaining := m } :: x.loops, lbuf := if x.loops = [] then [] else x.lbuf })
     exec (.loop d l) s = .next (on ((s.rs d).setWidth 32)) ∧ exec (.loopi l k) s = .next (on (k.setWidth 32))) ∧
  (∀ (s : State) (n : Nat) (e : Engine) (lp : Loop) (ls : List Loop), s.cur = .job n e →
     let x := (s.core n).str e
     x.inSlot = false → x.loops = lp :: ls → lp.stop = x.pc →
     let on := fun (c : Core) => c.setStr e
       (if lp.remaining = 1 then { c.str e with loops := ls }
        else { c.str e with pc := lp.start, loops := { lp with remaining := lp.remaining - 1 } :: ls })
     exec .endl s = .next ((s.jobDid n e 4 1 id).modCore n on) ∧
     exec .endlRot s = .next ((s.jobDid n e 4 1 fun c => if e = .V then { c with shape := rotate c.shape } else c).modCore n on))

/-- R168 and R319: TRAP completes; a job stops with cause 56 + imm and its group pauses, a queue is Halted, or Faulted inside its handler. The job's
resume address is the word after TRAP; in the second delay slot of a taken transfer the redirect is kept, to take effect there (R138, R168). -/
def Obligations.SoftwareTraps : Prop :=
  ∀ (s : State) (imm : BitVec 3),
    (∀ n e, s.cur = .job n e → (s.core n).stop = none →
      ∃ u, exec (.trap imm) s = .next u ∧
        let x := (s.core n).str e
        ((∀ t, x.redirect ≠ some (t, 1)) → (s.jobDid n e 4 1 id).trapsTo u n e (56 + imm.toNat) 0) ∧
        (∀ t, x.redirect = some (t, 1) →
          ((s.jobDid n e 4 1 id).modCore n fun c => c.setStr e { c.str e with pc := x.pc + 4, redirect := some (t, 0), loops := x.loops }).trapsTo u
            n e (56 + imm.toNat) 0)) ∧
    (∀ c q, s.cur = .thread c q →
      exec (.trap imm) s = .next ((s.threadDid c q 4 id).endQueue c q (if (s.queue c q).hnd then .faulted else .halted) (56 + imm.toNat)))

/-! Guards, channels, semaphores and tags (R101, R149 to R162). -/

/-- R149 and R150: a resolution or a clear of guard slots is noted for the next cycle; bit 0 is ignored.
R150: from its cycle on, one resolution of slots gives them their value and one clear leaves them unresolved; a later one waits. -/
def Obligations.GuardSlots : Prop :=
  (∀ (s : State) (n : Nat) (e : Engine) (g p : BitVec 4) (v : BitVec 1) (m : BitVec 16), s.cur = .job n e →
     let put := fun (i : Instr) (mask : BitVec 16) (res val : Bool) =>
       exec i s = .next (s.jobDid n e 4 1 fun c => c.noteGuard (s.now n + 1) e mask res val)
     put (.gres g p) (1#16 <<< g.toNat) true (s.rp p) ∧ put (.gset g v) (1#16 <<< g.toNat) true (decide (v = 1)) ∧
     put (.gmaskT m) m true true ∧ put (.gmaskF m) m true false ∧ put (.gclr m) m false false) ∧
  (∀ (c : Core) (w : Nat) (e : Engine) (m : BitVec 16) (res val : Bool), c.gpend = [] →
     c.noteGuard w e m res val = { c with gpend := [⟨w, engNum e, m &&& 0xFFFE, res, val⟩] }) ∧
  (∀ (s : State) (n v k : Nat) (m : BitVec 16) (res val : Bool), (s.core n).gpend = [⟨v, k, m, res, val⟩] →
     ∃ t, exec (.guardResolutionEffect n) s = .next t ∧ t = { s with cores := t.cores } ∧ (∀ k, k ≠ n → t.core k = s.core k) ∧
       (s.now n < v → t.core n = s.core n) ∧
       (v ≤ s.now n → t.core n = { s.core n with
         gpend := []
         gres := if res then (s.core n).gres ||| m else (s.core n).gres &&& ~~~ m
         gval := if res && val then (s.core n).gval ||| m else (s.core n).gval &&& ~~~ m }))

/-- R101: a guarded word, of whatever table and of one word or two, whose guard slot is resolved otherwise is discarded: its stream goes past all of
it and nothing else happens.
R101: while a guard slot is unresolved its word is held and changes nothing. A BAR or KBAR that is held past its issue asks its guard no more (R150).
R98, R105 and R106: a word that decodes to nothing is discarded or held likewise, two words of it when its payload is wrong; once its guard lets
it through it has its effect, which is to raise its cause and nothing else. -/
def Obligations.GuardedWords : Prop :=
  (∀ (s : State) (n : Nat) (e : Engine) (g : Guard) (d a b : F6) (p : BitVec 1), s.cur = .job n e → (s.core n).guardShut g →
     (∀ i len, guardedWord i = some (g, len) → ((i = .bar g ∨ i = .kbar g) → (s.stream s.cur).hold = .none) → exec i s = .next (s.jobDid n e len 1 id)) ∧
     exec (.vadd g d a b p) s = .next (s.jobDid n e 4 1 id) ∧ exec (.vld g d a) s = .next (s.jobDid n e 4 1 id) ∧
     exec (.vstm g a b p) s = .next (s.jobDid n e 4 1 id) ∧ exec (.dadd g d a b) s = .next (s.jobDid n e 4 1 id) ∧
     exec (.mlda g a p) s = .next (s.jobDid n e 4 1 id) ∧ exec (.mwaitf g) s = .next (s.jobDid n e 4 1 id) ∧
     exec (.xgath g d a b) s = .next (s.jobDid n e 4 1 id) ∧ exec (.xtst g d a) s = .next (s.jobDid n e 4 1 id) ∧
     (∀ cause, exec (.illegalInstruction g cause) s = .next (s.jobDid n e (if cause = 4 then 8 else 4) 1 id))) ∧
  (∀ (s : State) (n : Nat) (e : Engine) (g : Guard) (d a b : F6) (p : BitVec 1), s.cur = .job n e → g ≠ 0 → g ≠ 16 →
     (s.core n).gres.getLsbD (g.toNat % 16) = false →
     (∀ i len, guardedWord i = some (g, len) → (∀ q, (s.stream s.cur).hold ≠ .barDue q) → exec i s = .next s) ∧
     exec (.vadd g d a b p) s = .next s ∧ exec (.vstm g a b p) s = .next s ∧ exec (.dadd g d a b) s = .next s ∧
     exec (.mlda g a p) s = .next s ∧ exec (.xgath g d a b) s = .next s ∧
     (∀ cause, exec (.illegalInstruction g cause) s = .next s)) ∧
  (∀ (s : State) (n : Nat) (e : Engine) (g : Guard) (cause : Nat), s.cur = .job n e → (s.core n).guardOpen g → (s.core n).stop = none →
     exec (.illegalInstruction g cause) s = .next ((s.trapJob n e cause 0).standCore n) ∧
       s.trapsTo ((s.trapJob n e cause 0).standCore n) n e cause 0)

/-- R153: CHCFG configures a channel empty where its operands are admitted, and else raises cause 10.
R155: CHWAIT holds until the slots are there, CHADV and CHRST change the indexes and counts; CHADV beyond the available or free slots
raises cause 45, a CHWAIT for more slots than the channel has cause 10, any of them on an unconfigured channel cause 11. -/
def Obligations.ChannelResults : Prop :=
  (∀ (s : State) (n : Nat) (e : Engine) (k : BitVec 4) (a b : F6) (m : BitVec 12), s.cur = .job n e →
     let c := s.core n
     let ch := c.chan k.toNat
     let base := (s.rs a).toNat % 2 ^ 32
     let size := (s.rs b).toNat % 2 ^ 32
     let count := (s.rs b).toNat / 2 ^ 32 % 2 ^ 13
     let put := fun (x : Chan) => s.jobDid n e 4 1 fun c => c.setChan k.toNat x
     (base % 16 = 0 → size % 16 = 0 → 16 ≤ size → size ≤ 65536 → 1 ≤ count → count ≤ 4096 → base + size * count ≤ 65536 * c.sg →
       exec (.chcfg k a b) s = .next (put { Chan.reset with cfg := true, base := base, size := size, count := count, epoch := ch.epoch + 1 })) ∧
     (ch.cfg = true →
       (m.toNat ≤ ch.count → m.toNat ≤ ch.filled - ch.taken → exec (.chwaitFull k m) s = .next (s.jobDid n e 4 1 id)) ∧
       (m.toNat ≤ ch.count → ch.filled - ch.taken < m.toNat → exec (.chwaitFull k m) s = .next s) ∧
       (m.toNat ≤ ch.count → m.toNat ≤ ch.count - ch.filled - ch.rsv.length → exec (.chwaitFree k m) s = .next (s.jobDid n e 4 1 id)) ∧
       (m.toNat ≤ ch.count → ch.count - ch.filled - ch.rsv.length < m.toNat → exec (.chwaitFree k m) s = .next s) ∧
       (m.toNat ≤ ch.filled - ch.taken →
         exec (.chadvCons k m) s = .next (put { ch with cidx := (ch.cidx + m.toNat) % ch.count, filled := ch.filled - m.toNat })) ∧
       (m.toNat ≤ ch.count - ch.filled - ch.rsv.length →
         exec (.chadvProd k m) s = .next (put { ch with pidx := (ch.pidx + m.toNat) % ch.count, filled := ch.filled + m.toNat })) ∧
       exec (.chrst k) s = .next (put { ch with pidx := 0, cidx := 0, filled := 0, taken := 0, rsv := [], epoch := ch.epoch + 1 }))) ∧
  (∀ (s : State) (n : Nat) (e : Engine) (k : BitVec 4) (a b : F6) (m : BitVec 12) (i : Instr), s.cur = .job n e → (s.core n).stop = none →
     let ch := (s.core n).chan k.toNat
     let base := (s.rs a).toNat % 2 ^ 32
     let size := (s.rs b).toNat % 2 ^ 32
     let count := (s.rs b).toNat / 2 ^ 32 % 2 ^ 13
     (base % 16 ≠ 0 ∨ size % 16 ≠ 0 ∨ size < 16 ∨ 65536 < size ∨ count < 1 ∨ 4096 < count ∨ 65536 * (s.core n).sg < base + size * count →
       ∃ u, exec (.chcfg k a b) s = .next u ∧ s.trapsTo u n e 10 0) ∧
     (ch.cfg = false → i = .chwaitFull k m ∨ i = .chwaitFree k m ∨ i = .chadvCons k m ∨ i = .chadvProd k m ∨ i = .chrst k →
       ∃ u, exec i s = .next u ∧ s.trapsTo u n e 11 0) ∧
     (ch.cfg = true → ch.count < m.toNat → i = .chwaitFull k m ∨ i = .chwaitFree k m → ∃ u, exec i s = .next u ∧ s.trapsTo u n e 10 0) ∧
     (ch.cfg = true → ch.filled - ch.taken < m.toNat → ∃ u, exec (.chadvCons k m) s = .next u ∧ s.trapsTo u n e 45 0) ∧
     (ch.cfg = true → ch.count - ch.filled - ch.rsv.length < m.toNat → ∃ u, exec (.chadvProd k m) s = .next u ∧ s.trapsTo u n e 45 0))

/-- R157 and Table 14-2: SEMSIG adds to a semaphore's count and serves the one stream held on it whose wait the count now satisfies; SEMWAIT
with no other stream held on it takes from a sufficient count, and else is held at its head. -/
def Obligations.SemaphoreResults : Prop :=
  ∀ (s : State) (n : Nat) (e : Engine) (k : BitVec 5) (m : BitVec 12), s.cur = .job n e →
    let c := s.core n
    let cnt := c.sem k.toNat
    ((∀ f j w, (c.str f).hold ≠ .sem j w) → cnt + m.toNat ≤ 4095 →
      exec (.semsig k m) s = .next (s.jobDid n e 4 1 fun c => c.setSem k.toNat (cnt + m.toNat))) ∧
    (4095 < cnt + m.toNat → c.stop = none → ∃ u, exec (.semsig k m) s = .next u ∧ s.trapsTo u n e 44 0) ∧
    let clear := fun (f : Engine) => ∀ w, (c.str f).hold ≠ .sem k.toNat w ∧ (c.str f).hold ≠ .semDue k.toNat w
    (∀ f w, f ≠ e → (c.str f).hold = .sem k.toNat w → (∀ x, x ≠ e → x ≠ f → clear x) → cnt + m.toNat ≤ 4095 → w ≤ cnt + m.toNat →
      exec (.semsig k m) s = .next ((s.jobDid n e 4 1 fun c => c.setSem k.toNat (cnt + m.toNat)).jobDid n f 4 1 fun c =>
        c.setSem k.toNat (cnt + m.toNat - w))) ∧
    ((∀ j w, (c.str e).hold ≠ .sem j w ∧ (c.str e).hold ≠ .semDue j w) →
      ((∀ f, f ≠ e → clear f) → m.toNat ≤ cnt →
        exec (.semwait k m) s = .next (s.jobDid n e 4 1 fun c => c.setSem k.toNat (cnt - m.toNat))) ∧
      (cnt < m.toNat ∨ (∃ f w, f ≠ e ∧ (c.str f).hold = .sem k.toNat w) →
        exec (.semwait k m) s = .next (s.modCore n fun c => c.setStr e { c.str e with hold := .sem k.toNat m.toNat })))

/-- R159 to R161, R270 and R271: waits complete once no tag that they name is in flight, and are held until then. Tests answer at once, of tags as
the virtual schedule has them in a kernel with the deterministic flag, with no taint of their own, and else, shown here while the trail is off, as the
wall clock has them, tainted; a mask's taint joins in either. XTCLR clears FB and ABS of the ready tags of its mask. -/
def Obligations.TagResults : Prop :=
  ∀ (s : State) (n : Nat) (e : Engine) (t : F6) (p : BitVec 4) (d a : F6) (g : Guard), s.cur = .job n e →
    let c := s.core n
    let infl := fun (k : Nat) => (c.tag k).infl
    let on := s.jobDid n e 4 1 id
    let seen := fun (k : Nat) => c.tagReady (s.detCore n) k
    let wall := !s.detCore n
    (∀ k, c.tagReady true k = !infl k) ∧ (∀ k, infl k = false → c.tagReady false k = true) ∧
    (infl t.toNat = false → exec (.twait t) s = .next on) ∧ (infl t.toNat = true → exec (.twait t) s = .next s) ∧
    ((∀ k, k < 64 → (s.rs a).getLsbD k = true → infl k = false) → exec (.cbwait a) s = .next on) ∧
    (∀ k, k < 64 → (s.rs a).getLsbD k = true → infl k = true → exec (.cbwait a) s = .next s) ∧
    (s.detCore n = true ∨ (s.ctx (s.cxnOf s.cur)).trail.mode = 0 →
      exec (.ttest p t) s = .next (s.jobPut n e (.p e p.toNat (seen t.toNat) wall) 1) ∧
      ((∀ k, k < 64 → (s.rs a).getLsbD k = true → seen k = true) →
        exec (.cbtest p a) s = .next (s.jobPut n e (.p e p.toNat true (wall || s.rsT a)) 1)) ∧
      (∀ k, k < 64 → (s.rs a).getLsbD k = true → seen k = false →
        exec (.cbtest p a) s = .next (s.jobPut n e (.p e p.toNat false (wall || s.rsT a)) 1)) ∧
      (∀ k, k < 64 → (s.rs a).getLsbD k = true → seen k = true → (∀ j, j < k → (s.rs a).getLsbD j = true → seen j = false) →
        exec (.tffr d a) s = .next (s.jobPut n e (.s e d.toNat (BitVec.ofNat 64 k) (wall || s.rsT a)) 1)) ∧
      ((∀ k, k < 64 → (s.rs a).getLsbD k = true → seen k = false) →
        exec (.tffr d a) s = .next (s.jobPut n e (.s e d.toNat 64 (wall || s.rsT a)) 1)) ∧
      (c.guardOpen g → sOk d = true → sOk a = true →
        let k := (s.rs a).toNat % 64
        let tag := c.tag k
        exec (.xtst g d a) s = .next (s.jobDid n e 4 1 (·.addPend (s.now n + 2) false
          (.s e d.toNat (if seen k then BitVec.ofNat 64 (2 * tag.fb.toNat + 4 * tag.abs.toNat) else 1) (wall || s.rsT a || (seen k && tag.fb)))))) ) ∧
    (c.guardOpen g → sOk a = true →
      exec (.xtclr g a) s = .next (s.jobDid n e 4 1 fun c => { c with tags := Vector.ofFn (clearedTag c (s.rs a)) }) ∧
      ∀ k : Fin 64, ((clearedTag c (s.rs a) k).fb, (clearedTag c (s.rs a) k).abs) =
        if (s.rs a).getLsbD k = true ∧ infl k = false then (false, false) else ((c.tag k).fb, (c.tag k).abs))

/-! Waits, phases, barriers and hints (R98, R99, R162 to R166, R357, R358). -/

/-- R98, R99, R162 to R166, R357, R358: what needs nothing goes on; PHASE, RDV and a barrier hold their stream at its head. A barrier arrives once the
accesses before it are acknowledged, and past its issue its guard counts no more. That the word after a VCWAIT that was held issues in the same
cycle is the model's reading (DEDUCED, log 1). -/
def Obligations.WaitsAndHolds : Prop :=
  ∀ (s : State) (n : Nat) (e : Engine) (a : F6) (imm : BitVec 12) (k : BitVec 4) (w : BitVec 24) (g : Guard), s.cur = .job n e →
    let c := s.core n
    let on := s.jobDid n e 4 1 id
    let hold := fun (h : Hold) => s.modCore n fun c => c.setStr e { c.str e with hold := h }
    exec .nop s = .next on ∧ exec (.hint k w) s = .next on ∧
    exec .iflush s = .next (on.modCore n fun c => c.setStr e { c.str e with lbuf := [] }) ∧
    ((s.rs a + BitVec.ofInt 64 imm.toInt).toNat ≤ s.now n → (c.str e).hold ≠ .clock → exec (.vcwait a imm) s = .next on) ∧
    ((s.rs a + BitVec.ofInt 64 imm.toInt).toNat ≤ s.now n → (c.str e).hold = .clock → exec (.vcwait a imm) s =
      .next { s.jobDid n e 4 0 id with agenda := .issue (.job n e) :: s.agenda }) ∧
    (s.now n < (s.rs a + BitVec.ofInt 64 imm.toInt).toNat → exec (.vcwait a imm) s = .next (hold .clock)) ∧
    ((∀ x v, (c.str e).hold ≠ .phase x v) →
      exec .phaseG s = .next (hold (.phase 1 (s.now n))) ∧ exec .phaseK s = .next (hold (.phase 2 (s.now n))) ∧
      exec .phaseX s = .next (hold (.phase 3 (s.now n)))) ∧
    ((c.str e).inSlot = false → exec .rdv s = .next (hold .rdv)) ∧
    let at_ := fun (k : Bool) (q : Nat) => hold (if c.strongDone (s.now n) q then .bar k (s.now n) else .barDue q)
    (e = .S → c.guardOpen g → (∀ x v, c.strS.hold ≠ .bar x v) → (∀ q, c.strS.hold ≠ .barDue q) → c.rb = 0 →
      exec (.bar g) s = .next (at_ false c.seq) ∧ exec (.kbar g) s = .next (at_ true c.seq)) ∧
    (∀ q, e = .S → c.strS.hold = .barDue q → exec (.bar g) s = .next (at_ false q) ∧ exec (.kbar g) s = .next (at_ true q)) ∧
    (∀ x v, e = .S → c.strS.hold = .bar x v → exec (.bar g) s = .next s ∧ exec (.kbar g) s = .next s)

/-- R83: a FENCE of paths goes on once every access of its earlier paths that is ordered before it is done, and is held until then. It drops the snapshot when LS is among the
later paths and a copy path among the earlier, and lets later copies see what is buffered when LS is among the earlier.
R71, R157: a stream whose SEMWAIT uses a SEMSIG's increment comes after all that the SEMSIG came after; that a SEMWAIT uses the oldest increments
on record is the model's reading (DEDUCED, log 22).
R83: a copy path that such a FENCE has passed sees a buffered byte; another sees that or the byte at the point of coherence. -/
def Obligations.FenceResults : Prop :=
  (∀ (s : State) (n : Nat) (e : Engine) (l f : BitVec 4), s.cur = .job n e →
    let c := s.core n
    (f = 0 ∨ l = 0 ∨ (f = 1 ∧ l = 1) → exec (.fence l f) s = .next (s.jobDid n e 4 1 id)) ∧
    (f ≠ 0 → l ≠ 0 → ¬ (f = 1 ∧ l = 1) →
      ((f.getLsbD 0 = true → ∀ x ∈ c.pend, x.ls = true → vget (c.pastOf e (s.now n)).ls (engNum (c.lsEngine x)) 0 ≤ x.seq) →
       (∀ x ∈ c.copies, f.getLsbD x.form.path = true → (c.pastOf e (s.now n)).cp ≤ x.issue) →
        exec (.fence l f) s = .next (s.jobDid n e 4 1 fun c => { c with
          snap := if f &&& 0xE ≠ 0 ∧ l.getLsbD 0 = true then [] else c.snap
          psb := if f.getLsbD 0 then c.psb.map (·.fence l) else c.psb })) ∧
      ((∃ x ∈ c.pend, x.ls = true ∧ f.getLsbD 0 = true ∧ x.seq < vget (c.pastOf e (s.now n)).ls (engNum (c.lsEngine x)) 0) →
        (c.str e).hold = .none → exec (.fence l f) s = .next (s.modStream s.cur fun x => { x with hold := .fence c.seq (s.now n) })))) ∧
  (∀ (c : Core) (z : PsbLine) (l : BitVec 4) (path va : Nat) (free : Bool) (b : Byte × Bool), 1 ≤ path → path ≤ 3 →
    c.psbLine va = some z → c.psbByte va = some b →
    ((z.fence l).fenced.getLsbD (64 * (path - 1) + va % 64) = true ↔
      z.fenced.getLsbD (64 * (path - 1) + va % 64) = true ∨ l.getLsbD path = true) ∧
    (z.fenced.getLsbD (64 * (path - 1) + va % 64) = true → c.copySees path va free = some b) ∧
    (z.fenced.getLsbD (64 * (path - 1) + va % 64) = false → c.copySees path va free = if free then some b else none)) ∧
  (∀ (o : Order) (e f : Engine) (k m : Nat) (p : Past) (rest : List (Nat × Nat × Past)), m ≠ 0 → o.sems = (k, m, p) :: rest →
    vget p.ls (engNum f) 0 ≤ vget (vget (o.waited e k m).known (engNum e) .reset).ls (engNum f) 0)

/-- R170 and Tables 5-11: RDST reads a status register untainted; WRST is noted for the next cycle, and RSSP is written at once. -/
def Obligations.StatusRegisters : Prop :=
  ∀ (s : State) (n : Nat) (e : Engine) (d a : F6) (sr : BitVec 12) (v : W64), s.cur = .job n e → s.statusJob n e sr.toNat = some v →
    (sr ≠ 6 → exec (.rdst d sr) s = .next (s.jobPut n e (.s e d.toNat v false) 1)) ∧
    (lowest ((s.core n).statusConds sr.toNat (s.rs a)) = 0 → sr ≠ 9 →
      exec (.wrst a sr) s = .next (s.jobPut n e (.status sr.toNat ((s.core n).wrstBits (s.now n) sr.toNat (s.rs a))) 1)) ∧
    exec (.wrst a 9) s = .next (s.jobDid n e 4 1 fun c => c.setStr e { c.str e with rssp := s.rs a &&& 0x007FFFFFFFFFFFF8 }) ∧
    s.statusJob n e 0 = some (BitVec.ofNat 64 (s.now n)) ∧ s.statusJob n e 1 = some ((s.core n).ncsr.setWidth 64) ∧
    s.statusJob n e 3 = some (s.core n).shape ∧ s.statusJob n e 4 = some ((s.core n).partw.setWidth 64)

/-- R129: at its cycle a pending scalar, address, target or predicate write lands in its register with its taint; s0 stays zero, and no
other register changes. -/
def Obligations.WritesLand : Prop :=
  ∀ (s : State) (n : Nat) (e : Engine) (r : Nat) (v : W64) (b t : Bool) (k : Nat), r < 64 →
    let c := s.core n
    let land := fun (x : PendTarget) (f : Stream → Stream) =>
      c.pend = [{ seq := k, due := s.now n, ls := false, target := x }] →
        exec (.pendingWriteLand n k) s = .next (s.setCore n ({ c with pend := [] }.setStr e (f (c.str e))))
    land (.s e r v t) (fun x => if r = 0 then x else { x with s := x.s.setIfInBounds r v, sT := setBit x.sT r t }) ∧
    land (.a e r v t) (fun x => { x with a := x.a.setIfInBounds (r % 16) v, aT := setBit x.aT (r % 16) t }) ∧
    land (.t e r v) (fun x => { x with t := x.t.setIfInBounds (r % 8) v }) ∧
    land (.p e r b t) (fun x => { x with p := setBit x.p (r % 16) b, pT := setBit x.pT (r % 16) t })

/-! Loads and stores (R65 to R67, R84, R146 to R148). -/

/-- R146, R147: a load of a job issues: the snapshot takes its parts and its value pends at its latency.
R67, R69: a load returns the byte the job has stored in this phase, else the snapshot's, else memory's, which the snapshot then
holds. Where another stream has stored the byte with no order before the load, R69 lets it be either; that it is the stored one is the model's choice
(DESIGN CHOICE, log 38). -/
def Obligations.LoadResults : Prop :=
  (∀ (s : State) (n : Nat) (e : Engine) (r : F6) (a : BitVec 4) (z : BitVec 2) (o : BitVec 12) (ps : List (Nat × Nat × Phys × Bool)),
     s.cur = .job n e →
     let va := (s.ra a + BitVec.ofInt 64 (o.toInt * 2 ^ z.toNat)).toNat
     let m := 2 ^ z.toNat
     va % m = 0 → s.accessOk (.job n e) va m accLoad ps →
     let x := s.loadRange n va ps
     x.2.poison = 0 →
     let put := fun (sgn : Bool) => (x.1.addPend n x.2.lat true (.s e r.toNat (extend sgn m (leNat (bytesOf x.2.bytes))) (taintOf x.2.bytes))).finish (.job n e) 4 1
     exec (.ld r a z o) s = .next (put true) ∧ exec (.ldu r a z o) s = .next (put false) ∧ (put true).hbm = s.hbm) ∧
  (∀ (s : State) (n va m : Nat) (p : Phys) (det : Bool) (k : Nat), k < m → va % 16 + m ≤ 16 →
     let b := (s.loadRange n va [(va, m, p, det)]).2.bytes.getD k (0, false)
     ((s.core n).psbByte (va + k) = none → (s.core n).snapPart va = none → (s.core n).snap.length < 8192 →
       b.1 = s.physByte ((p.sub (va % 16)).add (va % 16 + k)) ∧ b.2 = s.physTaint (p.sub (va % 16)) 16) ∧
     (∀ x t, (s.core n).psbByte (va + k) = some (x, t) → b = (x, t)) ∧
     (∀ x, (s.core n).psbByte (va + k) = none → (s.core n).snapPart va = some x → b = ((x.data >>> (8 * ((va + k) % 16))).setWidth 8, x.taint)))

/-- R65, R147: a plain store of a job stands in its phase store buffer; no byte of memory changes while the buffer has room.
R59, R65: what the job then sees of its stores is the register's bytes at the store's addresses, with the taint of their part, the register's or what
was there, and at every other address the byte it saw before. -/
def Obligations.StoreResults : Prop :=
  ∀ (s : State) (n : Nat) (e : Engine) (r : F6) (a : BitVec 4) (z : BitVec 2) (o : BitVec 12) (ps : List (Nat × Nat × Phys × Bool)),
    s.cur = .job n e →
    let va := (s.ra a + BitVec.ofInt 64 (o.toInt * 2 ^ z.toNat)).toNat
    let m := 2 ^ z.toNat
    va % m = 0 → s.accessOk (.job n e) va m accStore ps → (∀ x ∈ ps, s.taintStop (.job n e) x.2.2.2 (s.rsT r) = false) →
    (∀ x ∈ (s.core n).overflow ps, s.refused (s.cxnOf (.job n e)) x.2.2.1 true false = false) →
    let bs := (leBytes m (s.rs r).toNat).map fun b => (b, s.rsT r)
    exec (.st r a z o) s = .next ((s.storePieces n e bs ps).finish (.job n e) 4 1) ∧
    ((s.core n).psb.length + ps.length ≤ 2048 → (s.core n).psbFull = false → (s.storePieces n e bs ps).hbm = s.hbm) ∧
    (∃ p det, ps = [(va, m, p, det)]) ∧
    (((s.core n).psbLine va).isSome = true ∨ ((s.core n).psb.length < 2048 ∧ (s.core n).psbFull = false) →
      let c := s.core n
      let t := (((s.storePieces n e bs ps).finish (.job n e) 4 1).core n)
      ((s.storePieces n e bs ps).finish (.job n e) 4 1).hbm = s.hbm ∧
      (∀ k, k < m → t.psbByte (va + k) =
        some ((s.rs r >>> (8 * k)).setWidth 8, s.rsT r || (c.psbLine va).any fun l => l.taint.getLsbD (va % 64 / 16))) ∧
      (∀ b, b < va ∨ va + m ≤ b → (t.psbByte b).map Prod.fst = (c.psbByte b).map Prod.fst ∧ (b / 16 ≠ va / 16 → t.psbByte b = c.psbByte b)))

/-- R84, R148: scratchpad loads and stores of a job pend for four cycles at the mapped address; a misaligned address or one that leaves
its window's half raises cause 24. -/
def Obligations.ScratchpadResults : Prop :=
  ∀ (s : State) (n : Nat) (e : Engine) (r : F6) (a : BitVec 4) (z : BitVec 2) (o : BitVec 12), s.cur = .job n e →
    let ea := (s.ra a + BitVec.ofInt 64 (o.toInt * 2 ^ z.toNat)).toNat
    let m := 2 ^ z.toNat
    (∀ x, ea % m = 0 → (s.core n).window ea m = some x →
      exec (.ldsp r a z o) s = .next (s.jobPut n e (.ldsp e r.toNat x m true) 4) ∧
      exec (.ldspu r a z o) s = .next (s.jobPut n e (.ldsp e r.toNat x m false) 4) ∧
      exec (.stsp r a z o) s = .next (s.jobPut n e (.sp e x ((leBytes m (s.rs r).toNat).map fun b => (b, s.rsT r))) 4)) ∧
    ((s.core n).stop = none → ea % m ≠ 0 ∨ (s.core n).window ea m = none →
      ∀ i, i = .ldsp r a z o ∨ i = .ldspu r a z o ∨ i = .stsp r a z o → ∃ u, exec i s = .next u ∧ s.trapsTo u n e 24 0)

/-! Atomics and strong accesses (R76, R364 to R370). -/

/-- R364 to R369: an atomic or strong access that meets no cause issues with its operands, to be performed at its home, and its stream
goes on.
R370: a contribution issues under its key, and the job's count for its address and phase goes up. -/
def Obligations.AtomicsIssue : Prop :=
  (∀ (s : State) (n : Nat) (e : Engine) (g : Guard) (d a b z : F6) (w x : BitVec 1) (va : Nat) (p : Phys) (det : Bool),
     s.cur = .job n e → (s.core n).guardOpen g → aOk a = true →
     let ea := (s.ra (a.setWidth 4)).toNat
     let go := fun (op : StrongOp) (opc m : Nat) (dst : Option Nat) (v cmp : BitVec 128) (t pair : Bool) =>
       (s.issueStrong (.job n e) (mkStrong e op m va p det dst v t cmp opc) pair).finish (.job n e) 4 1
     let m := if w = 1 then 4 else 8
     let v := (s.rs b).setWidth 128
     let rmw := fun (i : Instr) (opc : Nat) (host : Bool) =>
       s.strongOk ea m accAtomic host (s.rsT b) va p det → exec i s = .next (go (.rmw opc) opc m (some d.toNat) v ((s.rs d).setWidth 128) (s.rsT b) false)
     (sOk d = true → sOk b = true →
       rmw (.atadd g d a b w) 1 s.hostAtomics ∧ rmw (.atand g d a b w) 2 false ∧ rmw (.ator g d a b w) 3 false ∧ rmw (.atxor g d a b w) 4 false ∧
       rmw (.atmin g d a b w) 5 false ∧ rmw (.atmax g d a b w) 6 false ∧ rmw (.atminu g d a b w) 7 false ∧ rmw (.atmaxu g d a b w) 8 false ∧
       rmw (.atswp g d a b w) 9 s.hostAtomics ∧
       (s.strongOk ea m accAtomic s.hostAtomics (s.rsT b) va p det →
         exec (.atcas g d a b w) s = .next (go .cas 10 m (some d.toNat) v ((s.rs d).setWidth 128) (s.rsT b) false)) ∧
       (s.strongOk ea 4 accAtomic false (s.rsT b) va p det → exec (.atfadd g d a b) s = .next (go .fadd 12 4 (some d.toNat) v 0 (s.rsT b) false))) ∧
     (pairOk d = true → pairOk b = true → s.strongOk ea 16 accAtomic s.hostAtomics (s.rsT b || s.rsT (b + 1)) va p det →
       exec (.atcas16 g d a b) s = .next (go .cas16 11 16 (some d.toNat) (s.rs (b + 1) ++ s.rs b) (s.rs (d + 1) ++ s.rs d) (s.rsT b || s.rsT (b + 1)) true)) ∧
     (sOk d = true → z.toNat < 4 →
       (s.strongOk ea (2 ^ z.toNat) accStrongLoad true false va p det →
         exec (.ldS g d a z x) s = .next (go (.load (x == 1)) 13 (2 ^ z.toNat) (some d.toNat) 0 0 false false)) ∧
       (s.strongOk ea (2 ^ z.toNat) accStrongStore true (s.rsT d) va p det →
         exec (.stS g d a z) s = .next (go .store 14 (2 ^ z.toNat) none ((s.rs d).setWidth 128) 0 (s.rsT d) false))) ∧
     (pairOk d = true → z = 4 →
       (s.strongOk ea 16 accStrongLoad true false va p det →
         exec (.ldS g d a z x) s = .next (go (.load (x == 1)) 13 16 (some d.toNat) 0 0 false true)) ∧
       (s.strongOk ea 16 accStrongStore true (s.rsT d || s.rsT (d + 1)) va p det →
         exec (.stS g d a z) s = .next (go .store 14 16 none (s.rs (d + 1) ++ s.rs d) 0 (s.rsT d || s.rsT (d + 1)) false)))) ∧
  (∀ (s : State) (n : Nat) (e : Engine) (g : Guard) (a b : F6) (va : Nat) (p : Phys) (det : Bool) (ipa : Nat) (l : Leaf),
     s.cur = .job n e → (s.core n).guardOpen g → aOk a = true → sOk b = true →
     let ea := (s.ra (a.setWidth 4)).toNat
     (∀ x y, p ≠ .peer x y) → s.translate (s.cxnOf s.cur) (s.genOf s.cur) ea accAtomic = .ok p det ipa l → s.strongOk ea 4 accAtomic false (s.rsT b) va p det →
     let c := s.core n
     let pc := c.phst.toNat % 65536
     let r := c.aredNext va pc
     let i := (c.job.map (·.i)).getD 0
     let s1 := (s.setCore n r.2).issueStrong (.job n e) (mkStrong e (.ared i pc r.1) 4 va p det none ((s.rs b).setWidth 128) (s.rsT b) 0 0) false
     exec (.aredOrd g a b) s = .next (({ s1 with agenda := .ev (.aredContributionAck (.job n e)) :: s1.agenda } : State).finish (.job n e) 4 1))

/-! The vector engine (R171 to R206). -/

/-- R180 and R181: an element-wise word whose conditions hold consumes its sources and puts its elements, flags and taint at its
latency (Table 6-2).
Table 6-2: elements of 32-bit integers, signed or unsigned. -/
def Obligations.ElementwiseResults : Prop :=
  (∀ (s : State) (n : Nat) (e : Engine) (g : Guard) (d a b : F6) (p : BitVec 1), s.cur = .job n e → (s.core n).guardOpen g →
     let c := s.core n
     let h := c.sh
     let run := fun (i : Instr) (op : VOp) =>
       let v : VSpec :=
         { conds := [(op.okFor h.ty, 10), (!op.addend || vOk d, 10)], srcs := [(a, h.nb)] ++ (if op.binary then [(b, h.nb)] else [])
           dst := if op.addend then vOnly d h.nb else some (d, h.nb), interval := cdiv (h.n * h.w) 4096 }
       c.vReady v p → exec i s = .next (s.vDid n e p v fun t vs =>
         let r := vApply h.ty c.rm op (h.elems (vAt vs 0)) (if op.binary then h.elems (vAt vs 1) else []) (if op.addend then h.elems (c.vname d) else [])
         (t.putV n d h.nb (packRes h.w r) (op.lat h.ty)).putFlags n (resFlags r) (op.lat h.ty))
     run (.vadd g d a b p) .add ∧ run (.vsub g d a b p) .sub ∧ run (.vmul g d a b p) .mul ∧ run (.vmin g d a b p) .min ∧ run (.vmax g d a b p) .max ∧
     run (.vand g d a b p) .and ∧ run (.vor g d a b p) .or ∧ run (.vxor g d a b p) .xor ∧ run (.vshl g d a b p) .shl ∧ run (.vshr g d a b p) .shr ∧
     run (.vsra g d a b p) .sra ∧ run (.vmulh g d a b p) .mulh ∧ run (.vadds g d a b p) .adds ∧ run (.vsubs g d a b p) .subs ∧
     run (.vfma g d a b p) .fma ∧ run (.vfms g d a b p) .fms ∧ (b = 0 → run (.vabs g d a p) .abs ∧ run (.vneg g d a p) .neg)) ∧
  (∀ (rm : Rm) (sg : Bool) (x y z : BitVec 32),
     let v := fun (op : VOp) => (vElem (.int sg 32) rm op x.toNat y.toNat z.toNat).bits
     v .add = (x + y).toNat ∧ v .sub = (x - y).toNat ∧ v .mul = (x * y).toNat ∧ v .fma = (x * y + z).toNat ∧ v .fms = (z - x * y).toNat ∧
     v .and = (x &&& y).toNat ∧ v .or = (x ||| y).toNat ∧ v .xor = (x ^^^ y).toNat ∧ v .neg = (-x).toNat ∧
     v .shl = (x <<< (y.toNat % 32)).toNat ∧ v .shr = (x >>> (y.toNat % 32)).toNat ∧ v .sra = (x.sshiftRight (y.toNat % 32)).toNat)

/-- R182 to R185: compares, selects and predicates of a V word. -/
def Obligations.PredicateWords : Prop :=
  ∀ (s : State) (n : Nat) (e : Engine) (g : Guard) (d a b : F6) (k : BitVec 4) (cc : BitVec 2) (p h1 : BitVec 1), s.cur = .job n e →
    (s.core n).guardOpen g →
    let c := s.core n
    let h := c.sh
    let nb := h.nb
    let beat := cdiv (h.n * h.w) 4096
    let bitsOf := fun (x : F6) => c.vpBits x.toNat h.n
    let run := fun (i : Instr) (pk : BitVec 1) (v : VSpec) (put : State → List VVal → State) => c.vReady v pk → exec i s = .next (s.vDid n e pk v put)
    run (.vcmp g cc k a b p h1) p { conds := [(cmpOk h.ty (h1.toNat * 4 + cc.toNat), 10)], srcs := [(a, nb), (b, nb)], dst := none, interval := beat }
      (fun t vs => t.putVp n k.toNat (((h.elems (vAt vs 0)).zip (h.elems (vAt vs 1))).map fun z =>
        (cmpElem h.ty (h1.toNat * 4 + cc.toNat) z.1.1 z.2.1, z.1.2 || z.2.2))) ∧
    run (.vsel g d a b p) p { conds := [(vOk d && vpOk b, 10)], srcs := [(a, nb)], dst := vOnly d nb, interval := beat }
      (fun t vs => t.putV n d nb (packElems h.w (((bitsOf b).zip ((h.elems (vAt vs 0)).zip (h.elems (c.vname d)))).map fun z =>
        ((if z.1.1 then z.2.1 else z.2.2).1, (if z.1.1 then z.2.1 else z.2.2).2 || z.1.2))) 2) ∧
    run (.vpand g d a b p) 0 { conds := [(vpOk d && vpOk a && vpOk b, 10)], srcs := [], dst := none, interval := beat }
      (fun t _ => t.putVp n d.toNat (((bitsOf a).zip (bitsOf b)).map fun z => (z.1.1 && (z.2.1 != (p == 1)), z.1.2 || z.2.2))) ∧
    run (.vpor g d a b p) 0 { conds := [(vpOk d && vpOk a && vpOk b, 10)], srcs := [], dst := none, interval := beat }
      (fun t _ => t.putVp n d.toNat (((bitsOf a).zip (bitsOf b)).map fun z => (z.1.1 || (z.2.1 != (p == 1)), z.1.2 || z.2.2))) ∧
    run (.vpxor g d a b p) 0 { conds := [(vpOk d && vpOk a && vpOk b, 10)], srcs := [], dst := none, interval := beat }
      (fun t _ => t.putVp n d.toNat (((bitsOf a).zip (bitsOf b)).map fun z => (z.1.1 != (z.2.1 != (p == 1)), z.1.2 || z.2.2))) ∧
    run (.vany g k a p) 0 { conds := [(vpOk a, 10)], srcs := [], dst := none, interval := 1 }
      (fun t _ => if p = 1 then t.resolve n .V (1#16 <<< k.toNat) true ((bitsOf a).any Prod.fst) 2
        else t.putP (.job n e) k.toNat ((bitsOf a).any Prod.fst) ((bitsOf a).any Prod.snd) 2) ∧
    run (.vall g k a p) 0 { conds := [(vpOk a, 10)], srcs := [], dst := none, interval := 1 }
      (fun t _ => if p = 1 then t.resolve n .V (1#16 <<< k.toNat) true ((bitsOf a).all Prod.fst) 2
        else t.putP (.job n e) k.toNat ((bitsOf a).all Prod.fst) ((bitsOf a).any Prod.snd) 2) ∧
    run (.vpmov g d a 0) 0 { conds := [(vpOk d && vOk a, 10)], srcs := if isChan a then [] else [(a, nb)], dst := none, interval := beat }
      (fun t vs => t.putVp n d.toNat ((h.elems (vAt vs 0)).map fun x => (x.1 != 0, x.2))) ∧
    run (.vpmov g d a 1) 0 { conds := [(vOk d && vpOk a, 10)], srcs := [], dst := vOnly d nb, interval := beat }
      (fun t _ => t.putV n d nb (packElems h.w ((bitsOf a).map fun x => (if x.1 then 2 ^ h.w - 1 else 0, x.2))) 2)

/-- R186 to R189: the conversions.
R190: reductions along rows and columns. -/
def Obligations.ConversionsAndReductions : Prop :=
  (∀ (s : State) (n : Nat) (e : Engine) (g : Guard) (d a b : F6) (ty : BitVec 5) (src : ElTy) (p : BitVec 1), s.cur = .job n e →
     (s.core n).guardOpen g → ElTy.ofCode ty.toNat = some src →
     let c := s.core n
     let h := c.sh
     let run := fun (i : Instr) (v : VSpec) (put : State → List VVal → State) => c.vReady v p → exec i s = .next (s.vDid n e p v put)
     run (.vcvt g d a ty p)
       { conds := cvtConds h (some src), srcs := [(a, cvtBytes src h.n)], dst := some (d, h.nb), interval := max h.b (h.beats src.width) }
       (fun t vs => let r := cvtResults h c.rm src (vAt vs 0)
         (t.putV n d h.nb (packRes h.w r) 4).putFlags n (resFlags r) 4) ∧
     run (.vcvts g d a b p)
       { conds := [(vOk b, 10), (decide (h.ty ≠ .fp .f32) && !h.ty.isRaw, 10), (decide (h.n * 32 ≤ 8192), 8)]
         srcs := [(a, 4 * h.n)], dst := some (d, h.nb), interval := max h.b (h.beats 32) }
       (fun t vs => let r := ((unpackElems 32 h.n (vAt vs 0)).zip (unpackElems 16 h.n (c.vname b))).map fun z => (cvtsElem h.ty z.2.1 z.1.1, z.1.2 || z.2.2)
         (t.putV n d h.nb (packRes h.w r) 4).putFlags n (resFlags r) 4) ∧
     run (.vquant g d a b p)
       { conds := [(sOk b, 10), (h.ty = .fp .f32 || h.ty = .fp .f16 || h.ty = .fp .bf16, 10), (decide (h.n % 64 = 0), 8)]
         srcs := [(a, h.nb)], dst := some (d, 1024), interval := 2 }
       (fun t vs => let r := quantRecord h (W64.f (s.rs b) 31 0) (W64.f (s.rs b) 39 32) (s.rsT b) (vAt vs 0)
         (t.putV n d 1024 r.1 20).putFlags n r.2 20)) ∧
  (∀ (s : State) (n : Nat) (e : Engine) (g : Guard) (d a : F6) (p : BitVec 1), s.cur = .job n e → (s.core n).guardOpen g →
     let c := s.core n
     let h := c.sh
     let run := fun (i : Instr) (op : RedOp) (groups : List (List Nat)) =>
       let v : VSpec := { conds := [(vOk d, 10), (!h.ty.isRaw, 10)], srcs := [(a, h.nb)], dst := vOnly d h.nb, interval := h.b }
       c.vReady v p → exec i s = .next (s.vDid n e p v fun t vs =>
         let es := h.elems (vAt vs 0)
         let r := groups.map fun l => (reduceElems h.ty c.rm op (l.map fun i => (es.getD i (0, false)).1), l.any fun i => (es.getD i (0, false)).2)
         (t.putV n d h.nb (packRes h.w r) 6).putFlags n (resFlags r) 6)
     let rows := (List.range h.rows).map fun r => (List.range h.cols).map fun k => r * h.cols + k
     let cols := (List.range h.cols).map fun k => (List.range h.rows).map fun r => r * h.cols + k
     run (.vrsum g d a p) .sum rows ∧ run (.vcsum g d a p) .sum cols ∧ run (.vrmax g d a p) .max rows ∧ run (.vcmax g d a p) .max cols ∧
     run (.vrmin g d a p) .min rows ∧ run (.vcmin g d a p) .min cols)

/-- R191 to R194: permutes, broadcasts, the transpose and moves: element i of the result is the element the rule names. -/
def Obligations.MoveResults : Prop :=
  ∀ (s : State) (n : Nat) (e : Engine) (g : Guard) (d a b : F6) (p : BitVec 1), s.cur = .job n e → (s.core n).guardOpen g →
    let c := s.core n
    let h := c.sh
    let x := (s.rs b).toNat
    let run := fun (i : Instr) (pk : BitVec 1) (v : VSpec) (put : State → List VVal → State) => c.vReady v pk → exec i s = .next (s.vDid n e pk v put)
    let move := fun (t : State) (v : VVal) (tn : Bool) (lat : Nat) (src : Nat → Nat) =>
      t.putV n d h.nb (packElems h.w ((List.range h.n).map fun i => (((h.elems v).getD (src i) (0, false)).1, ((h.elems v).getD (src i) (0, false)).2 || tn))) lat
    run (.vperm g d a b p) p
      { conds := [(vOk d, 10), (decide (h.n ≤ 512), 8)], srcs := [(a, h.nb), (b, 2 * h.n)], dst := vOnly d h.nb, interval := h.b }
      (fun t vs => t.putV n d h.nb (packElems h.w ((unpackElems 16 h.n (vAt vs 1)).map fun z =>
        ((if z.1 < h.n then (h.elems (vAt vs 0)).getD z.1 (0, false) else (0, false)).1,
          (if z.1 < h.n then (h.elems (vAt vs 0)).getD z.1 (0, false) else (0, false)).2 || z.2))) 4) ∧
    run (.vbcr g d a b p) p
      { conds := [(vOk d && sOk b, 10), (decide (x < h.rows), 8)], srcs := [(a, h.nb)], dst := vOnly d h.nb, interval := h.b }
      (fun t vs => move t (vAt vs 0) (s.rsT b) 4 fun i => x * h.cols + i % h.cols) ∧
    run (.vbcc g d a b p) p
      { conds := [(vOk d && sOk b, 10), (decide (x < h.cols), 8)], srcs := [(a, h.nb)], dst := vOnly d h.nb, interval := h.b }
      (fun t vs => move t (vAt vs 0) (s.rsT b) 4 fun i => i / h.cols * h.cols + x) ∧
    run (.vtrn g d a p) p { conds := [(vOk d, 10)], srcs := [(a, h.nb)], dst := vOnly d h.nb, interval := h.b }
      (fun t vs => move t (vAt vs 0) false 4 fun i => i % h.rows * h.cols + i / h.rows) ∧
    run (.vmov g d a p) p { conds := [], srcs := [(a, h.nb)], dst := some (d, h.nb), interval := h.b }
      (fun t vs => move t (vAt vs 0) false 2 fun i => i) ∧
    run (.vbcs g d b) 0 { conds := [(vOk d && sOk b, 10)], srcs := [], dst := vOnly d h.nb, interval := h.b }
      (fun t _ => t.putV n d h.nb (packElems h.w (List.replicate h.n (x, s.rsT b))) 2)

/-- R195 and R197: scratchpad loads, stores, gathers and scatters of vectors.
R196: vector loads and stores of context memory, as plain accesses. -/
def Obligations.VectorMemory : Prop :=
  (∀ (s : State) (n : Nat) (e : Engine) (g : Guard) (d a b : F6) (p : BitVec 1), s.cur = .job n e → (s.core n).guardOpen g →
     let c := s.core n
     let h := c.sh
     let x := (s.rs a).toNat
     let run := fun (i : Instr) (pk : BitVec 1) (v : VSpec) (put : State → List VVal → State) => c.vReady v pk → exec i s = .next (s.vDid n e pk v put)
     let at_ := fun (m : Nat) => (c.window x m).getD 0
     let el := fun (k : Nat) => (c.window (x + k * h.w / 8) (h.w / 8)).getD 0
     run (.vld g d a) 0
       { conds := [(sOk a, 10), (decide (x % 16 = 0), 24), ((c.window x h.nb).isSome, 24)], srcs := [], dst := some (d, h.nb), interval := h.b }
       (fun t _ =>
         let k := d.toNat - 48
         let ch := c.chan k
         if isChan d then (t.setCore n { c.setChan k (ch.reserve c.seq) with seq := c.seq + 1 }).addPend n 4 false
           (.vldChan k c.seq ch.epoch ((c.window (ch.slot ch.pidx) h.nb).getD 0) (at_ h.nb) h.nb)
         else t.addPend n 4 false (.vld (c.physV d) (at_ h.nb) h.nb)) ∧
     run (.vst g a b p) p
       { conds := [(sOk a, 10), (decide (x % 16 = 0), 24), ((c.window x h.nb).isSome, 24)], srcs := [(b, h.nb)], dst := none, interval := h.b }
       (fun t vs => t.addPend n 4 false (.sp .V (at_ h.nb) ((vAt vs 0).bytes h.nb))) ∧
     run (.vgath g d a b p) p
       { conds := [(vOk d && sOk a, 10)] ++ c.gatherConds x b 0, srcs := [(b, 2 * h.n)], dst := vOnly d h.nb, interval := cdiv h.n 32 }
       (fun t vs => t.addPend n (3 + cdiv h.n 32) false (.vgath (c.physV d) (h.w / 8) ((unpackElems 16 h.n (vAt vs 0)).map fun z => (el z.1, z.2)))) ∧
     run (.vscat g d a b p) p
       { conds := [(sOk a, 10)] ++ c.gatherConds x b (earlier b [(d, h.nb)]), srcs := [(d, h.nb), (b, 2 * h.n)], dst := none, interval := cdiv h.n 32 }
       (fun t vs => ((h.elems (vAt vs 0)).zip (unpackElems 16 h.n (vAt vs 1))).foldl
         (fun u z => u.addPend n (3 + cdiv h.n 32) false (.sp .V (el z.2.1) (tainted (z.1.2 || z.2.2) (leBytes (h.w / 8) z.1.1)))) t)) ∧
  (∀ (s : State) (n : Nat) (g : Guard) (d a b : F6) (p : BitVec 1) (ps : List (Nat × Nat × Phys × Bool)), s.cur = .job n .V → (s.core n).guardOpen g →
     let c := s.core n
     let nb := c.sh.nb
     let va := (s.rs a).toNat
     let v : VSpec := { conds := [(sOk a, 10)], srcs := [], dst := some (d, nb), interval := c.sh.b }
     let w : VSpec := { conds := [(sOk a, 10)], srcs := [(b, nb)], dst := none, interval := c.sh.b }
     va % 16 = 0 →
     (c.vReady v 0 → s.accessOk (.job n .V) va nb accLoad ps →
       let x := s.loadRange n va ps
       x.2.poison = 0 →
       let s1 := x.1.putV n d nb (VVal.ofBytes x.2.bytes) x.2.lat true
       exec (.vldm g d a) s = .next (((s1.setCore n ((s1.core n).consume [])).perf (s.cxnOf (.job n .V)) 3 1).finish (.job n .V) 4 c.sh.b)) ∧
     (c.vReady w p → s.accessOk (.job n .V) va nb accStore ps →
       let bs := (c.source (b, nb, 0)).bytes nb
       (∀ x ∈ ps, s.taintStop (.job n .V) x.2.2.2 (taintOf bs) = false) →
       (∀ x ∈ (s.core n).overflow ps, s.refused (s.cxnOf (.job n .V)) x.2.2.1 true false = false) →
       let s1 := s.storePieces n .V bs ps
       exec (.vstm g a b p) s = .next (((if p = 1 then s1 else s1.setCore n ((s1.core n).consume [(b, nb)])).perf (s.cxnOf (.job n .V)) 3 1).finish (.job n .V) 4 c.sh.b)))

/-- R200, R202 to R205, R172: special functions, random draws, bucketing, the expert counters and VSHAPE. -/
def Obligations.SpecialVectorResults : Prop :=
  ∀ (s : State) (n : Nat) (e : Engine) (g : Guard) (d a b : F6) (p : BitVec 1), s.cur = .job n e → (s.core n).guardOpen g →
    let c := s.core n
    let h := c.sh
    let run := fun (i : Instr) (pk : BitVec 1) (v : VSpec) (put : State → List VVal → State) => c.vReady v pk → exec i s = .next (s.vDid n e pk v put)
    let sf := fun (i : Instr) (fn : SfFn) => run i p
      { conds := [(decide (h.ty = .fp .f32), 10)], srcs := [(a, h.nb)], dst := some (d, h.nb), interval := cdiv h.n 32 }
      (fun t vs => t.putV n d h.nb (packElems h.w ((h.elems (vAt vs 0)).map fun x => (specialFn c.coefAt fn x.1, x.2))) (11 + cdiv h.n 32))
    sf (.vexp2 g d a p) .exp2 ∧ sf (.vlog2 g d a p) .log2 ∧ sf (.vrcp g d a p) .rcp ∧ sf (.vrsq g d a p) .rsq ∧ sf (.vsinpi g d a p) .sinpi ∧
    sf (.vcospi g d a p) .cospi ∧ sf (.vtanh g d a p) .tanh ∧
    run (.vrand g d a b) 0 { conds := [(sOk a && sOk b, 10)], srcs := [], dst := some (d, 1024), interval := 2 }
      (fun t _ => t.putV n d 1024 (packElems 32 ((randWords (s.rs a).toNat (s.rs b).toNat).map fun w => (w, s.rsT a || s.rsT b))) 6) ∧
    (let e0 := W64.f (s.rs d) 43 32
     let ne := W64.f (s.rs d) 56 44
     let o := W64.f (s.rs d) 31 0
     let lat := 16 + cdiv h.n 16 + cdiv ne 64
     run (.vbucket g d a b p) p
       { conds := [(sOk d, 10), (h.ty = .int false 16 || h.ty = .int false 32, 10), (decide (0 < ne) && decide (e0 + ne ≤ 4096), 10),
           (decide (o % 16 = 0), 24), ((c.window o (8 * ne + 4 * h.n)).isSome, 24)]
         srcs := [(a, h.nb), (b, h.nb)], dst := none, interval := cdiv h.n 16 }
       (fun t vs => (t.addPend n lat false (.sp .V ((c.window o (8 * ne + 4 * h.n)).getD 0)
         (bucketWords e0 ne (s.rsT d) (h.elems (vAt vs 0)) (h.elems (vAt vs 1))))).addPend n lat false (.expert (bucketIncs (h.elems (vAt vs 0)))))) ∧
    run (.ecnt g d a) 0 { conds := [(vOk d && sOk a, 10)], srcs := [], dst := vOnly d 1024, interval := 1 } (fun t _ =>
      let x := s.ctx (s.cxnOf (.job n e))
      t.putV n d 1024 (packElems 32 ((List.range 128).flatMap fun j =>
        let k := (s.rs a).toNat + j
        let own := c.epend.filter (·.1 == k)
        let v := ((aget? x.ectr k).getD 0).toNat + own.foldl (fun m y => m + y.2.2) 0
        let tn := x.ectrT.has k || own.any (·.2.1)
        if k < 4096 then [(v % 2 ^ 32, tn), (v / 2 ^ 32 % 2 ^ 32, tn)] else [(0, false), (0, false)])) 192) ∧
    (sOk a = true → lowest (shapeConds c.vg (s.rs a)) = 0 →
      exec (.vshape g a) s = .next (((s.modCore n fun c => { c with shape := s.rs a &&& shapeMask }).perf (s.cxnOf (.job n e)) 3 1).finish (.job n e) 4 1))

/-! Directional instructions (R207 to R221). -/

/-- R208 to R221: a directional word puts its direction and norm, or its scalar or vector, at its latency. -/
def Obligations.DirectionalResults : Prop :=
  ∀ (s : State) (n : Nat) (e : Engine) (g : Guard) (d a b : F6) (p : BitVec 1), s.cur = .job n e → (s.core n).guardOpen g →
    let c := s.core n
    let h := c.sh
    let x := c.dval a.toNat h.n
    let y := c.dval b.toNat h.n
    let tx := c.dtaint a.toNat h.n
    let ty := c.dtaint b.toNat h.n
    let fits := (decide (h.n ≤ 256), 8)
    let run := fun (i : Instr) (pk : BitVec 1) (v : VSpec) (put : State → List VVal → State) => c.vReady v pk → exec i s = .next (s.vDid n e pk v put)
    let plain := fun (i : Instr) (ok : Bool) (k : Nat) (put : State → State) =>
      run i 0 { conds := [(ok, 10), fits], srcs := [], dst := none, interval := k } fun t _ => put t
    run (.dnorm g d a p) p
      { conds := [(dOk d, 10), fits, (decide (h.ty ≠ .raw 8) && decide (h.ty ≠ .raw 32), 10)], srcs := [(a, h.nb)], dst := none, interval := 2 }
      (fun t vs =>
        let es := h.elems (vAt vs 0)
        t.putD n d (if h.ty = .raw 16 then ⟨es.map fun x => toS 16 x.1, 0⟩ else dnorm (es.map fun x => elemVal h.ty x.1)) (es.any Prod.snd) 24) ∧
    run (.dexp g d a 0) 0 { conds := [(dOk a, 10), fits], srcs := [], dst := some (d, h.n * 32 / 8), interval := h.beats 32 }
      (fun t _ => t.putV n d (h.n * 32 / 8) (packElems 32 ((dexp .f32 x).map fun z => (z, tx))) 8) ∧
    run (.dexp g d a 1) 0 { conds := [(dOk a, 10), fits], srcs := [], dst := some (d, h.n * 16 / 8), interval := h.beats 16 }
      (fun t _ => t.putV n d (h.n * 16 / 8) (packElems 16 ((dexp .bf16 x).map fun z => (z, tx))) 8) ∧
    plain (.ddot g d a b 0) (dOk a && dOk b && sOk d) 1 (fun t => t.putS (.job n e) d.toNat (BitVec.ofInt 64 (ddot x y)) (tx || ty) 6) ∧
    plain (.ddot g d a b 1) (dOk a && dOk b && vOk d) 1
      (fun t => t.addPend n 6 false (.v (c.physV d) (BitVec.ofNat 8192 (ofI 32 (ddot x y))) (if tx || ty then 1 else 0) 0 4)) ∧
    plain (.ddotm g d a b) (vOk d && dOk a && dOk b) 4 (fun t =>
      let js := List.range (16 - b.toNat)
      let tj := tx || js.any fun j => c.dtaint (b.toNat + j) h.n
      t.putV n d 1024 (packElems 32 (js.map fun j => (ofI 32 (ddot x (c.dval (b.toNat + j) h.n)), tj))) 10) ∧
    plain (.dscale g d a b) (dOk d && dOk a && sOk b) 1 (fun t => t.putD n d (dscale x ((s.rs b).setWidth 32)) (tx || s.rsT b) 6) ∧
    plain (.dadd g d a b) (dOk d && dOk a && dOk b) 2 (fun t => t.putD n d (dadd 1 x y) (tx || ty) 28) ∧
    plain (.dsub g d a b) (dOk d && dOk a && dOk b) 2 (fun t => t.putD n d (dadd (-1) x y) (tx || ty) 28) ∧
    plain (.dneg g d a) (dOk d && dOk a) 1 (fun t => t.putD n d (dneg x) tx 6) ∧
    plain (.dtest g d a) (sOk d && dOk a) 1 (fun t => t.putS (.job n e) d.toNat (BitVec.ofNat 64 (dtest x)) tx 6) ∧
    run (.dmovn g d a) 0 { conds := [(sOk d && dOk a, 10)], srcs := [], dst := none, interval := 1 }
      (fun t _ => t.putS (.job n e) d.toNat ((vget c.norms (a.toNat % 16) 0).signExtend 64) (c.normT.getLsbD (a.toNat % 16)) 2) ∧
    run (.dsetn g d a) 0 { conds := [(dOk d && sOk a, 10)], srcs := [], dst := none, interval := 1 }
      (fun t _ => (if (s.rs a).setWidth 32 = zeroNorm then t.addPend n 1 false (.d d.toNat 0 (if s.rsT a then BitVec.allOnes 256 else 0)) else t).addPend
        n 3 false (.n d.toNat ((s.rs a).setWidth 32) (s.rsT a)))

/-! The matrix engine (R222 to R248). -/

/-- R223, R226 to R231, R232: configuration, preloads and an MMA that meets no cause.
R235 to R240: joins run on an idle array and else wait with what they have read; MWAITF runs whatever command is posted, in its own place, or
discards or holds it by its guard. That MSPILL writes all its bytes at cycle x, and that a window is mapped as the word issues, is the model's choice
(DESIGN CHOICE, log 37). -/
def Obligations.MatrixResults : Prop :=
  (∀ (s : State) (n : Nat) (g : Guard) (a : F6) (p : BitVec 1) (x : MmaWord), s.cur = .job n .M → (s.core n).guardOpen g →
     let c := s.core n
     let put := fun (f : MEng → MEng) => s.jobDid n .M 4 1 fun c => { c with m := f c.m }
     (∀ y, c.chanOk a = true → (isChan a = true → (c.chan (a.toNat - 48)).avail ≠ 0) → c.mmaBase a 0 % 16 = 0 →
       c.window (c.mmaBase a 0) 16 = some y →
       exec (.mlda g a p) s = .next (put fun m => { m with pta := (BitVec.ofNat 32 y, true) }) ∧
       exec (.mldb g a p) s = .next (put fun m => { m with ptb := (BitVec.ofNat 32 y, true) })) ∧
     (sOk a = true → (s.rs a).toNat % 4 = 0 →
       exec (.mldas g a) s = .next (put fun m => { m with sca := (s.rs a).setWidth 32 }) ∧
       exec (.mldbs g a) s = .next (put fun m => { m with scb := (s.rs a).setWidth 32 })) ∧
     (sOk a = true → exec (.mcfg g a) s = .next (put fun m => { m with mctl := s.rs a &&& 0x0000FFFFFFFF3FFF })) ∧
     (x.d = s.wordD (.job n .M) → lowest (c.mmaCauses x) = 0 →
       (c.mmaReady x = true →
         exec (.mma g x.a x.b x.p x.z x.prof x.fa x.fb x.km1) s = .next (s.jobDid n .M 8 1 fun c => c.mmaAccept x (s.now n))) ∧
       (c.mmaReady x = false → exec (.mma g x.a x.b x.p x.z x.prof x.fa x.fb x.km1) s = .next s))) ∧
  (∀ (s : State) (n : Nat) (g : Guard) (d a : F6), s.cur = .job n .M → (s.core n).guardOpen g → (∀ x y, (s.core n).strM.hold ≠ .join x y) →
     let c := s.core n
     let x := s.rs d
     let y := s.rs a
     let o := W64.f x 31 0
     let spills := (c.window o (spillSize x).1).isSome = true ∧
       (x.getLsbD 63 = true → (W64.f x 47 32 + W64.f x 55 48 + 1) * 512 ≤ 65536 * c.ag)
     (c.m.mmas = [] →
       exec (.mzero g) s = .next (s.jobDid n .M 4 1 fun c => { c with m := { c.m with cells := [], cellT := [] } }) ∧
       (sOk d = true → sOk a = true → 1 ≤ y.toNat → y.toNat ≤ 128 → x.toNat % 512 = 0 → x.toNat + 512 * y.toNat ≤ 65536 * c.ag →
         exec (.mshift g d a) s = .next (s.jobDid n .M 4 y.toNat (·.shiftOut x.toNat y.toNat))) ∧
       (sOk d = true → o % 16 = 0 → spills →
         exec (.mspill g d) s = .next (s.jobDid n .M 4 (spillSize x).2
           fun k => k.spill ((c.window o (spillSize x).1).getD 0) (c.spillBytes x (s.now n)))) ∧
       (sOk d = true → o % 16 = 0 → (c.window o 67712).isSome = true → c.imageOk (c.fillImage (c.mapped x 67712)) = true →
         let bs := c.fillImage (c.mapped x 67712)
         exec (.mfill g d) s = .next (s.jobDid n .M 4 (fillTime bs) fun c => { c with m := { c.m.load bs with
           mmas := (imageMmas bs (s.now n + fillTime bs) fun _ => 0).map fun y => { y with ach := none, bch := none } } })) ∧
       (sOk d = true → exec (.mstat g d) s = .next (s.jobPut n .M
         (.s .M d.toNat (BitVec.ofNat 64 (c.m.mcnt.toNat + bitAt (!c.m.cellT.isEmpty) 16)) false) 1))) ∧
     (c.m.mmas ≠ [] → exec (.mzero g) s = .next (s.modCore n fun c => c.setStr .M { c.str .M with hold := .join 0 0 })) ∧
     (c.m.follow = [] → exec (.mwaitf g) s = .next s) ∧
     (∀ w p posted rest, c.m.follow = (w, p, posted) :: rest → posted < s.now n →
       let run := fun (f : Core → Core) => exec (.mwaitf g) s = .next (s.jobDid n .M 4 1 fun c => { f c with m := { (f c).m with follow := rest } })
       let put := fun (f : MEng → MEng) => run fun c => { c with m := f c.m }
       let cmd := decodeM w p
       (∀ pg, c.guardOpen pg →
         (∀ b pk y, c.chanOk b = true → (isChan b = true → (c.chan (b.toNat - 48)).avail ≠ 0) → c.mmaBase b 0 % 16 = 0 → c.window (c.mmaBase b 0) 16 = some y →
           (cmd = .ok (.mlda pg b pk) → put fun m => { m with pta := (BitVec.ofNat 32 y, true) }) ∧
           (cmd = .ok (.mldb pg b pk) → put fun m => { m with ptb := (BitVec.ofNat 32 y, true) })) ∧
         (∀ b, sOk b = true → (s.rs b).toNat % 4 = 0 →
           (cmd = .ok (.mldas pg b) → put fun m => { m with sca := (s.rs b).setWidth 32 }) ∧
           (cmd = .ok (.mldbs pg b) → put fun m => { m with scb := (s.rs b).setWidth 32 })) ∧
         (∀ b, sOk b = true → cmd = .ok (.mcfg pg b) → put fun m => { m with mctl := s.rs b &&& mctlMask }) ∧
         (c.m.mmas = [] → cmd = .ok (.mzero pg) → put fun m => { m with cells := [], cellT := [] }) ∧
         (∀ v : MmaWord, v.d = fld w 14 6 → cmd = .ok (.mma pg v.a v.b v.p v.z v.prof v.fa v.fb v.km1) → lowest (c.mmaCauses v) = 0 →
           (c.mmaReady v = true → run fun c => c.mmaAccept v (s.now n)) ∧ (c.mmaReady v = false → exec (.mwaitf g) s = .next s)) ∧
         (∀ r : DecodeReject, cmd = .error r → r.guard = pg → c.stop = none → ∃ u, exec (.mwaitf g) s = .next u ∧ s.trapsTo u n .M r.cause 0)) ∧
       (∀ i pg len, cmd = .ok i → guardedWord i = some (pg, len) →
         ((∃ pk, i = .mlda pg d pk ∨ i = .mldb pg d pk) ∨ i = .mldas pg d ∨ i = .mldbs pg d ∨ i = .mcfg pg d ∨ i = .mzero pg ∨ (∃ b pk z pr fa fb km, i = .mma pg d b pk z pr fa fb km)) →
         (c.guardShut pg → run id) ∧ (pg ≠ 0 → pg ≠ 16 → c.gres.getLsbD (pg.toNat % 16) = false → exec (.mwaitf g) s = .next s)) ∧
       (∀ i pg b, cmd = .ok i → (i = .mshift pg d b ∨ i = .mspill pg d ∨ i = .mfill pg d ∨ i = .mstat pg d ∨ i = .mwaitf pg) → c.stop = none →
         ∃ u, exec (.mwaitf g) s = .next u ∧ s.trapsTo u n .M 10 0)) ∧
     (∀ w p posted rest, c.m.follow = (w, p, posted) :: rest → s.now n ≤ posted → exec (.mwaitf g) s = .next s))

/-- R231, R235 and R228: the array's events of a core: MMAs start, take steps and finish by themselves, and a waiting join goes on. -/
def Obligations.ArrayEvents : Prop :=
  ∀ (s : State) (n : Nat), 
    let c := s.core n
    let now := s.now n
    let only := fun (t : State) => t = { s with cores := t.cores, ctxs := t.ctxs } ∧ ∀ k, k ≠ n → t.core k = s.core k
    (∃ t, exec (.mmaStart n) s = .next t ∧ only t ∧
      t.core n = { c with m := { c.m with mmas := c.m.mmas.map fun x => if x.start ≤ now then { x with started := true } else x } }) ∧
    (((s.groupOf n).map (·.stand)).getD false = false →
      ∃ t, exec (.arrayStep n) s = .next t ∧ only t ∧ t.core n = c.arrayCycle now ∧
        (∀ m, c.m.mmas = [m] → m.started = true → m.resume ≤ now → m.fstep < m.steps →
          (t.core n).m.mmas = [if m.fph + 1 = m.tau then { m with fstep := m.fstep + 1, fph := 0 } else { m with fph := m.fph + 1 }])) ∧
    (∃ t, exec (.mmaFin n) s = .next t ∧ only t ∧
      (∀ m ms, c.m.mmas = m :: ms → m.steps ≤ m.fstep → m.fin ≤ now →
        (t.core n).m = { c.m with mmas := ms, mcnt := c.m.mcnt + 1 }) ∧
      (∀ m ms, c.m.mmas = m :: ms → m.fstep < m.steps ∨ now < m.fin → t.core n = c)) ∧
    (∀ x y g, c.strM.hold = .join x y → c.m.mmas = [] →
      let s1 := { s with cur := .job n .M }
      s1.headAt (.job n .M) c.strM.pc.toNat = .instr (.mzero g) 4 →
      exec (.joinStart n) s = .next (s1.jobDid n .M 4 1 fun c => { c with m := { c.m with cells := [], cellT := [] } }))

/-! The copy engine (R249 to R274, R480). -/

/-- R252, R255 to R259, R261, R262: an affine copy, a fill, a drain, a gather and a scatter that meet no cause issue under a free tag. That a gather or
scatter which skips every index lasts no less than four cycles is the model's choice (DESIGN CHOICE, log 39). -/
def Obligations.CopiesIssue : Prop :=
  ∀ (s : State) (n : Nat) (g : Guard) (d a b tag : F6) (nd es : BitVec 2) (f : BitVec 1) (due : BitVec 16) (desc : BitVec 512),
    s.cur = .job n .X → (s.core n).guardOpen g → sOk b = true →
    let c := s.core n
    let w := [1, 2, 4, 16].getD es.toNat 1
    let k := nd.toNat + 1
    let total := affTotal desc k w
    let de := copyEnd (s.rs d)
    let ae := copyEnd (s.rs a)
    let free := fun (t : Nat) => (c.tag t).infl = false ∧ c.copy? t = none
    (c.descriptor (s.rs b) 64 = some desc → (f = 0 ∨ followOk (BitVec.ofNat 32 (descNat desc 48 4)) = true) → 0 < total → total ≤ 2 ^ 24 →
      free tag.toNat →
      (sOk d = true → sOk a = true → de.ok = true → ae.ok = true → affAligned desc k w (some de) (some ae) = true →
        let foot := s.footprint n accCopyRead (affElts desc k w (some de) (some ae))
        foot.fine → ∃ t, exec (.xcopy g d a b tag nd es f due) s = .next t ∧
          s.copyIssued t n .X tag.toNat .xcopy (max due.toNat (max foot.src foot.dst + cdiv total 64)) 8 2) ∧
      (isChan d = true → sOk a = true → ae.ok = true → affAligned desc k w none (some ae) = true →
        lowest (c.chanConds (d.toNat - 48) total) = 0 →
        let foot := s.footprint n accCopyRead (affElts desc k w none (some ae))
        foot.fine → ∃ t, exec (.xfill g d a b tag nd es f due) s = .next t ∧
          s.copyIssued t n .X tag.toNat .xfill (max due.toNat (foot.src + cdiv (c.chan (d.toNat - 48)).size 64)) 8 2) ∧
      (sOk d = true → isChan a = true → de.ok = true → affAligned desc k w (some de) none = true →
        lowest (c.chanConds (a.toNat - 48) total) = 0 →
        let foot := s.footprint n accCopyRead (affElts desc k w (some de) none)
        foot.fine → ∃ t, exec (.xdrain g d a b tag nd es f due) s = .next t ∧
          s.copyIssued t n .X tag.toNat .xdrain (max due.toNat (foot.dst + cdiv (c.chan (a.toNat - 48)).size 64)) 8 2)) ∧
    (c.descriptor (s.rs b) 32 = some desc → sOk d = true → sOk a = true → de.ok = true → ae.ok = true →
      let idxa := descNat desc 0 4
      let nidx := descNat desc 4 4
      let rb := descNat desc 8 4
      let str := descNat desc 12 4
      let ib := if descNat desc 16 1 = 0 then 2 else 4
      let t := descNat desc 17 1 % 64
      let lat := fun (f : Foot) => max (descNat desc 20 4) (max (max f.src f.dst) 4 + cdiv nidx 16 + cdiv (nidx * rb) 64)
      1 ≤ nidx → nidx ≤ 65536 → 4 ≤ rb → rb ≤ 65536 → rb % 4 = 0 → descNat desc 16 1 ≤ 1 → nidx * rb ≤ 2 ^ 24 → idxa % 4 = 0 →
      de.addr % 4 = 0 → ae.addr % 4 = 0 → str % 4 = 0 → free t → ∀ base, c.window idxa (nidx * ib) = some base →
      let xs := (List.range nidx).map fun q => let l := c.spSeen .X (base + q * ib) ib; (leNat (bytesOf l), taintOf l)
      let fg := s.footprint n accCopyRead (idxElts true de ae rb str (2 ^ (8 * ib) - 1) xs)
      let fs := s.footprint n accCopyRead (idxElts false de ae rb str (2 ^ (8 * ib) - 1) xs)
      (fg.fine → ∃ u, exec (.xgath g d a b) s = .next u ∧ s.copyIssued u n .X t .xgath (lat fg) 4 1) ∧
      (fs.fine → ∃ u, exec (.xscat g d a b) s = .next u ∧ s.copyIssued u n .X t .xscat (lat fs) 4 1))

/-- R263 to R267, R269: collectives and fetches that meet no cause issue; XPREF starts tier fetches, asks for the lines of what is
there, and goes on. -/
def Obligations.FetchesIssue : Prop :=
  ∀ (s : State) (n : Nat) (g : Guard) (d a b tag : F6) (due : BitVec 20) (ty : BitVec 5) (rop : BitVec 3) (duex : BitVec 12) (desc : BitVec 512)
    (ps : List (Nat × Nat × Phys)) (tab : List Nat), s.cur = .job n .X → (s.core n).guardOpen g → sOk d = true → sOk a = true → sOk b = true →
    let c := s.core n
    let de := copyEnd (s.rs d)
    let ae := copyEnd (s.rs a)
    (let va := (s.rs a).toNat
     let len := W64.f (s.rs b) 31 0
     exec (.xpref g a b) s = .next (((s.startTiers (s.cxnOf (.job n .X)) (s.absentPages n va len)).requests (.job n .X) (s.genOf (.job n .X)) (pagesOf va len) .none []
       (s.rangePieces n va len)).finish (.job n .X) 4 1)) ∧
    (de.ok = true → ae.ok = true → (c.tag tag.toNat).infl = false → c.copy? tag.toNat = none →
      (let cnt := W64.f (s.rs b) 31 0
       let foot := s.footprint n accXfetch (runElts de ae cnt 16)
       let lat := max due.toNat (max foot.src foot.dst + cdiv cnt 64)
       1 ≤ cnt → cnt ≤ 2 ^ 24 → cnt % 16 = 0 → ae.isSp = false → de.addr % 16 = 0 → ae.addr % 16 = 0 → foot.fine →
       (∀ m ∈ foot.moves, ∀ va p det, m.src = .cm va p det → p.isView = false) →
       (∃ t, exec (.xfetch g d a b tag due) s = .next t ∧ s.copyIssued t n .X tag.toNat .xfetch lat 8 2) ∧
       (foot.tiers = [] → ∃ t, exec (.xfetchTry g d a b tag due) s = .next t ∧ s.copyIssued t n .X tag.toNat .xfetchTry lat 8 2) ∧
       (foot.tiers ≠ [] → ∃ t, exec (.xfetchTry g d a b tag due) s = .next t ∧ s.copyIssued t n .X tag.toNat .xfetchTry 0 8 2)) ∧
      (c.descriptor (s.rs b) 32 = some desc →
       let rtab := descNat desc 0 8
       let nr := descNat desc 8 4
       let myr := descNat desc 12 4
       let cnt := descNat desc 16 4
       1 ≤ nr → nr ≤ 16384 → myr < nr → 1 ≤ cnt → cnt ≤ 2 ^ 24 → rtab % 8 = 0 → s.rankFoot n rtab nr = (ps, .empty) →
       s.rankRead n s.free ps = (tab, []) → tab.getD myr 0 = rankKey s.guide.devnum n (s.ctx (s.cxnOf s.cur)).dcn.toNat →
       ∀ t, ElTy.ofCode ty.toNat = some t →
       let bk := cnt * t.width / 8
       let run := fun (i : Instr) (cop inB outB : Nat) =>
         let fs := s.footprint n accCopyRead ((List.range inB).map fun (k : Nat) => { dst := .sp 0, src := ae.at k, n := 1, idxT := false })
         let fd := s.footprint n accCopyRead ((List.range outB).map fun (k : Nat) => { dst := de.at k, src := .sp 0, n := 1, idxT := false })
         collType cop t = true → (cop % 2 = 1 ∨ rop.toNat ≤ 2) → fs.fine → fd.fine → fs.view = false → fd.view = false →
         ∃ u, exec i s = .next u ∧
           s.copyIssued u n .X tag.toNat (.xcoll cop) (max (16 * duex.toNat) (4096 * max 1 (clog2 nr) + cdiv outB 64)) 8 2
       run (.xallred g d a b tag ty rop duex) 0 bk bk ∧ run (.xallgath g d a b tag ty rop duex) 1 bk (nr * bk) ∧
       run (.xredscat g d a b tag ty rop duex) 2 (nr * bk) bk ∧ run (.xall2all g d a b tag ty rop duex) 3 (nr * bk) (nr * bk)))

/-- R252 to R254, R258 to R260, R267 and R480: the events of a copy in flight, on the conditions that enable them. -/
def Obligations.CopyEvents : Prop :=
  ∀ (s : State) (n tag : Nat) (x : Copy), tag < 64 → (s.core n).copy? tag = some x →
    let c := s.core n
    let now := s.now n
    let ch := c.chan x.chan
    let others := fun (t : State) => (∀ m, m ≠ n → t.core m = s.core m) ∧ t.hbm = s.hbm
    (x.form ≠ .xfetchTry → x.cause = none → x.fo = none → (x.ripe now = true →
        ∃ t, exec (.copyComplete n tag) s = .next t ∧ others t ∧ (t.core n).copy? tag = none ∧
          (t.core n).tag tag = { infl := false, fb := false, abs := false, readyAt := now }) ∧
      (x.ripe now = false → exec (.copyComplete n tag) s = .next s)) ∧
    (∀ m da sa k, x.form = .xcopy → x.waitTier = [] → x.fell = none → x.slots = [] → x.moves = [m] → m.dst = .sp da → m.src = .sp sa → 0 < k →
      ∃ t, exec (.copyWritePerformed n tag k) s = .next t ∧ others t ∧
        (∃ cover, (t.core n).copy? tag = some { x with moves := [], done := x.done + 1, hist := x.hist ++ [m], cover := cover }) ∧
        (t.core n).pool = (c.spWrite da ((c.spRead sa m.n).map fun b => (b.1, b.2 || m.idxT))).pool) ∧
    (x.form = .xfill → x.claimed < x.nslots → x.nextClaim ≤ now → 0 < ch.free →
      ∃ t, exec (.xfillSlotReserve n tag) s = .next t ∧ others t ∧ (t.core n).chan x.chan = ch.reserve c.seq ∧
        ∃ y, (t.core n).copy? tag = some y ∧ y.claimed = x.claimed + 1 ∧ y.nextClaim = now + cdiv x.slotSize 64) ∧
    (x.form = .xdrain → x.claimed < x.nslots → x.nextClaim ≤ now → 0 < ch.avail →
      ∃ t, exec (.xdrainSlotTake n tag) s = .next t ∧ others t ∧ (t.core n).chan x.chan = ch.take 1 ∧
        ∃ y, (t.core n).copy? tag = some y ∧ y.claimed = x.claimed + 1 ∧ y.nextClaim = now + cdiv x.slotSize 64) ∧
    (∀ sl rest m da sa, x.form = .xfill → x.slots = sl :: rest → sl.claimed + x.slotLat ≤ now → sl.moves = [m] → m.dst = .sp da → m.src = .sp sa →
      ∃ t, exec (.xfillSlotFilled n tag) s = .next t ∧ others t ∧ (t.core n).chan x.chan = ch.land sl.seq sl.epoch ∧
        ∃ y, (t.core n).copy? tag = some y ∧ y.slots = rest ∧ y.done = x.done + 1) ∧
    (∀ sl m da sa, x.form = .xdrain → x.slots = [sl] → sl.released = false → sl.claimed + cdiv x.slotSize 64 ≤ now → sl.moves = [m] →
      m.dst = .sp da → m.src = .sp sa →
      ∃ t, exec (.xdrainSlotRelease n tag) s = .next t ∧ others t ∧ (t.core n).chan x.chan = ch.release 1 sl.epoch) ∧
    (∀ abs, x.form = .xfetchTry → x.fell = some abs → (s.ctx (s.cxnOf (.job n .X))).trail.mode = 0 →
      ∃ t, exec (.xfetchTryFallback n tag) s = .next t ∧ (t.core n).copy? tag = none ∧
        (t.core n).tag tag = { infl := false, fb := true, abs := abs, readyAt := now } ∧
        t.hbm = s.hbm ∧ ∀ m ∈ x.hist ++ x.moves, ∀ va d leaf det, m.dst = .cm va (.hbm d leaf) det → t.hbmT.has (d / 16) = true) ∧
    (∀ cause va, x.form ≠ .xfetchTry → x.cause = some (cause, va) → x.ripe now = true →
      exec (.copyLateCause n tag) s = .next (s.raiseLanding n .X cause va)) ∧
    (x.cause = none → exec (.copyLateCause n tag) s = .next s)

/-! Performance, handlers and groups (chapters 11 to 14). -/

/-- R367, Table 14-3 and R370: an access is performed at its home in one step, and writes what its operation gives; a contribution joins
its instance's slot.
Table 14-3, R365, R366: the value an operation writes and the value it returns. -/
def Obligations.StrongPerformance : Prop :=
  (∀ (s : State) (ag : Agent) (x : Strong), s.nextStrong ag = some x →
     (s.reaches x.loc = false ∨ s.sent ag x = false → exec (.atomicPerformed ag) s = .next s) ∧
     (s.sent ag x = false → exec (.aredContributionAck ag) s = .next s) ∧
     (x.op.isAred = false → s.reaches x.loc = true → s.sent ag x = true → s.mixClash (s.cxnOf ag) x.size x.loc = true →
       ∃ t, exec (.atomicPerformed ag) s = .next t ∧ t.hbm = s.hbm) ∧
     (x.op.isAred = false → s.reaches x.loc = true → s.sent ag x = true → s.mixClash (s.cxnOf ag) x.size x.loc = false → (s.ctx (s.cxnOf ag)).trail.mode = 0 → s.mixOpen ag x = [] →
       ∃ t, exec (.atomicPerformed ag) s = .next t ∧
         ∀ d leaf, x.loc = .hbm d leaf → (s.ctx (s.cxnOf ag)).track = false → x.op ≠ .fadd →
           let r := strongValue x.op x.size (if x.op.reads then leNat (s.physRead x.loc x.size) else 0) x.x.toNat x.cmp.toNat
           (r.1 = none → t.hbm = s.hbm) ∧ (∀ v, r.1 = some v → t.hbm = s.hbm.write d (leBytes x.size v)) ∧
           (∀ n e, ag = .job n e → s.physPoison x.loc x.size = 0 →
             (t.core n).pend = replaceAwait x.id x.e (landings x r.2 (x.op.taint (s.physTaint x.loc x.size) x.xT) 0) (s.core n).pend)) ∧
     (∀ n e i p k d leaf cxn h g o y, ag = .job n e → s.sent ag x = true → x.op = .ared i p k → x.loc = .hbm d leaf → (s.core n).member = some (cxn, h, g, o) →
       s.inst? cxn h = some y → (∀ z ∈ (s.ctx cxn).insts, z.slots = []) →
       ∃ t w, exec (.aredContributionAck ag) s = .next t ∧ t.hbm = s.hbm ∧ t.inst? cxn h = some w ∧
         w.slots = [{ ea := x.va, dpa := d, leaf := leaf, handle := y.handle, det := x.det, overrun := false, bad := false, lost := false,
                      contribs := [{ i := i, p := p, n := k, taint := x.xT, x := x.x.setWidth 32 }] }])) ∧
  (∀ (old x c : BitVec 32),
     let v := fun (opc : Nat) => strongValue (.rmw opc) 4 old.toNat x.toNat c.toNat
     v 1 = (some (old + x).toNat, old.toNat) ∧ v 2 = (some (old &&& x).toNat, old.toNat) ∧ v 3 = (some (old ||| x).toNat, old.toNat) ∧
     v 4 = (some (old ^^^ x).toNat, old.toNat) ∧ v 5 = (some (if old.toInt ≤ x.toInt then old else x).toNat, (old.signExtend 64).toNat) ∧
     v 6 = (some (if old.toInt ≤ x.toInt then x else old).toNat, (old.signExtend 64).toNat) ∧ v 7 = (some (min old.toNat x.toNat), old.toNat) ∧
     v 8 = (some (max old.toNat x.toNat), old.toNat) ∧ v 9 = (some x.toNat, old.toNat) ∧
     strongValue .cas 4 old.toNat x.toNat c.toNat = (if old = c then some x.toNat else none, old.toNat))

/-- R317, R318 and R169: the entry of a queue's handler for its lowest trapped job, and the return from it. -/
def Obligations.HandlerEntryAndReturn : Prop :=
  ∀ (s : State) (cxn q n : Nat) (st : Stop), cxn < 32 → q < 16 → (s.core n).stop = some st →
    let k := s.queue cxn q
    (∀ c h g o, s.entryFor cxn q = some n → (s.core n).member = some (c, h, g, o) →
      (k.qhnd = 0 → exec (.handlerEntry cxn q) s = .next (s.endQueue cxn q .faulted st.cause)) ∧
      (k.qhnd ≠ 0 → (s.ctx cxn).trail.mode = 0 →
        ∃ t, exec (.handlerEntry cxn q) s = .next t ∧ (t.core n).stop = some { st with held := true } ∧
          t.queue cxn q = { k with
            state := .running, hnd := true, handling := some n, kwait := none, hslots := k.thread.slots
            qepc := BitVec.ofNat 55 k.thread.pc.toNat, qcauseStrm := BitVec.ofNat 2 (engNum st.strm), qcauseCode := BitVec.ofNat 6 st.cause
            qjob := BitVec.ofNat 64 (h * 2 ^ 32 + g * 2 ^ 16 + o * 2 ^ 9), qfaddr := BitVec.ofNat 64 st.faddr
            thread := { k.thread with pc := BitVec.ofNat 64 (k.qhnd.toNat / 4 * 4), slots := 0 } })) ∧
    (s.cur = .thread cxn q → k.thread.inSlot = false →
      (k.hnd = true → k.handling = some n → (s.core n).coefLost = false → (s.core n).lateErr = none → (s.core n).refetching = false →
        st.cause ≠ 28 → st.cause ≠ 32 → st.cause ≠ 33 → st.cause ≠ 34 → ∀ i a, i = .eret ∨ i = .eretAt a →
        ∃ t, exec i s = .next t ∧ (t.core n).stop = none ∧
          t.queue cxn q = { k with hnd := false, handling := none, hslots := 0, icount := (k.icount + 1) % 2 ^ 32
                                   thread := { k.thread with pc := BitVec.ofNat 64 (k.qepc.toNat / 4 * 4), slots := k.hslots } } ∧
          (i = .eret → ((t.core n).str st.strm).pc = ((s.core n).str st.strm).pc) ∧
          (i = .eretAt a → ((t.core n).str st.strm).pc = s.rs a &&& ~~~3#64)) ∧
      (k.hnd = false → exec .eret s = .next (s.endQueue cxn q .faulted 10)))

/-- R63, R64, R350, R166 and R357 to R361: the release of a group's boundary, the rendezvous of a core, and the release of a barrier. -/
def Obligations.GroupReleases : Prop :=
  ∀ (s : State) (cxn h g n : Nat) (i : Inst) (gr : Group), s.inst? cxn h = some i → s.group? cxn h g = some gr → gr.members.Nodup →
    (s.boundary i gr = none → exec (.phaseRelease cxn h g) s = .next s) ∧
    (s.boundary i gr = some ([gr], 1) →
      ∃ t, exec (.phaseRelease cxn h g) s = .next t ∧ ∀ n ∈ gr.members, (s.core n).job.isSome = true →
        let c := s.core n
        let d := t.core n
        d.phst = ((c.phst &&& 0xFFFF0000) ||| BitVec.ofNat 32 ((c.phst.toNat + 1) % 65536)) ∧ d.dbw0 = dbwSwap c.dbw0 ∧ d.dbw1 = dbwSwap c.dbw1 ∧
        d.snap = [] ∧ d.psb = c.psb.filter (fun l => !l.loc.isLocal) ∧ d.rp.map (·.cycle) = some gr.nxt) ∧
    ((s.core n).rdvDone = true →
      ∃ t, exec (.rendezvous n) s = .next t ∧ t.core n = (s.core n).endJob ∧ (∀ m, m ≠ n → t.core m = s.core m) ∧ t.hbm = s.hbm ∧
        (t.core n).job = none ∧ (t.core n).asking = true ∧ (t.core n).sems = Vector.replicate 32 0) ∧
    ((s.core n).rdvDone = false → exec (.rendezvous n) s = .next s) ∧
    (s.barrierReady i gr = none → exec (.barrierRelease cxn h g) s = .next s) ∧
    (∀ kern, s.barrierReady i gr = some ([gr], kern) → (s.ctx cxn).trail.mode = 0 →
      ∃ t, exec (.barrierRelease cxn h g) s = .next t ∧ t.hbm = s.hbm ∧
        (∀ m ∈ gr.members, ∀ b v, (s.core m).strS.hold = .bar b v →
          (t.core m).strS = (s.core m).strS.complete gr.nxt ∧ (t.core m).rbDone = (s.core m).rbDone + 1) ∧
        (kern = true → (t.inst? cxn h).map (·.kbarGen) = some (i.kbarGen + 1)))

/-- R343, R344, Table 13-2 and R339: the next cycle of a group, the end of a pause, and the completion of an instance. -/
def Obligations.CyclesAndCompletion : Prop :=
  ∀ (s : State) (cxn h g : Nat) (i : Inst) (gr : Group), s.inst? cxn h = some i → s.group? cxn h g = some gr →
    (gr.state = .lockstep → s.awaitsOthers gr = false →
      (s.notPresent cxn gr gr.nxt = false → ∃ t l, exec (.virtualCycle cxn h g) s = .next t ∧ t.hbm = s.hbm ∧ t.agenda = l ++ s.agenda ∧
        (match s.wallLate gr gr.nxt with
         | none => t.group? cxn h g = some { gr with vcyc := gr.nxt, stand := false, redo := false }
         | some bit => l = [] ∧ t.cores = s.cores ∧
             t.group? cxn h g = some { gr with vcyc := gr.nxt, stand := true, state := .paused, ret := .lockstep, prsn := setBit gr.prsn bit true })) ∧
      (s.notPresent cxn gr gr.nxt = true → ∃ t, exec (.virtualCycle cxn h g) s = .next t ∧ t.cores = s.cores ∧ t.hbm = s.hbm ∧
        t.group? cxn h g = some { gr with vcyc := gr.nxt, stand := true, state := .paused, ret := .lockstep, prsn := setBit gr.prsn 0 true })) ∧
    (gr.state = .paused → gr.prsn = 4 → s.memberStopped gr = false → (s.queue cxn i.q).state ≠ .parked → gr.ret = .lockstep ∨ gr.ret = .draining →
      ∃ t, exec (.groupUnpause cxn h g) s = .next t ∧ t.cores = s.cores ∧ t.hbm = s.hbm ∧
        t.group? cxn h g = some { gr with state := gr.ret, prsn := 0 }) ∧
    (i.state = .draining → (∀ x ∈ i.groups, x.state = .dissolved) → (∀ n ∈ i.cores, s.storesLinked n = true ∧ ∀ x ∈ (s.core n).strong, x.done = true) →
      (s.commitAll cxn h i.cores true).2 = [] →
      ∃ t x, exec (.instanceComplete cxn h) s = .next t ∧ t.inst? cxn h = some x ∧ x.state = .complete ∧ x.cause = 0 ∧ x.groups = [] ∧ x.slots = [] ∧
        ∀ n ∈ i.cores, (t.core n).member = none ∧ (t.core n).job = none ∧ (t.core n).psb = []) ∧
    (i.state ≠ .draining → exec (.instanceComplete cxn h) s = .next s)

/-- R314, R327 to R335 and Tables 12-3 to 12-5: admission, the end of its loads, the placement of an iteration or of the end of a part, and
the start of a job. That a start drops bits 1:0 of an entry offset is the model's choice (DESIGN CHOICE, log 17).
R332: with fixed placement an iteration goes to the ordinal that R331 gives, free to the lowest that asks, and in replay to the ordinal of its
group's next record. -/
def Obligations.WalkEvents : Prop :=
  ∀ (s : State) (cxn h g o : Nat) (i : Inst),
    (s.toAdmit cxn = none → exec (.admission cxn) s = .next s) ∧
    (s.toAdmit cxn = some i → (s.ctx cxn).trail.mode = 0 →
      ∃ t x, exec (.admission cxn) s = .next t ∧ t.inst? cxn i.handle = some x ∧ (x.state = .admitted ∨ x.state = .faulted)) ∧
    (s.inst? cxn h = some i →
      (i.state = .admitted → i.codeOff ≠ [] → i.readFault = false → (s.queue cxn i.q).state ≠ .parked →
        ∃ t, exec (.admissionLoadsDone cxn h) s = .next t ∧ t.hbm = s.hbm ∧ (∀ n ∈ i.cores, (t.core n).asking = true ∧ (t.core n).ended = false) ∧
          t.inst? cxn h = some { i with
            state := .walking
            groups := i.groups.map fun g =>
              { g with state := if i.tuplesOf i.groups.length g.gidx = 0 then .draining else .lockstep, vcyc := 0, stand := false
                       tuples := i.tuplesOf i.groups.length g.gidx } }) ∧
      (∀ gr, s.group? cxn h g = some gr → s.placeNext cxn i gr = some o →
        let n := gr.members.getD o 0
        (i.mode = 1 ∨ (s.ctx cxn).trail.mode = 0 → gr.nextJ < gr.tuples →
          ∃ t, exec (.iterationPlaced cxn h g o) s = .next t ∧ (t.core n).placed = some ((i.tuple i.groups.length g gr.nextJ).2, gr.nextJ) ∧
            (t.core n).asking = false ∧ (t.group? cxn h g).map (·.nextJ) = some (gr.nextJ + 1) ∧ ∀ m, m ≠ n → t.core m = s.core m) ∧
        (∀ s1 r, i.mode ≠ 1 → gr.nextJ < gr.tuples → s.gate cxn none (s.placeRecord gr o).1 (s.placeRecord gr o).2 = .go s1 r →
          ∃ t, exec (.iterationPlaced cxn h g o) s = .next t ∧
            t.core n = { s1.core n with asking := false, placed := some ((i.tuple i.groups.length g gr.nextJ).2, gr.nextJ) } ∧ ∀ m, m ≠ n → t.core m = s1.core m) ∧
        (gr.tuples ≤ gr.nextJ → ∃ t, exec (.iterationPlaced cxn h g o) s = .next t ∧ t.core n = { s.core n with asking := false, ended := true } ∧
          ∀ m, m ≠ n → t.core m = s.core m)) ∧
      (∀ gr, (s.group? cxn h g = some gr → s.placeNext cxn i gr ≠ some o → exec (.iterationPlaced cxn h g o) s = .next s) ∧
        (i.state = .walking → i.counts ≠ [] → gr.state ≠ .dissolved → (s.queue cxn i.q).stopped = false → (s.ctx cxn).going = true → gr.nextJ < gr.tuples →
          let asks := fun (o : Nat) => if o ∈ s.askers gr then some o else none
          (i.mode = 1 → s.placeWant cxn i gr = asks (gr.nextJ % gr.members.length)) ∧
          (i.mode ≠ 1 → (s.ctx cxn).trail.mode ≠ 2 → s.placeWant cxn i gr = (s.askers gr).head?) ∧
          (∀ k, i.mode ≠ 1 → (s.ctx cxn).trail.mode = 2 → s.findRecord cxn (placedBy gr.gidx) = some k →
            s.placeWant cxn i gr = asks (bits (recIss (s.record cxn k).1) 17 11)))) ∧
      (∀ n ti j, (s.core n).placed = some (ti, j) → (s.core n).member = some (cxn, h, g, o) → (s.core n).coefLost = false →
        ∃ t, exec (.jobStart n) s = .next t ∧ (∀ m, m ≠ n → t.core m = s.core m) ∧ t.hbm = s.hbm ∧
          let c := t.core n
          c.placed = none ∧ c.job = some { cxn := cxn, handle := h, gidx := g, ord := o, i := ti, j := j } ∧ c.shape = shapeReset ∧ c.ncsr = 0 ∧
          (let pc := fun (k : Nat) => BitVec.ofNat 64 (i.code + i.codeOff.getD k 0) &&& ~~~3#64
           c.dbw0 = 0 ∧ c.dbw1 = 0 ∧ c.strS.pc = pc 0 ∧ c.strV.pc = pc 1 ∧ c.strM.pc = pc 2 ∧ c.strX.pc = pc 3) ∧
          c.strS.rs? 7 = BitVec.ofNat 64 j ∧ c.strS.rs? 9 = i.argp ∧ c.strS.rs? 10 = BitVec.ofNat 64 i.handle ∧
          c.strS.rs? 11 = BitVec.ofNat 64 i.code ∧ c.strX.rs? 9 = i.argp))

/-! Queue threads (R297 to R316, R376 to R378). -/

/-- R308 to R316 and R321: the forms of a queue thread over its queue. -/
def Obligations.QueueForms : Prop :=
  ∀ (s : State) (cxn q : Nat) (g : Guard) (d a b : F6), s.cur = .thread cxn q → g = 0 ∨ g = 16 → sOk d = true → sOk a = true → sOk b = true →
    let c := s.ctx cxn
    let k := s.queue cxn q
    let h := W64.f (s.rs a) 31 0
    let idx := W64.f (s.rs a) 15 0
    let v := s.rs b
    let put := fun (x : W64) (t : Bool) => s.threadDid cxn q 4 (Queue.onThread (·.ws d.toNat x t))
    exec (.kstat g d a) s = .next (put (BitVec.ofNat 64 (c.statusWord h)) false) ∧
    (4 ≤ c.statusWord h % 8 → exec (.kwait g d a) s = .next (put (BitVec.ofNat 64 (c.statusWord h)) false)) ∧
    (c.statusWord h % 8 < 4 → exec (.kwait g d a) s = .next (s.modQueue cxn q fun k => { k with state := .waiting, kwait := some h })) ∧
    (∀ x t, s.queueReg cxn q idx = some (x, t) →
      (idx ≠ 9 → exec (.qrd g d a) s = .next (put x t)) ∧
      (idx = 9 → exec (.qrd g d a) s = .next { put x t with agenda := .auto (.qrsmRead cxn q) :: s.agenda }) ∧
      (idx < 0x1000 → idx ≠ 0 ∨ v.getLsbD 8 = false → exec (.qwr g a b) s = .next (s.threadDid cxn q 4 (·.writeReg idx v))) ∧
      (idx = 0 → v.getLsbD 8 = true →
        exec (.qwr g a b) s = .next { s.threadDid cxn q 4 (·.writeReg idx v) with agenda := .auto (.qctlHalt cxn q) :: s.agenda }) ∧
      (∀ n, 0x1000 ≤ idx → k.handling = some n →
        exec (.qwr g a b) s = .next ((s.setJobReg n ((idx - 0x1000) / 256) (idx % 256) v).finish (.thread cxn q) 4 1))) ∧
    (s.queueReg cxn q idx = none → exec (.qrd g d a) s = .next (s.endQueue cxn q .faulted 10)) ∧
    (s.rs a ≠ 0 → k.np = false →
      exec (.npbeg g a) s = .next (s.threadDid cxn q 4 fun k => { k with np := true, bound := s.rs a, elapsed := 0, watched := false })) ∧
    (k.np = true → exec (.npend g) s = .next (s.threadDid cxn q 4 fun k => { k with np := false, bound := 0, elapsed := 0, watched := false })) ∧
    (W64.f (s.rs a) 10 0 < 64 → exec (.qsig g a) s = .next ((s.msix c.vf (W64.f (s.rs a) 10 0)).finish (.thread cxn q) 4 1)) ∧
    exec (.qrsmRead cxn q) s = .next (s.modQueue cxn q fun k => { k with rcause := 0 }) ∧
    (k.state = .running → k.hnd = false →
      exec (.qctlHalt cxn q) s = .next ((s.modQueue cxn q fun k => { k with hnd := false, handling := none }).endQueue cxn q .halted 0)) ∧
    (k.state ≠ .running → exec (.qctlHalt cxn q) s = .next s)

/-- R311, R312 and R325: LAUNCH of a record without dependences, whose code object has none or is misaligned, answers the handle of the instance
it makes. That a LAUNCH with 64 outstanding waits before it reads its address and record is the model's reading (DEDUCED, log 27). -/
def Obligations.Launches : Prop :=
  ∀ (s : State) (cxn q : Nat) (g : Guard) (d a b : F6) (ps qs : List (Nat × Nat × Phys × Bool)), s.cur = .thread cxn q → g = 0 ∨ g = 16 →
    cxn < 32 → q < 16 → sOk d = true → aOk a = true → sOk b = true →
    let va := (s.ra (a.setWidth 4)).toNat
    (64 ≤ (s.ctx cxn).nout q → exec (.launch g d a b) s = .next s) ∧
    ((s.ctx cxn).nout q < 64 → va % 64 = 0 → s.accessOk (.thread cxn q) va 64 accLoad ps → (∀ x ∈ ps, s.physPoison x.2.2.1 x.2.1 = 0) →
      let r := LaunchRec.ofBytes (ps.flatMap fun x => s.physRead x.2.2.1 x.2.1)
      r.ndep = 0 → (∀ x ∈ r.deps, x = 0) →
      (r.code % 128 ≠ 0 ∨ (s.accessOk (.thread cxn q) r.code 128 accLoad qs ∧ (∀ x ∈ qs, s.physPoison x.2.2.1 x.2.1 = 0) ∧
        field (qs.flatMap fun x => s.physRead x.2.2.1 x.2.1) 15 1 = 0)) →
      let L := (s.queue cxn q).launched + 1
      let h := launchSeq L * 16 + q
      ∃ t, exec (.launch g d a b) s = .next t ∧ t.hbm = s.hbm ∧ t.cores = s.cores ∧ (t.queue cxn q).launched = L ∧ (t.queue cxn q).seq = h ∧
        (d.toNat ≠ 0 → (t.queue cxn q).thread.rs? d.toNat = BitVec.ofNat 64 h) ∧
        (t.ctx cxn).insts.any (fun i => i.handle == h && i.code == r.code && i.argp == r.argp && i.gen == (s.ctx cxn).cg) = true)

/-- R297 to R301, R376 and R377: context registers, performance counters, expert counters and trail registers of a queue thread. -/
def Obligations.ContextAndTrailRegisters : Prop :=
  ∀ (s : State) (cxn q : Nat) (g : Guard) (d a b : F6), g = 0 ∨ g = 16 → sOk d = true → sOk a = true → sOk b = true →
    let idx := W64.f (s.rs a) 15 0
    let v := s.rs b
    let put := fun (x : W64) (t : Bool) => s.threadDid cxn q 4 (Queue.onThread (·.ws d.toNat x t))
    let t := (s.ctx cxn).trail
    ((s.rs a).toNat < 32 → (∀ n e, s.cur = .job n e →
        exec (.pcrd g d a) s = .next (s.jobPut n e (.s e d.toNat ((s.ctx (s.cxnOf s.cur)).pcrd (s.rs a).toNat) false) 8)) ∧
      (s.cur = .thread cxn q → exec (.pcrd g d a) s = .next (put ((s.ctx cxn).pcrd (s.rs a).toNat) false))) ∧
    (s.cur = .thread cxn q →
      (∀ x tn, s.cxReg cxn idx = some (x, tn) → exec (.cxrd g d a) s = .next (put x tn)) ∧
      (s.cxReg cxn idx = none → exec (.cxrd g d a) s = .next (s.endQueue cxn q .faulted 10)) ∧
      ((s.cxReg cxn idx).isSome = true → idx ≠ 3 ∨ partOk v.toNat = true →
        exec (.cxwr g a b) s = .next ((s.modCtx cxn (·.writeReg idx v)).finish (.thread cxn q) 4 1)) ∧
      ((s.rs b).toNat = 0 ∨ (s.rs a).toNat + (s.rs b).toNat ≤ 4096 →
        exec (.eclr g a b) s = .next ((s.modCtx cxn fun c =>
          { c with ectr := c.ectr.filter fun e => !(decide ((s.rs a).toNat ≤ e.1) && decide (e.1 < (s.rs a).toNat + (s.rs b).toNat))
                   ectrT := c.ectrT.clear fun e => decide ((s.rs a).toNat ≤ e) && decide (e < (s.rs a).toNat + (s.rs b).toNat) }).finish
            (.thread cxn q) 4 1)) ∧
      (∀ x, t.reg idx = some x →
        exec (.trrd g d a) s = .next (put x false) ∧
        (lowest (t.writeConds idx v) = 0 → idx ≠ 1 ∨ W64.f v 1 0 = t.mode.toNat → idx ≠ 2 ∨ t.mode ≠ 2 →
          exec (.trwr g a b) s = .next ((s.modTrail cxn fun _ => t.write idx v).finish (.thread cxn q) 4 1))))

/-- R118, R95 and R105: a form of queue threads alone raises cause 3 in a job once its guard has passed (R101), a form of jobs alone cause 3 on a thread, a word of an
engine's private table cause 2 on a thread; a word that decodes to nothing raises its cause once its guard has passed. -/
def Obligations.WrongPlacesTrap : Prop :=
  ∀ (s : State) (g : Guard) (d a b : F6) (p : BitVec 1) (i : Instr),
    (∀ n e, s.cur = .job n e → (s.core n).stop = none → (s.core n).guardOpen g →
      (i = .launch g d a b ∨ i = .kwait g d a ∨ i = .kstat g d a ∨ i = .qrd g d a ∨ i = .qwr g a b ∨ i = .cxrd g d a ∨ i = .cxwr g a b ∨
        i = .trrd g d a ∨ i = .trwr g a b ∨ i = .eclr g a b ∨ i = .npbeg g a ∨ i = .npend g ∨ i = .qsig g a ∨ i = .eret ∨ i = .eretAt a →
        ∃ u, exec i s = .next u ∧ s.trapsTo u n e 3 0) ∧
      (∀ cause, ∃ u, exec (.illegalInstruction g cause) s = .next u ∧ s.trapsTo u n e cause 0)) ∧
    (∀ c q, s.cur = .thread c q →
      (∀ k m, i = .semsig k m ∨ i = .semwait k m ∨ i = .phaseG ∨ i = .phaseK ∨ i = .phaseX ∨ i = .rdv →
        exec i s = .next (s.endQueue c q .faulted 3)) ∧
      (i = .vadd g d a b p ∨ i = .dadd g d a b ∨ i = .mlda g a p ∨ i = .mzero g ∨ i = .xgath g d a b ∨ i = .xtst g d a →
        exec i s = .next (s.endQueue c q .faulted 2)) ∧
      (∀ cause, g = 0 ∨ g = 16 → exec (.illegalInstruction g cause) s = .next (s.endQueue c q .faulted cause)))

/-! The trail and quality of service (chapters 15 and 17). -/

/-- R378, R384, R386, R387 and R390: MODE by its own event, records that were held for space, and what replay enforces.
R387: in replay a recorded phase restart cancels the job's phase and delivers its cause, and a recorded class A point puts a job that has
nothing in flight at its restart point, with RSM 54. -/
def Obligations.TrailAndReplay : Prop :=
  (∀ (s : State) (cxn q mode : Nat), cxn < 32 → q < 16 →
     let c := s.ctx cxn
     let t := c.trail
     (mode % 4 = 0 → t.mode = 1 ∨ t.mode = 2 → (∀ i ∈ c.insts, i.state.holds = false) → t.hostq = [] →
       ∃ u, exec (.trailModeChange cxn q mode) s = .next u ∧ u.hbm = s.hbm ∧ (u.ctx cxn).trail = t.off) ∧
     (∀ ps, mode % 4 = 1 → t.mode = 0 → (∀ i ∈ c.insts, i.state.holds = false) →
       ({ s with cur := .thread cxn q } : State).ringPages cxn true t.vas = .ok ps →
       ∃ u, exec (.trailModeChange cxn q mode) s = .next u ∧ u.hbm = s.hbm ∧
         (u.ctx cxn).trail = { t with mode := 1, pages := ps, matched := [], waits := [], idle := 0 }) ∧
     (∀ x y, t.mode = 1 → t.held = [(x, y)] → t.full = false → t.hostq = [] → c.insts = [] → (∀ q, (s.queue cxn q).strong = []) →
       ∃ u, exec (.trailWaitRelease cxn) s = .next u ∧ (u.ctx cxn).trail.held = [] ∧ (u.ctx cxn).trail.widx = t.widx + 1) ∧
     (∀ k iss clk, t.mode = 2 → t.div = false → s.passed cxn [] (s.window cxn) = some (k, iss, clk) →
       ∃ u, exec (.replayClockPassed cxn) s = .next u ∧ (u.ctx cxn).trail.div = true ∧ (u.ctx cxn).trail.dseq = BitVec.ofNat 64 k ∧ u.hbm = s.hbm) ∧
     (t.mode = 2 → t.div = false → s.passed cxn [] (s.window cxn) = none → exec (.replayClockPassed cxn) s = .next s) ∧
     (t.mode = 2 → t.div = false → s.heldOn cxn ≠ [] → 2 ^ 24 ≤ t.idle →
       ∃ u, exec (.replayStallTimeout cxn) s = .next u ∧ (u.ctx cxn).trail.div = true ∧ u.hbm = s.hbm) ∧
     (t.mode = 2 → t.idle < 2 ^ 24 → exec (.replayStallTimeout cxn) s = .next s)) ∧
  (∀ (s : State) (n : Nat) (e : Engine) (k : Nat), (s.core n).job.isSome = true → (s.core n).stop = none →
     (engines.find? (fun e => (s.restartRecord n e).isSome) = some e → s.restartRecord n e = some k →
       ∃ t, exec (.replayPhaseRestart n) s = .next t ∧
         (t.core n).stop.map (fun x => (x.cause, x.strm)) = some (bits (s.record (s.cxnOf (.job n e)) k).2 5 0, e)) ∧
     (engines.find? (fun e => (s.restartRecord n e).isSome) = none → exec (.replayPhaseRestart n) s = .next s) ∧
     (∀ cxn h g gr r, s.group? cxn h g = some gr → gr.members = [n] → s.classARecord cxn g gr.vcyc = some k → (s.core n).rp = some r →
       (s.core n).strong = [] → (s.core n).copies = [] →
       ∃ t, exec (.replayClassAPoint cxn h g) s = .next t ∧ bits (t.core n).phst.toNat 21 16 = 54 ∧ (t.core n).psb = [] ∧ (t.core n).shape = r.shape ∧
         (t.core n).loading = true))

/-- R321, R322, R427 to R434: bounds of stretches, the watchdog, quanta, the timetable, the buckets and congestion marks. -/
def Obligations.QualityOfService : Prop :=
  ∀ (s : State) (cxn q : Nat), cxn < 32 → q < 16 →
    let c := s.ctx cxn
    let k := s.queue cxn q
    (k.np = true → k.bound.toNat ≤ k.elapsed → exec (.npBoundExpired cxn q) s = .next (s.modQueue cxn q fun k => { k with npovr := true })) ∧
    (k.np = true → k.watched = false → 8 * c.quant.toNat * 1024 ≤ k.elapsed →
      exec (.watchdog cxn q) s = .next ((s.modQueue cxn q fun k => { k with watched := true }).event 4 (cxn + 1) 0 (q + k.elapsed * 2 ^ 64))) ∧
    (k.np = false → exec (.watchdog cxn q) s = .next s) ∧
    (∀ cls a t, c.deferred = some (cls, a, t) → (∀ q, (c.queue q).np = false) → c.track = false →
      ∃ u, exec (.deferredPreemptStart cxn) s = .next u ∧ (u.ctx cxn).deferred = none ∧ (u.ctx cxn).cls = cls ∧ (u.ctx cxn).hamper = a ∧
        (c.state = .running → (u.ctx cxn).state = .quiescing) ∧
        (k.deferring = true → (u.queue cxn q).qdebt = k.qdebt + BitVec.ofNat 64 (s.pcyc - t))) ∧
    (c.quant ≠ 0 → c.slice ≤ 1 →
      ∃ u, exec (.quantumExpiry cxn) s = .next u ∧ (u.ctx cxn).slice = c.quant.toNat * 1024 - c.maxDebt ∧ (u.queue cxn q).qdebt = 0) ∧
    (s.pcyc % 1024 = 0 → c.state = .free ∨ c.clmask = 0 → ∃ u, exec .tokenRefill s = .next u ∧ u.ctx cxn = c) ∧
    (s.pcyc % 1024 = 0 → c.state = .running → c.clmask ≠ 0 →
      ∃ u, exec .tokenRefill s = .next u ∧ (u.ctx cxn).rateFab = nextRate c.rateFab c.frw 5104 c.markFab ∧
        (u.ctx cxn).rateHost = nextRate c.rateHost c.frw 257 c.markHost ∧ (u.ctx cxn).markFab = false ∧ (u.ctx cxn).active = false) ∧
    (s.pcyc % 1024 ≠ 0 → exec .tokenRefill s = .next s) ∧
    (∀ tb, s.pcyc % 256 = 0 → (s.guide.tables = [(tb, 2)] → exec .timetableChange s = .next (s.modGuide fun g => { g with tables := [(tb, 1)] })) ∧
      (s.guide.tables = [(tb, 1)] → exec .timetableChange s = .next (s.modGuide fun g => { g with timetable := tb, tables := [] }))) ∧
    (s.pcyc % 256 ≠ 0 → exec .timetableChange s = .next s) ∧
    (∀ p r, (∀ n, n < 32 → n ≠ cxn → (s.ctx n).requests = []) → c.requests = [(p, [r])] → p < 1024 → r.lines = 1 → r.dest = .hbm → c.throttled p = false →
      s.guide.timetable.getD (s.pcyc % 256) 0 = BitVec.ofNat 6 (cxn + 1) →
      ∃ u, exec .timetableSlot s = .next u ∧ (u.ctx cxn).requests = [] ∧ (u.ctx cxn).active = true ∧
        aget? (u.ctx cxn).buckets p = some ((aget? c.buckets p).getD 0 - 1)) ∧
    ((∀ n, n < 32 → (s.ctx n).requests = []) → s.guide.timetable.getD (s.pcyc % 256) 0 = 0 → exec .timetableSlot s = .next s) ∧
    exec (.congestionMark cxn true) s = .next (s.modCtx cxn fun c => { c with markFab := true }) ∧
    exec (.congestionMark cxn false) s = .next (s.modCtx cxn fun c => { c with markHost := true })

/-! Translation, links and errors (chapters 16 to 18). -/

/-- R348, R400 to R402, R405, R409 and R410: the ends of walks and invalidations, tier fetches, and a request from a peer, which the Guide's open
windows alone let in (log 5).
R400 to R404 and R458: a command that changes stage 2 takes effect at once, and stays under way until the invalidation it begins is complete. -/
def Obligations.TranslationEvents : Prop :=
  (∀ (s : State) (cxn : Nat), cxn < 32 →
     let c := s.ctx cxn
     (∀ i g, c.insts = [i] → i.groups = [g] → g.state = .paused → g.prsn = 2 →
       ∃ t, exec (.translationComplete cxn) s = .next t ∧ t.group? cxn i.handle g.gidx = some { g with state := g.ret, prsn := 0 }) ∧
     (∀ l, c.s1inv = some l →
       (s.invDone cxn l = true → exec (.s1invComplete cxn) s = .next (s.modCtx cxn fun c => { c with s1inv := none })) ∧
       (s.invDone cxn l = false → exec (.s1invComplete cxn) s = .next s)) ∧
     (∀ l, c.s2inv = some l →
       (s.invDone cxn l = false → exec (.invalidationComplete cxn) s = .next s) ∧
       (s.invDone cxn l = true → s.guide.waitInv ≠ some cxn →
         exec (.invalidationComplete cxn) s = .next (s.modCtx cxn fun c => { c with s2inv := none })) ∧
       (s.invDone cxn l = true → s.guide.waitInv = some cxn →
         ∃ t, exec (.invalidationComplete cxn) s = .next t ∧ t.ended 0 0 ∧ (t.ctx cxn).s2inv = none)) ∧
     (∀ ipa key la lv, c.tierAt ipa = some (key, la, lv) →
       (∃ t, exec (.tierFetchComplete cxn ipa) s = .next t ∧
         (t.ctx cxn).tiers = if s.tierServed cxn ipa lv then c.tiers.filter (·.1 != key) else c.tiers) ∧
       (c.insts = [] → ∃ t, exec (.tierFetchFailed cxn ipa) s = .next t ∧ (t.ctx cxn).tiers = c.tiers.filter (·.1 != key)) ∧
       (∀ n x va ia lvl, c.runCores = [n] → (s.core n).stop = none →
         (s.core n).copies.find? (fun x => x.form == .xfetch && x.waitTier.contains key) = some x →
         x.tierByte key = some (va, ia, lvl) →
         ∃ t, exec (.tierFetchFailed cxn ipa) s = .next t ∧ (t.core n).stop.map (fun x => (x.cause, x.strm, x.faddr, x.parked)) = some (17, .X, va, true))) ∧
     (∀ dcn off w bs, s.fabricLive = false → exec (.peerRequest dcn off w bs) s = .next s) ∧
     (∀ dcn off bs, s.fabricLive = true → off < 2 ^ 55 →
       (∀ opc d, 1 ≤ opc → opc ≤ 12 → Config.openWindow dcn off true = some d → d + bs.length ≤ hbmTop →
         exec (.peerRequest dcn (opc * 2 ^ 55 + off) true bs) s = .next (s.peerAtomic dcn d opc bs)) ∧
       exec (.peerRequest dcn off true bs) s = .next (match Config.openWindow dcn off true with
         | some d => if d + bs.length ≤ hbmTop then
             (((s.tick 1).physWrite 0 (.hbm d noLeaf) (tainted (Config.freeBit s.free) bs)).plainWrote (s.ctxAt d) (.hbm d noLeaf) bs.length).answerPeer dcn 2 [] else s.answerPeer dcn 4 []
         | none => s.answerPeer dcn 4 []) ∧
       exec (.peerRequest dcn off false bs) s = .next (match Config.openWindow dcn off false with
         | some d => if d + bs.length ≤ hbmTop then
             s.answerPeer dcn 3 ((List.range bs.length).map fun k => (s.physByte (.hbm (d + k) 0), s.physTaint1 (.hbm (d + k) 0))) else s.answerPeer dcn 4 []
         | none => s.answerPeer dcn 4 []))) ∧
  (∀ (s : State) (op : BitVec 496), s.idleGuide → opCx op < 32 → (s.ctx (opCx op)).state ≠ .free → (s.ctx (opCx op)).s2inv = none →
     let n := opCx op
     let waits := fun (i : Instr) (k : InvScope) (P : State → Prop) => ∃ t, exec i s = .next t ∧ t.guide.waitInv = some n ∧ t.guide.busy = s.guide.busy ∧
       (t.ctx n).s2inv = some (s.watches n k) ∧ t.hbm = s.hbm ∧ t.cores = s.cores ∧ P t
     ((s.addrOk (opF op 1 8) 65536 65536).1 = true → waits (.s2root op) .s2All fun t => (t.ctx n).s2root = opF op 1 8) ∧
     (opF op 1 1 = 0 → waits (.s2inv op) (.s2Page (opF op 2 8)) fun t => (t.ctx n).s2root = (s.ctx n).s2root) ∧
     (opF op 1 1 = 1 → waits (.s2inv op) .s2All fun t => (t.ctx n).s2root = (s.ctx n).s2root) ∧
     (opF op 1 1 < 64 → waits (.winset op) (.win (opF op 1 1)) fun t =>
       (t.ctx n).wins = aset (s.ctx n).wins (opF op 1 1) (BitVec.ofNat 128 (opF op 2 16 / 2 ^ 64 * 2 ^ 64 + opF op 2 16 % 2 ^ 16))))

/-- R420, R421, R435 and Table 17-1: the rows of the port table.
R438 to R451 and R463: errors are recorded in the bank of their die, uncorrectable ones poison their part or stop their job, and the thermal
limits. That a device without power stops unless a cold reset is among its inputs is the model's choice (DESIGN CHOICE, log 36), and so are the severity
and the unit of a rail switch's record (log 30).
R22, R65, R446: an access leaves its line in the last-level cache with its words valid, a write with its words dirty. -/
def Obligations.LinkAndErrorEvents : Prop :=
  (∀ (s : State) (k width : Nat), k < 25 →
     let p := s.port k
     let row := fun (i : Instr) (q : Port) => exec i s = .next ((s.setPort k q).portEvent k)
     (p.state = .training →
       row (.trainingComplete k width true) { p with state := .up, width := BitVec.ofNat 8 width } ∧
       row (.trainingComplete k width false) { p with state := .degraded, width := BitVec.ofNat 8 width } ∧ row (.trainingFailed k) { p with state := .failed }) ∧
     (p.state ≠ .training → exec (.trainingFailed k) s = .next s) ∧
     (p.state = .up → row (.lanesLost k width) { p with state := .degraded, width := BitVec.ofNat 8 width }) ∧
     (p.state = .draining → s.inFlight k = false → row (.drainComplete k) { p with state := .down }) ∧
     (s.inFlight k = true → exec (.drainComplete k) s = .next s) ∧
     ((p.state = .up ∨ p.state = .degraded) → s.guide.routes = [] → row (.linkReplayExhausted k) { p with state := .failed }) ∧
     (p.state = .down → exec (.linkReplayExhausted k) s = .next s) ∧
     (p.replays.toNat < 2 ^ 32 - 1 → exec (.linkLevelReplay k) s = .next (s.setPort k { p with replays := p.replays + 1 })) ∧
     (p.replays.toNat = 2 ^ 32 - 1 → exec (.linkLevelReplay k) s = .next s)) ∧
  (∀ (s : State) (n : Nat) (e : Engine) (part die : Nat),
     let job := fun (src sev cause : Nat) => s.report (n / 128) (s.jobRec n e src sev cause)
     let mem := fun (src sev unit : Nat) => ({ src := src, sev := sev, unit := unit, dpa := 16 * part } : ErrRec)
     exec (.sramEccError n e false) s = .next (job 1 0 0) ∧
     ((s.core n).job.isSome = true → (s.core n).stop = none → (s.ctx (s.cxnOf (.job n e))).trail.mode = 0 →
       (∃ t, exec (.sramEccError n e true) s = .next t ∧ (t.core n).stop.map (fun x => (x.cause, x.strm)) = some (34, e) ∧ (t.core n).psb = []) ∧
       (∃ t, exec (.pipelineError (.stream n e)) s = .next t ∧ (t.core n).stop.map (fun x => (x.cause, x.strm)) = some (28, e) ∧ (t.core n).psb = [])) ∧
     ((s.core n).job = none → exec (.pipelineError (.stream n e)) s = .next s) ∧
     (16 * part < hbmTop →
       (s.llcDirty part = true →
         exec (.llcEccError part true true) s = .next (({ s with llcP := s.llcP.add part } : State).report (dieOf (16 * part)) (mem 2 2 (homeSlice (16 * part))))) ∧
       (s.llcDirty part = false → exec (.llcEccError part true true) s = exec (.llcEccError part true false) s) ∧
       (∀ double, exec (.llcEccError part double false) s = .next (s.report (dieOf (16 * part)) (mem 2 0 (homeSlice (16 * part))))) ∧
       ∀ (i : Bool → Instr), i = Instr.hbmEccError part ∨ i = Instr.patrolScrub part →
         exec (i true) s = .next (({ s with hbmP := s.hbmP.add part } : State).report (dieOf (16 * part)) (mem 3 2 (stackOf (16 * part)))) ∧
         exec (i false) s = .next (s.report (dieOf (16 * part)) (mem 3 0 (stackOf (16 * part))))) ∧
     (∀ line words write, ∃ x, (s.llcTake line words write).llcLine? line = some x ∧ words &&& ~~~x.valid = 0 ∧ (write = true → words &&& ~~~x.dirty = 0)) ∧
     exec (.railBelowThreshold die) s = .next (s.modGuide fun g => { g with railLow := g.railLow.setIfInBounds die true }) ∧
     (vget s.guide.railLow die false = true → (vget s.guide.banks die .reset).dected = false →
       exec (.dectedSwitchComplete die) s = .next (((s.llcDrop fun x => dieOf (64 * x.line) == die && decide (14 ≤ x.way)).modGuide fun g =>
         { g with banks := g.banks.setIfInBounds die { vget g.banks die .reset with dected := true } }).report die { src := 4, sev := 0, unit := die })) ∧
     (vget s.guide.railLow die false = false → exec (.dectedSwitchComplete die) s = .next s) ∧
     exec (.thermalWarning die) s = .next (s.event 9 0 0 (die + s.pcyc % 2 ^ 64 * 2 ^ 64)) ∧
     (∃ t, exec (.thermalShutdown die) s = .next t ∧ t.guide.powered = false ∧
       (s.inbox = [] → step t = .fault .powerRemoved) ∧ ∀ rest, s.inbox = .coldReset :: rest → ∃ u, step t = .next u ∧ u.guide.powered = true ∧ u.guide.boot = 1 ∧ u.inbox = rest))

/-! Contexts, migration and the mailbox (chapters 10 and 19). -/

/-- R456, R457 and R460: while the Guide does not run a command does nothing; a failing check ends it with RESULT 1 and its REASON, a code of
no command with RESULT 2. Which REASON is answered where several checks fail is the model's reading (DEDUCED, log 29). -/
def Obligations.CommandChecks : Prop :=
  ∀ (s : State) (op : BitVec 496) (code : BitVec 16),
    let n := opCx op
    (s.guide.rdy = false → exec (.bind op) s = .next s ∧ exec (.setquant op) s = .next s ∧ exec (.evread op) s = .next s ∧
      exec (.frclr op) s = .next s ∧ exec (.unknownCommand code) s = .next s) ∧
    (s.idleGuide →
      (∃ t, exec (.unknownCommand code) s = .next t ∧ t.ended 2 0 ∧ s.guideOnly t) ∧
      (32 ≤ n ∨ (s.ctx n).state ≠ .free → ∃ t, exec (.bind op) s = .next t ∧ t.ended 1 1 ∧ s.guideOnly t) ∧
      (32 ≤ n ∨ (s.ctx n).state = .free → ∀ i, i = .setquant op ∨ i = .setpcal op ∨ i = .pcread op ∨ i = .track op ∨ i = .s2root op ∨ i = .s2inv op ∨
        i = .winset op ∨ i = .setgen op ∨ i = .preempt op ∨ i = .unbind op ∨ i = .resolve op ∨ i = .deny op →
        ∃ t, exec i s = .next t ∧ t.ended 1 1 ∧ s.guideOnly t) ∧
      (s.guide.events = [] → ∃ t, exec (.evread op) s = .next t ∧ t.ended 1 17 ∧ s.guideOnly t) ∧
      (64 ≤ n → ∃ t, exec (.frclr op) s = .next t ∧ t.ended 1 11 ∧ s.guideOnly t))

/-- R458: settings of a context and of the device, and what is read of it. That FRSET drops low bits of its fields (DESIGN CHOICE, log 31) and how MEXT's
digest is computed (PRESUMED, log 9) are the model's. -/
def Obligations.Settings : Prop :=
  ∀ (s : State) (op : BitVec 496), s.idleGuide →
    let n := opCx op
    let c := s.ctx n
    let done := fun (i : Instr) (P : State → Prop) => ∃ t, exec i s = .next t ∧ t.ended 0 0 ∧ t.hbm = s.hbm ∧ t.cores = s.cores ∧ P t
    (n < 32 → c.state ≠ .free →
      done (.setquant op) (fun t => t.ctx n = { c with quant := BitVec.ofNat 32 (opF op 1 4) }) ∧
      done (.setpcal op) (fun t => t.ctx n = { c with pcal := BitVec.ofNat 32 (opF op 1 4) }) ∧
      (opF op 1 1 < 32 → done (.pcread op) fun t => t.guide.mbres = BitVec.ofNat 512 (vget c.perf (opF op 1 1) 0).toNat ∧ t.ctxs = s.ctxs) ∧
      done (.track op) (fun t => t.ctx n = { c with track := op.getLsbD 8 }) ∧
      (opF op 1 1 ≠ c.cg → c.heldGens.contains (opF op 1 1) = false → c.heldGens.contains c.cg = false →
        done (.setgen op) fun t => (t.ctx n).cg = opF op 1 1) ∧
      (s.sharesOk n (opF op 2 4) (opF op 1 1) (BitVec.ofNat 256 (opF op 6 32)) = true →
        done (.shares op) fun t => (t.ctx n).tok = opF op 2 4 ∧ (t.ctx n).frw = opF op 1 1 ∧ (t.ctx n).slotMask = BitVec.ofNat 256 (opF op 6 32))) ∧
    (n < 32 → c.state = .free → s.sharesOk n (opF op 2 4) (opF op 1 1) (BitVec.ofNat 256 (opF op 6 32)) = true →
      done (.shares op) fun t => t.ctx n = { c with stagedSlots := some (opF op 2 4, BitVec.ofNat 256 (opF op 6 32), opF op 1 1) }) ∧
    (opF op 0 2 ≤ 16383 →
      done (.routeset op) (fun t => t.guide.routes = aset s.guide.routes (opF op 0 2) (opF op 2 4 % 2 ^ 24)) ∧
      ((∀ k, k < 32 → (s.ctx k).state = .free) → done (.devnum op) fun t => t.guide.devnum = opF op 0 2)) ∧
    (n < 64 → done (.frclr op) (fun t => t.guide.ranges = s.guide.ranges.setIfInBounds n { vget s.guide.ranges n .reset with fmt := 0 }) ∧
      (s.rangeOk n (opF op 1 1) (opF op 2 8 / 65536 * 65536) (opF op 10 8 / 65536 * 65536) (opF op 18 8 / 4 * 4) = true →
        done (.frset op) fun t => t.guide.ranges = s.guide.ranges.setIfInBounds n
          { base := opF op 2 8 / 65536 * 65536, size := opF op 10 8 / 65536 * 65536, scale := opF op 18 8 / 4 * 4, fmt := opF op 1 1 })) ∧
    (1 ≤ opF op 0 2 → opF op 0 2 ≤ 168 → done (.scrubper op) fun t => t.guide.scrubPeriod = opF op 0 2) ∧
    (∀ ev rest, s.guide.events = ev :: rest → s.guide.backlog = [] → done (.evread op) fun t => t.guide.mbres = ev ∧ t.guide.events = rest) ∧
    (n < 9 → done (.ebread op) fun t =>
      vget t.guide.banks n .reset = { vget s.guide.banks n .reset with records := (vget s.guide.banks n .reset).records.drop 1, cecnt := 0 }) ∧
    (8 ≤ n → n ≤ 15 → s.spare (opF op 1 8) 64 = true →
      done (.mext op) fun t => t.guide.mrs = s.guide.mrs.setIfInBounds n (digestOf (sha512 (leBytes 64 (vget s.guide.mrs n 0).toNat ++ s.hbm.read (opF op 1 8) 64)))) ∧
    (n < 8 → vget s.guide.railLow n false = false → done (.eccnorm op) fun t => (vget t.guide.banks n .reset).dected = false) ∧
    (n < 25 →
      done (.portsts op) (fun t => t.guide.mbres = BitVec.ofNat 512 (s.port n).sts) ∧
      ((s.port n).state = .down → done (.portup op) fun t => (t.port n).state = .training ∧ (t.port n).replays = 0) ∧
      ((s.port n).state = .up → done (.portdrain op) fun t => (t.port n).state = .draining) ∧
      ((s.port n).state = .failed → done (.portdown op) fun t => (t.port n).state = .down))

/-- R276 to R288 and R296: the life of a context. Whether a cluster has failed is the device's to say, so that BIND answers by it (R454).
R288 to R293: a stop of class F or A with nothing running ends in Saved, with a hamper whose byte 6 has VALID and the class, and its clusters freed; RESUME from a
valid hamper ends in Running. -/
def Obligations.ContextLife : Prop :=
  (∀ (s : State) (op : BitVec 496) (cxn vf : Nat), s.idleGuide → opCx op < 32 → cxn < 32 →
     let n := opCx op
     let c := s.ctx n
     (c.state = .free → (s.regionOk n (opRuns op 12)).1 = true → (s.stagedOk n).1 = true → (s.vfOk n (opF op 1 1)).1 = true →
       ∃ t, exec (.bind op) s = .next t ∧ t.hbm = s.hbm ∧
         ((s.clustersOk n (opF op 4 8)).1 = true → t.ended 0 0 ∧ (t.ctx n).state = .bound ∧ (t.ctx n).vf = opF op 1 1 ∧
           (t.ctx n).dcn = BitVec.ofNat 16 (opF op 2 2) ∧ (t.ctx n).clmask = BitVec.ofNat 64 (opF op 4 8) ∧ (t.ctx n).runs = opRuns op 12) ∧
         ((s.clustersOk n (opF op 4 8)).1 = false → t.ended 1 2 ∧ s.guideOnly t)) ∧
     (c.state = .bound → ∃ t, exec (.unbind op) s = .next t ∧ t.ended 0 0 ∧ (t.ctx n).state = .tornDown ∧ (t.ctx n).vf = 0 ∧ t.hbm = s.hbm) ∧
     (c.state = .running → (∀ q, (c.queue q).np = false) → opF op 1 1 % 4 ≠ 0 → (s.addrOk (opF op 2 8) 4096 4096).1 = true →
       ∃ t, exec (.preempt op) s = .next t ∧ t.ended 0 0 ∧ (t.ctx n).state = .quiescing ∧ (t.ctx n).cls = opF op 1 1 % 4 ∧
         (t.ctx n).hamper = opF op 2 8 ∧ t.hbm = s.hbm.write (opF op 2 8 + 6) [0]) ∧
     (6 < s.guide.boot → s.byVf vf = some cxn → (s.ctx cxn).state = .bound →
       ∃ t, exec (.vfFlr vf) s = .next t ∧ (t.ctx cxn).state = .resetting ∧ t.hbm = s.hbm) ∧
     (s.guide.boot ≤ 6 → exec (.vfFlr vf) s = .next s) ∧
     ((s.ctx cxn).state = .resetting → (s.ctx cxn).trail.hostq = [] →
       ∃ t, exec (.scrubComplete cxn) s = .next t ∧ (t.ctx cxn).state = .bound ∧ (t.ctx cxn).queues = Ctx.reset.queues ∧ (t.ctx cxn).insts = [] ∧
         (t.ctx cxn).trail = .reset ∧ t.hbm = s.hbm) ∧
     ((s.ctx cxn).state = .tornDown → (s.ctx cxn).trail.hostq = [] →
       ∃ t, exec (.scrubComplete cxn) s = .next t ∧ (t.ctx cxn).state = .free ∧ (t.ctx cxn).clmask = 0 ∧
         ∀ a, (runBlocks (s.ctx cxn).runs).contains (a / 2 ^ 29) = false → t.hbm.get a = s.hbm.get a) ∧
     ((s.ctx cxn).state = .bound → exec (.scrubComplete cxn) s = .next s ∧ exec (.hamperValid cxn) s = .next s)) ∧
  (∀ (s : State) (op : BitVec 496) (cxn : Nat), cxn < 32 →
     let c := s.ctx cxn
     (c.state = .quiescing → c.mig = none → c.cls = 2 ∨ c.cls = 3 → (∀ q, (c.queue q).state = .idle) → c.insts = [] → c.trail.mode = 0 → c.trail.hostq = [] → c.track = false →
       ∃ t, exec (.hamperValid cxn) s = .next t ∧ (t.ctx cxn).state = .saved ∧ (t.ctx cxn).clmask = 0 ∧ (t.ctx cxn).saves = (c.saves + 1) % 2 ^ 64 ∧
         t.hbm.get (c.hamper + 6) = BitVec.ofNat 8 (1 + 2 * c.cls) ∧ t.cores = s.cores) ∧
     (let n := opCx op
      let a := opF op 9 8
      s.idleGuide → n < 32 → (s.ctx n).state = .saved → (s.addrOk a 4096 4096).1 = true → (∀ x ∈ s.hamperConds a (opF op 1 8), x.1 = true) →
       ∃ t, exec (.resume op) s = .next t ∧
         ((s.clustersOk n (opF op 1 8)).1 = true → t.ended 0 0 ∧ (t.ctx n).state = .running ∧ (t.ctx n).clmask = BitVec.ofNat 64 (opF op 1 8)) ∧
         ((s.clustersOk n (opF op 1 8)).1 = false → t.ended 1 2 ∧ s.guideOnly t)))

/-- R320, R391 and R412: RESOLVE and DENY of a thread's fault record, and of a divergence without an owner. -/
def Obligations.FaultAnswers : Prop :=
  ∀ (s : State) (op : BitVec 496) (q : Nat) (r : FaultRec), s.idleGuide → opCx op < 32 → q < 16 → (s.ctx (opCx op)).going = true →
    let n := opCx op
    let id := opF op 1 2
    let k := s.queue n q
    ((s.ctx n).recordOf id = some (q, r) → k.faults = [(id, r)] → r.qt = true → k.state = .parked → k.divParked = false →
      (∃ t, exec (.resolve op) s = .next t ∧ t.ended 0 0 ∧ (t.queue n q).faults = [] ∧ t.hbm = s.hbm ∧
        ((k.prior = .waiting → ∀ h, k.kwait = some h → ∃ i, s.inst? n h = some i ∧ i.state.live = true) → (t.queue n q).state = k.prior) ∧
        (∀ h, k.prior = .waiting → k.kwait = some h → s.inst? n h = none → (t.queue n q).state = .running)) ∧
      (∃ t, exec (.deny op) s = .next t ∧ t.ended 0 0 ∧ (t.queue n q).faults = [] ∧ (t.queue n q).state = .faulted ∧
        (t.queue n q).lastCause = 17 ∧ t.hbm = s.hbm)) ∧
    ((s.ctx n).recordOf id = none → (s.ctx n).trail.div = true → (s.ctx n).trail.divId = id → (s.ctx n).trail.divOwner = none →
      (s.ctx n).trail.hostq = [] → ∀ i, i = .resolve op ∨ i = .deny op →
      ∃ t, exec i s = .next t ∧ t.ended 0 0 ∧ (t.ctx n).trail.mode = 0 ∧ (t.ctx n).trail.div = false ∧ t.hbm = s.hbm) ∧
    ((s.ctx n).recordOf id = none → (s.ctx n).trail.div = false → ∃ t, exec (.resolve op) s = .next t ∧ t.ended 1 10 ∧ s.guideOnly t)

/-- R279, R295, R436 and R437: the commands and events of a migration on its source and target. What the peer is ready for and what it has sent are
not this device's to say (log 5), so that MIGOUT and REBIND answer by them. -/
def Obligations.Migration : Prop :=
  ∀ (s : State) (op : BitVec 496) (cxn : Nat), s.idleGuide → opCx op < 32 → cxn < 32 →
    let n := opCx op
    let c := s.ctx n
    (c.state = .running → opF op 1 2 ≤ 16383 → 1 ≤ opF op 12 1 → (s.addrOk (opF op 13 8) 4096 4096).1 = true →
      ∃ t, exec (.migout op) s = .next t ∧ t.hbm = s.hbm ∧
        (Config.targetReady (opF op 1 2) (opF op 3 1) s.free = false → t.ended 1 12 ∧ s.guideOnly t) ∧
        (Config.targetReady (opF op 1 2) (opF op 3 1) s.free = true →
          (mapOk c.clmask.toNat (Config.targetClusters (opF op 1 2) (opF op 3 1) s.free).toNat = false → t.ended 1 7) ∧
          (mapOk c.clmask.toNat (Config.targetClusters (opF op 1 2) (opF op 3 1) s.free).toNat = true →
            t.ended 0 0 ∧ (t.ctx n).state = .migOut ∧ (t.ctx n).track = true))) ∧
    (c.state = .free → (s.regionOk n (opRuns op 13)).1 = true → (s.stagedOk n).1 = true → opF op 1 2 ≤ 16383 → opF op 37 4 ≠ 0 →
      (s.addrOk (opF op 29 8) (65536 * opF op 37 4) 65536).1 = true → apart (opRuns op 13) (opF op 29 8, opF op 37 4) = true →
      ∃ t, exec (.migin op) s = .next t ∧ t.hbm = s.hbm ∧
        ((s.clustersOk n (opF op 5 8)).1 = true → t.ended 0 0 ∧ (t.ctx n).state = .migIn) ∧
        ((s.clustersOk n (opF op 5 8)).1 = false → t.ended 1 2 ∧ s.guideOnly t)) ∧
    (c.state = .migIn → ∃ t, exec (.abort op) s = .next t ∧ t.ended 0 0 ∧ (t.ctx n).state = .tornDown ∧ t.hbm = s.hbm) ∧
    (∀ m, c.state = .migOut → c.mig = some m → m.stopBegun = false →
      (∃ t, exec (.stop op) s = .next t ∧ t.ended 0 0 ∧ (t.ctx n).mig = some { m with asked := true } ∧ t.hbm = s.hbm) ∧
      (∃ t, exec (.abort op) s = .next t ∧ t.ended 0 0 ∧ (t.ctx n).state = .running ∧ (t.ctx n).mig = none ∧ t.hbm = s.hbm)) ∧
    (c.state = .migIn → (s.vfOk n (opF op 1 1)).1 = true →
      let a := s.received n 0
      ∃ t, exec (.rebind op) s = .next t ∧ ((s.clustersOk n c.clmask.toNat).1 = true →
        (nbit (s.received n 3) 0 = false → t.ended 1 6 ∧ s.guideOnly t) ∧
        (nbit (s.received n 3) 0 = true → inHbm a = true → (∀ x ∈ s.hamperConds a c.clmask.toNat, x.1 = true) → nbit (s.received n 4) 0 = true →
          ((s.relocated n).isSome = false → t.ended 1 13 ∧ s.guideOnly t) ∧ ((s.relocated n).isSome = true → t.ended 0 0 ∧ (t.ctx n).state = .running ∧ (t.ctx n).vf = opF op 1 1)))) ∧
    ((s.ctx cxn).state = .migIn → exec (.migrationAbortReceived cxn) s = .next (s.cxGoto cxn .tornDown)) ∧
    (∀ m, (s.ctx cxn).state = .migOut → (s.ctx cxn).mig = some m →
      (m.stopBegun = false → ∃ t, exec (.migrationAbortReceived cxn) s = .next t ∧ (t.ctx cxn).state = .running ∧ (t.ctx cxn).mig = none) ∧
      (m.step = 5 → ∃ t, exec (.migrationResumeAck cxn) s = .next t ∧ (t.ctx cxn).state = .tornDown ∧ (t.ctx cxn).vf = 0 ∧ t.hbm = s.hbm) ∧
      (m.step = 0 → m.stopBegun = false → m.rounds = 0 → m.round = none →
        exec (.migrationPrecopyRound cxn) s = .next (s.modMig cxn fun m => { m with w0 := (s.ctx cxn).trail.widx, round := some (s.ctx cxn).regionPages })) ∧
      (m.saved = true → m.step = 3 → (s.ctx cxn).trail.mode = 0 →
        ∃ t, exec (.migrationStep cxn) s = .next t ∧ (t.ctx cxn).mig = some { m with step := 4 } ∧ t.hbm = s.hbm) ∧
      (m.saved = false → m.step = 2 → exec (.migrationStep cxn) s = .next s))

/-! The host port, resets and attestation (chapters 17 and 19). -/

/-- R302, R305, R400, R407, R408 and R423: what the host does through a virtual function and through the aperture. That a write of MBCMD while the
mailbox is busy is ignored is the model's choice (DESIGN CHOICE, log 40). -/
def Obligations.HostAccesses : Prop :=
  ∀ (s : State) (vf cxn q : Nat) (v : W64) (off : Nat) (bs : List Byte), cxn < 32 → q < 16 →
    let c := s.ctx cxn
    let k := s.queue cxn q
    (s.byVf vf = some cxn →
      (k.state = .idle → c.state = .running → (c.threadCluster q).isSome = true → c.insts = [] →
        exec (.qstartWrite vf q v) s = .next (s.modQueue cxn q (·.start (BitVec.ofNat 64 (W64.f v 54 2 * 4))))) ∧
      (k.state = .running → exec (.qstartWrite vf q v) s = .next s) ∧
      (k.state = .idle → c.state = .bound → (c.threadCluster q).isSome = true → c.insts = [] →
        ∃ t, exec (.qstartWrite vf q v) s = .next t ∧ (t.ctx cxn).state = .running ∧ (t.queue cxn q).state = .running ∧
          (t.queue cxn q).thread.pc = BitVec.ofNat 64 (W64.f v 54 2 * 4)) ∧
      (exec (.s1rootWrite vf v) s = .next ((s.startS1Inv cxn .s1All).modCtx cxn fun c => { c with s1root := v &&& s1rootMask })) ∧
      (c.s1inv = none → v.getLsbD 0 = true → exec (.s1invWrite vf v) s = .next (s.startS1Inv cxn .s1All)) ∧
      (c.s1inv = none → v.getLsbD 0 = false → exec (.s1invWrite vf v) s = .next (s.startS1Inv cxn (.s1Page (W64.f v 54 16 * 65536)))) ∧
      (c.s1inv.isSome = true → exec (.s1invWrite vf v) s = .next s) ∧
      (∀ l, off % 16 + bs.length ≤ 16 → bs ≠ [] → off + bs.length ≤ bar2Top → s.hostDpa cxn off (.write bs) = some l → c.trail.mode = 0 → c.trail.hostq = [] → c.ringLost = false →
        exec (.hostWrite vf off bs) s =
          .next ((s.physWrite cxn (.hbm l.out l.addr) (tainted false bs)).plainWrote cxn (.hbm l.out l.addr) bs.length)) ∧
      (∀ p len, 0 < len → off % 16 + len ≤ 16 → off + len ≤ bar2Top → s.hostReadAt cxn off = some p →
        exec (.hostRead vf off len) s = .next (s.send (.completion vf (s.physRead p len)))) ∧
      (∀ l op size x y, hostAtomicOk op size off = true → off + size ≤ bar2Top → s.hostDpa cxn off (.atomic op size x y) = some l → c.trail.mode = 0 →
        c.trail.hostq = [] → c.ringLost = false → exec (.hostAtomicop vf off op size x y) s = .next (s.hostAtomic cxn c.vf l.out l.addr op size x y))) ∧
    (s.byVf vf = none → exec (.qstartWrite vf q v) s = .next s ∧ exec (.hostWrite vf off bs) s = .next s ∧
      ∀ len, exec (.hostRead vf off len) s = .next (s.send (.unsupported vf))) ∧
    (off + bs.length ≤ hbmTop → exec (.pfBar2Access off (.write bs)) s =
      .next (((s.physWrite 0 (.hbm off noLeaf) (tainted false bs)).plainWrote (s.ctxAt off) (.hbm off noLeaf) bs.length).untaint off bs.length)) ∧
    (∀ len, off + len ≤ hbmTop → s.physPoison (.hbm off 0) len = 0 →
      exec (.pfBar2Access off (.read len)) s = .next (s.send (.completion 0 (s.physRead (.hbm off 0) len)))) ∧
    (∀ len, hbmTop < off + len → exec (.pfBar2Access off (.read len)) s = .next (s.send (.unsupported 0))) ∧
    (s.guide.busy = false → off < 0x40 → off + bs.length ≤ 0x40 →
      exec (.registerWrite 0 off bs) s = .next (s.modGuide fun g => { g with mbcmd := digestOf ((Mem.write (Mem.write [] 0 (leBytes 64 g.mbcmd.toNat)) off bs).read 0 64) })) ∧
    (s.guide.rdy = true → s.guide.busy = false → exec (.registerWrite 0 0x40 [1]) s =
      runCommand (bits s.guide.mbcmd.toNat 15 0) (s.guide.mbcmd.extractLsb' 16 496) (s.modGuide fun g => { g with busy := true })) ∧
    (s.guide.busy = true → off + bs.length ≤ 0x40 → exec (.registerWrite 0 off bs) s = .next s)

/-- R453 to R455: what the resets leave. A cold reset leaves what stands outside the device, with boot at its first step; a warm reset leaves HBM, the
measurement registers and the fuses. -/
def Obligations.Resets : Prop :=
  ∀ (s : State) (op : BitVec 496),
    (∃ t, exec .coldReset s = .next t ∧ t.hbm = [] ∧ t.ctxs = State.reset.ctxs ∧ t.cores = [] ∧ t.pcyc = 0 ∧ t.guide.boot = 1 ∧ t.guide.rdy = false ∧
      t.guide.powered = true ∧ t.remote = s.remote ∧ t.inbox = s.inbox) ∧
    ((∀ n, n < 32 → (s.ctx n).state.runs = false) → 7 ≤ s.guide.boot →
      (∃ t, exec .pfFlr s = .next t ∧ t.hbm = s.hbm ∧ t.guide.mrs = s.guide.mrs ∧ t.guide.boot = 3 ∧ t.guide.warm = true ∧ t.cores = [] ∧
        ∀ n, n < 32 → t.ctx n = .reset) ∧
      (s.idleGuide → exec (.reset op) s = exec .pfFlr s)) ∧
    (s.guide.boot < 7 → s.guide.err = 0 → exec .pfFlr s = .next s) ∧
    State.reset.hbm = [] ∧ State.reset.pcyc = 0 ∧ State.reset.guide.boot = 1 ∧ State.reset.cores = [] ∧ State.reset.guide.powered = true ∧
    (∀ n, n < 32 → (State.reset.ctx n).state = .free) ∧ (∀ k, k < 25 → (State.reset.port k).state = .down)

/-- R425 and R426: what a mailbox asks for attestation. The bytes of the messages are outside the spec (log 7). -/
def Obligations.Attestation : Prop :=
  ∀ (s : State) (fn : Nat) (asym hash : BitVec 32) (slot off len index : Nat) (nonce : BitVec 256) (code : Byte), s.guide.rdy = true → fn < 64 →
    let d := s.doe fn
    let answers := fun (i : Instr) (P : Doe → Prop) => ∃ t l, exec i s = .next t ∧ t.out = .spdm fn l :: s.out ∧ P (t.doe fn) ∧ t.hbm = s.hbm ∧ t.ctxs = s.ctxs
    answers (.getVersion fn) (fun x => x.version = true ∧ x.caps = false ∧ x.algs = false) ∧
    answers (.getCapabilities fn) (fun x => x.caps = true ∧ x.version = d.version) ∧
    (asym.getLsbD 5 = true → hash.getLsbD 2 = true → answers (.negotiateAlgorithms fn asym hash) fun x => x.algs = true) ∧
    (asym.getLsbD 5 = false → answers (.negotiateAlgorithms fn asym hash) fun x => x = d) ∧
    answers (.getDigests fn) (fun x => x.algs = d.algs) ∧
    answers (.getCertificate fn slot off len) (fun x => x.algs = d.algs) ∧ answers (.challenge fn slot nonce) (fun x => x.algs = d.algs) ∧
    (index < 17 → 1 ≤ index → ∀ sign, answers (.getMeasurements fn index sign nonce) fun x => x.algs = d.algs) ∧
    answers (.spdmUnsupportedRequest fn code) (fun x => x = d) ∧ answers (.doeDiscovery fn index) (fun x => x = d)

/-! The machine as a whole. -/

/-- R94: where the agenda's next act is an agent's turn, and the agent may issue, the step runs the instruction that its words decode to, with
R145's capture of them where they stand in the body of an active loop, and what it adds to the order of its core's streams (R71), which is all
that is added; a first act that is an event or a queued input runs as its instruction, but a host request whose slice has 64 waiting stays outside (R387). -/
def Obligations.StepRunsDecoded : Prop :=
  ∀ (s : State) (rest : List Act) (ag : Agent) (i : Instr) (len : Nat), s.guide.powered = true → s.guide.booting = false →
    (let s1 := { s with agenda := rest, cur := ag }
     s.agenda = .issue ag :: rest → s1.mayIssue ag = true → s1.headAt ag (s1.stream ag).pc.toNat = .instr i len → (s1.stream ag).longAtEnd len = false →
       step s = (s1.capture ag len).ordered (.issue ag) (some i) (exec i (s1.capture ag len)) ∧ ((s1.stream ag).loops = [] → s1.capture ag len = s1)) ∧
    (s.agenda = .ev i :: rest → step s = ({ s with agenda := rest } : State).ordered (.ev i) (some i) (exec i { s with agenda := rest })) ∧
    (∀ (s1 t : State) (a : Act), s1.noteOrder t a (some i) = t ∨ ∃ n o, orderSite a = some (n, o) ∧
      ∃ p q, s1.noteOrder t a (some i) = t.modCore n fun c => { c with
        order := p, strong := c.strong.map fun y => if (s1.core n).seq ≤ y.id then { y with past := q } else y }) ∧
    (∀ more, s.agenda = [] → s.inbox = i :: more → (∀ vf off k, hostSpan i = some (vf, off, k) → s.sliceFull vf off k = false) →
      step s = exec i { s with inbox := more }) ∧
    (∀ j more, s.agenda = [] → s.inbox = j :: more → (∃ vf off k, hostSpan j = some (vf, off, k) ∧ s.sliceFull vf off k = true) →
      (more = [] → step s = .next s.planCycle) ∧
      (∀ rest, more = i :: rest → hostSpan i = none → step s = exec i { s with inbox := j :: rest })) ∧
    (s.agenda = [] → s.inbox = [] → step s = .next s.planCycle)

/-- R95 to R100: words of the spec's encodings, written out from the tables, decode to the instructions they stand for. -/
def Obligations.DecodeWords : Prop :=
  decodeWord .S 0x1030C001 0 = .ok (.addi 12 12 1) ∧ decodeWord .V 0x801AA9CC 0 = .ok (.vadd 0 42 41 51 0) ∧
  decodeWord .M 0x80500009 0xD018C000 = .ok (.mma 0 0 2 0 1 0 3 3 0) ∧ decodeWord .X 0x80125650 0xE00C0000 = .ok (.xcopy 0 9 22 20 0 0 3 0 0) ∧
  decodeWord .S 0x81810114 0 = .ok (.launch 0 4 1 5) ∧ decodeWord .S 0x80108D0C 0 = .ok (.atadd 0 2 13 3 0)

/-- R95 to R108: every well-formed instruction of a table decodes from the words it encodes to, with every operand at every value. -/
def Obligations.DecodeEncode : Prop :=
  ∀ (i : Instr) (ws : List W32), WellFormed i = true → encode i = some ws →
    decodeBytes (engineOf i) (bytesOfWords ws) = .ok (i, 4 * ws.length) ∧
    ((ws.getD 0 0).getLsbD 31 = false → ∀ e, decodeBytes e (bytesOfWords ws) = .ok (i, 4))

/-- At reset local HBM stands in the canonical form of memory. -/
def Obligations.ResetKeepsForm : Prop := State.reset.memWf

/-- Every step keeps local HBM in the canonical form of memory. -/
def Obligations.StepKeepsForm : Prop := ∀ (s t : State), s.memWf → step s = .next t → t.memWf

/-- No step faults or refuses while the module has power; without power and without an input it does (R463). -/
def Obligations.StepGoesOn : Prop :=
  ∀ (s : State), (s.guide.powered = true → ∃ t, step s = .next t) ∧
    (s.guide.powered = false → (s.inbox = [] → step s = .fault .powerRemoved) ∧ (s.inbox ≠ [] → ∃ t, step s = .next t))
end

