-- ==== Sys2Proof/Laws/Vector.lean ====
section
/-! SUPPORT. What a V word comes to when its conditions hold. -/
namespace Sys2Proof.Machine

@[simp] theorem State.cur_setCore (s : State) (n : Nat) (c : Core) : (s.setCore n c).cur = s.cur := rfl
@[simp] theorem State.cur_modCore (s : State) (n : Nat) (f : Core → Core) : (s.modCore n f).cur = s.cur := rfl
@[simp] theorem State.cur_perf (s : State) (c i k : Nat) : (s.perf c i k).cur = s.cur := rfl
@[simp] theorem State.cur_putV (s : State) (n : Nat) (f : F6) (nb : Nat) (r : VVal) (lat : Nat) (ls : Bool) :
    (s.putV n f nb r lat ls).cur = s.cur := by
  simp only [State.putV]
  split <;> rfl
@[simp] theorem State.cur_putFlags (s : State) (n fl lat : Nat) : (s.putFlags n fl lat).cur = s.cur := by
  simp only [State.putFlags]
  split <;> rfl
@[simp] theorem State.cur_putVp (s : State) (n i : Nat) (bs : List (Bool × Bool)) : (s.putVp n i bs).cur = s.cur := rfl

/-- A V word that issues: what `k` makes of its sources, counted and gone past. -/
theorem State.vword_run {s : State} {n : Nat} {e : Engine} (h : s.cur = .job n e) {g : Guard} (hg : (s.core n).guardOpen g) (peek : BitVec 1)
    (spec : State → Core → VSpec) (k : State → Nat → Core → List VVal → State)
    (hc : ∀ t c vs, (t.cur = s.cur) → (k t n c vs).cur = s.cur) (hv : (s.core n).vReady (spec s (s.core n)) peek) :
    s.vword g peek spec k = .next (s.vDid n e peek (spec s (s.core n)) fun t vs => k t n (s.core n) vs) := by
  obtain ⟨h1, h2⟩ := hv
  simp only [State.vword, State.engineOnly_job h, State.guarded_open h hg, State.check, h1, h2, Bool.not_true, Bool.false_eq_true, if_false,
    if_true, State.fin, State.vDid, State.cur_perf]
  have hx : (if peek = 1 then s else s.setCore n ((s.core n).consume (spec s (s.core n)).srcs)).cur = s.cur := by
    split <;> rfl
  simp only [show ¬ (0 = 24) by decide, if_false]
  rw [hc _ _ _ hx, h]

end Sys2Proof.Machine
end

