-- ==== Sys2Proof/Laws/Jobs.lean ====
section
/-! SUPPORT. What an issuing job's instruction comes to: its core after it, the transfers of control, the entry of a trap, and a strong access whose
checks have passed. -/
namespace Sys2Proof.Machine

theorem State.core_jobDid (s : State) (n : Nat) (e : Engine) (l k : Nat) (f : Core → Core) :
    (s.jobDid n e l k f).core n = (f (s.core n)).past e (s.now n) l k := by
  show (s.setCore n _).core n = _
  simp
theorem State.modStream_job (s : State) (n : Nat) (e : Engine) (f : Stream → Stream) :
    s.modStream (.job n e) f = s.modCore n fun c => c.setStr e (f (c.str e)) := rfl
theorem State.stream_job (s : State) (n : Nat) (e : Engine) : s.stream (.job n e) = (s.core n).str e := rfl
theorem State.fin_job {s : State} {n : Nat} {e : Engine} (h : s.cur = .job n e) (l k : Nat) : s.fin l k = s.jobDid n e l k id := by
  rw [State.fin, h, State.finish_job]
/-- Two changes of a core that come to the same core. -/
theorem State.modCore_congr (s : State) (n : Nat) (f g : Core → Core) (h : f (s.core n) = g (s.core n)) : s.modCore n f = s.modCore n g := by
  simp [State.modCore, h]
theorem State.transfer_taken {s : State} {n : Nat} {e : Engine} (h : s.cur = .job n e) (v : W64) : s.transfer true v = s.jumped n e v := by
  simp only [State.transfer, State.fin_job h, h, State.modStream_job, State.jumped, if_true]
  apply State.modCore_congr
  rw [State.core_jobDid]
  simp [Core.past]
theorem State.transfer_untaken {s : State} {n : Nat} {e : Engine} (h : s.cur = .job n e) (v : W64) :
    s.transfer false v = (s.jobDid n e 4 1 id).modCore n fun c => c.setStr e { c.str e with slots := 2 } := by
  simp only [State.transfer, State.fin_job h, h, State.modStream_job]
  apply State.modCore_congr
  rw [State.core_jobDid]
  simp [Core.past]

/-! Groups under a trap: only the instances of contexts change. -/

theorem State.ctx_modGroup (s : State) (c h g : Nat) (f : Group → Group) (k : Nat) :
    (s.modGroup c h g f).ctx k = { s.ctx k with insts := ((s.modGroup c h g f).ctx k).insts } := by
  simp only [State.modGroup, State.modInst, State.ctx_modCtx]
  split <;> rfl
theorem State.standCore_frame (s : State) (n : Nat) :
    (∀ c, (s.standCore n).ctx c = { s.ctx c with insts := ((s.standCore n).ctx c).insts }) ∧ s.standCore n = { s with ctxs := (s.standCore n).ctxs } := by
  simp only [State.standCore]
  split
  · exact ⟨fun c => State.ctx_modGroup .., rfl⟩
  · exact ⟨fun c => rfl, rfl⟩
theorem State.pauseCore_frame (s : State) (n k : Nat) :
    (∀ c, (s.pauseCore n k).ctx c = { s.ctx c with insts := ((s.pauseCore n k).ctx c).insts }) ∧ s.pauseCore n k = { s with ctxs := (s.pauseCore n k).ctxs } := by
  simp only [State.pauseCore]
  split
  · exact ⟨fun c => State.ctx_modGroup .., rfl⟩
  · exact ⟨fun c => rfl, rfl⟩

/-! Traps of a job. -/

/-- What the entry of a trap does to a job that is not stopped. -/
theorem State.trapsTo_trapJob (s : State) (n : Nat) (e : Engine) (c a : Nat) (hs : (s.core n).stop = none) :
    s.trapsTo ((s.trapJob n e c a).standCore n) n e c a := by
  simp only [State.trapJob, hs, Option.isSome_none, Bool.false_eq_true, if_false]
  generalize hg : (s.modCore n fun x => { x with stop := some { cause := c, strm := e, faddr := a, held := false, parked := false, cycle := s.now n } }) = s1
  obtain ⟨p1, p2⟩ := State.pauseCore_frame s1 n 2
  obtain ⟨q1, q2⟩ := State.standCore_frame (s1.pauseCore n 2) n
  have hc : ∀ m, ((s1.pauseCore n 2).standCore n).core m = s1.core m := by
    intro m
    rw [q2, p2]
    rfl
  refine ⟨?_, ?_, ?_, ?_⟩
  · rw [hc, ← hg]; simp
  · intro m hm; rw [hc, ← hg]; simp [State.core_modCore, hm]
  · intro k; rw [q1, p1]; subst hg; simp
  · rw [q2, p2]; subst hg; rfl
theorem State.trapsTo_cause {s : State} {n : Nat} {e : Engine} (h : s.cur = .job n e) (c : Nat) (hs : (s.core n).stop = none) (a : Nat) :
    s.trapsTo (s.cause c a) n e c a := by
  simp only [State.cause, h, State.take, hs, Option.isSome_none, Bool.false_eq_true, if_false]
  exact State.trapsTo_trapJob _ _ _ _ _ hs
/-- A condition that fails raises the lowest cause. -/
theorem State.check_fail {s : State} (l : List (Bool × Nat)) (k : State → State) (c : Nat) (hl : lowest l = c) (hc : c ≠ 0) : s.check l k = s.cause c := by
  simp [State.check, hl, hc]

/-! Going past an instruction after a change of the core. -/

theorem State.fin_modCore {s : State} {n : Nat} {e : Engine} (h : s.cur = .job n e) (l k : Nat) (f : Core → Core)
    (hm : (f (s.core n)).member = (s.core n).member) : (s.modCore n f).fin l k = s.jobDid n e l k f := by
  rw [State.fin]
  show State.finish _ s.cur _ _ = _
  rw [h]
  exact State.finish_modCore s n e l k f hm
theorem State.fin_setCore {s : State} {n : Nat} {e : Engine} (h : s.cur = .job n e) (l k : Nat) (c : Core) (hm : c.member = (s.core n).member) :
    (s.setCore n c).fin l k = s.jobDid n e l k fun _ => c := by
  have := State.fin_modCore h l k (fun _ => c) hm
  simpa [State.modCore] using this
theorem State.jobDid_congr (s : State) (n : Nat) (e : Engine) (l k : Nat) (f g : Core → Core) (h : f (s.core n) = g (s.core n)) :
    s.jobDid n e l k f = s.jobDid n e l k g := by
  simp [State.jobDid, h]
theorem State.now_jobDid (s : State) (n : Nat) (e : Engine) (l k : Nat) (f : Core → Core) (hm : (f (s.core n)).member = (s.core n).member) :
    (s.jobDid n e l k f).now n = s.now n := by
  have h1 : ((f (s.core n)).past e (s.now n) l k).member = (s.core n).member := by
    rw [← hm]
    cases e <;> rfl
  exact State.now_modCore s n n (fun _ => (f (s.core n)).past e (s.now n) l k) h1
theorem State.jobWord_job {s : State} {n : Nat} {e : Engine} (h : s.cur = .job n e) (f : State → Nat → Engine → State) : s.jobWord f = .next (f s n e) := by
  simp [State.jobWord, State.jobOnly, h]
theorem State.fin1_job {s : State} {n : Nat} {e : Engine} (h : s.cur = .job n e) : s.fin1 = s.jobDid n e 4 1 id := State.fin_job h 4 1

/-- A strong access whose checks have passed goes on at its first place. -/
theorem State.strong_ok (s : State) (va n : Nat) (k : Access) (host t : Bool) (a : Nat) (p : Phys) (det : Bool) (go : State → Nat → Phys → Bool → State)
    (h : s.strongOk va n k host t a p det) : s.strong va n k host t go = go s a p det := by
  obtain ⟨⟨len, rest, h1, h2, h3⟩, h4, h5, h6, h7, h8, h9⟩ := h
  simp only [State.strong, State.access, h1]
  have hl : ¬ (k.acc = 0 ∧ (((a, len, p, det) :: rest).any fun x => !s.linked x.2.2.1) = true) := by
    rintro ⟨h, hx⟩
    rw [List.any_eq_true] at hx
    obtain ⟨x, hm, hx⟩ := hx
    rw [h2 h x hm] at hx
    simp at hx
  rw [if_neg hl]
  have hf : (if lateRefusal k = true then none else ((a, len, p, det) :: rest).find? fun x => s.refused (s.cxnOf s.cur) x.2.2.1 k.w k.r) = none := by
    split
    · rfl
    · rename_i hx
      rw [List.find?_eq_none]
      intro x hm
      rw [h3 (by simpa using hx) x hm]
      simp
  rw [hf]
  simp only
  rw [if_pos]
  have c4 : (!(lateRefusal k && s.refused (s.cxnOf s.cur) p k.w k.r)) = true := by
    cases hl : lateRefusal k
    · rfl
    · simp [h4 hl]
  cases p with
  | host x => simp [lowest, c4, h5 x rfl, h6, h7, h8, h9]
  | _ => simp [lowest, c4, h6, h7, h8, h9]

end Sys2Proof.Machine
end

