-- ==== Sys2Proof/Laws/Llc.lean ====
section
/-! SUPPORT. What the last-level cache's operations can do: they touch its lines and the poison of parts, and nothing else. -/
namespace Sys2Proof.Machine

/-- States that differ in the lines of the cache and in poison alone. -/
def State.SameButLlc (s t : State) : Prop := ∃ a b c, t = { s with llc := a, hbmP := b, llcP := c }

theorem State.SameButLlc.rfl' (s : State) : s.SameButLlc s := ⟨s.llc, s.hbmP, s.llcP, rfl⟩
theorem State.SameButLlc.trans {s t u : State} (h : s.SameButLlc t) (k : t.SameButLlc u) : s.SameButLlc u := by
  obtain ⟨a, b, c, rfl⟩ := h
  obtain ⟨x, y, z, rfl⟩ := k
  exact ⟨x, y, z, rfl⟩
theorem State.SameButLlc.hbm {s t : State} (h : s.SameButLlc t) : t.hbm = s.hbm := by
  obtain ⟨a, b, c, rfl⟩ := h
  rfl
theorem State.llcDrop_only (s : State) (p : LlcLine → Bool) : s.SameButLlc (s.llcDrop p) := ⟨_, _, _, rfl⟩
theorem State.llcTake_only (s : State) (l : Nat) (w : BitVec 16) (b : Bool) : s.SameButLlc (s.llcTake l w b) := by
  unfold State.llcTake
  split
  · exact ⟨_, s.hbmP, s.llcP, rfl⟩
  · exact ⟨_, _, _, rfl⟩
theorem State.llcWrite_only (s : State) (a n : Nat) : s.SameButLlc (s.llcWrite a n) := by
  unfold State.llcWrite
  generalize linesAt a n = l
  induction l generalizing s with
  | nil => exact .rfl' s
  | cons x l ih => exact (s.llcTake_only x _ true).trans (ih _)
theorem State.llcAccess_only (s : State) (a n : Nat) (w : Bool) : s.SameButLlc (s.llcAccess a n w).1 := by
  unfold State.llcAccess
  suffices h : ∀ (l : List Nat) (t : State) (k : Nat), s.SameButLlc t →
      s.SameButLlc (l.foldl (fun (x : State × Nat) m => (x.1.llcTake m (llcWords m a n) w, x.2 + bitAt (x.1.llcMiss m (llcWords m a n) w) 0)) (t, k)).1 from
    h _ s 0 (.rfl' s)
  intro l
  induction l with
  | nil => exact fun t _ h => h
  | cons x l ih => exact fun t _ h => ih _ _ (h.trans (t.llcTake_only x _ w))

end Sys2Proof.Machine
end

