-- ==== Sys2Proof/Tests/Slice0.lean ====
section
/-! SUPPORT. Tests: words of the spec's encodings, ill-formed terms, single steps, and for each statement a state and operands that meet
its hypotheses. -/
namespace Sys2Proof.Tests

-- One theorem after another: the kernel evaluations below would otherwise wait for each other, each on a thread of its own.
set_option Elab.async false
open Sys2Proof.Machine

/-! Small states. -/

/-- A job of context 0 on core 0 whose stream of an engine is about to issue. -/
def tj (e : Engine) : State := { State.reset.place1 (.job 0 e) [] with cur := .job 0 e, agenda := [] }
/-- The same after a change of its core. -/
def tc (e : Engine) (f : Core → Core) : State := (tj e).modCore 0 f
/-- A thread of queue 0 of context 0 about to issue. -/
def tq : State := { State.reset.place1 (.thread 0 0) [] with cur := .thread 0 0, agenda := [] }
/-- Scalars of a stream. -/
def sv (e : Engine) (l : List (Nat × Nat)) (c : Core) : Core :=
  c.setStr e (l.foldl (fun x z => x.ws z.1 (BitVec.ofNat 64 z.2) false) (c.str e))
def av (e : Engine) (l : List (Nat × Nat)) (c : Core) : Core :=
  c.setStr e (l.foldl (fun x z => x.wa z.1 (BitVec.ofNat 64 z.2) false) (c.str e))

/-! Scalar and control. -/

theorem witness_jobs : (tj .S).cur = .job 0 .S ∧ tq.cur = .thread 0 0 := by decide +kernel
/-- A job with p0 set and one return address. -/
def tRet : State := tc .S fun c => c.setStr .S { c.strS with p := 1, rs := [8] }
theorem witness_TransferResults :
    (tRet.core 0).strS.inSlot = false ∧ tRet.rp 0 = true ∧ tRet.rp 1 = false ∧ (tRet.core 0).strS.rs.length < 16 ∧
    (tRet.core 0).strS.rs = [8] ∧ (tRet.core 0).strS.hold = .none := by decide +kernel
def tSlot : State := tc .S fun c => c.setStr .S { c.strS with redirect := some (64, 2) }
theorem witness_DelaySlots : (tSlot.core 0).strS.redirect = some (64, 2) ∧ tSlot.cur = .job 0 .S ∧ (tSlot.core 0).strS.inSlot = true ∧
    (tSlot.core 0).stop = none := by decide +kernel
/-- A LOOP at the program counter whose body of one word ends at an ENDL. -/
def tLoop : State := { State.reset.place1 (.job 0 .S) (bytesOfWords [0x2F200000, 0x31000000]) with cur := .job 0 .S, agenda := [] }
theorem witness_LoopStarts : (tLoop.core 0).strS.inSlot = false ∧ (tLoop.core 0).strS.loops.length < 4 ∧
    tLoop.fetchWord (.job 0 .S) (0x20000 + 4) = .word 0x31000000 ∧ decodeWord .S 0x31000000 0 = .ok .endl :=
  ⟨by decide +kernel, by decide +kernel, by decide +kernel, rfl⟩
def tEnd (e : Engine) (k : BitVec 32) : State :=
  tc e fun c => c.setStr e { c.str e with loops := [{ start := 0x1FFFC, stop := 0x20000, remaining := k }] }
theorem witness_LoopEnds : ((tEnd .V 1).core 0).strV.loops = [{ start := 0x1FFFC, stop := 0x20000, remaining := 1 }] ∧
    ((tEnd .V 2).core 0).strV.pc = 0x20000 ∧ ((tEnd .S 2).core 0).strS.inSlot = false := by decide +kernel
theorem witness_SoftwareTraps : ((tj .S).core 0).stop = none ∧ (tj .S).cur = .job 0 .S ∧ tq.cur = .thread 0 0 ∧
    ((tc .S fun c => { c with strS := { c.strS with redirect := some (8, 1) } }).core 0).strS.redirect = some (8, 1) := by decide +kernel

/-! Guards, channels, semaphores, tags and waits. -/

/-- Slot 1 resolved true, slot 2 resolved false, slot 3 not resolved; a resolution of slot 4 from cycle 5 on. -/
def tGuard (v : Nat) : State := tc .S fun c => { c with gres := 7, gval := 3, gpend := [⟨v, 0, 0x10, true, true⟩] }
theorem witness_GuardSlots : ((tGuard 0).core 0).gpend = [⟨0, 0, 0x10, true, true⟩] ∧ (tGuard 0).now 0 = 0 ∧ (tGuard 5).now 0 < 5 := by decide +kernel
theorem witness_GuardedWords : (((tGuard 0).core 0).guardShut 1 ∨ ((tGuard 0).core 0).guardShut 2) ∧ ((tGuard 0).core 0).guardOpen 17 ∧
    ((tGuard 0).core 0).gres.getLsbD ((3 : Guard).toNat % 16) = false ∧ guardedWord (.mma 1 0 0 0 0 0 0 0 0) = some (1, 8) ∧
    guardedWord (.bar 3) = some (3, 4) ∧ ((tGuard 0).stream (tGuard 0).cur).hold = .none := by
  refine ⟨?_, Or.inr (Or.inr ?_), ?_, rfl, rfl, by decide +kernel⟩
  · exact Or.inl (by unfold Core.guardShut; decide +kernel)
  · decide +kernel
  · decide +kernel
/-- Channel 2 of four slots of 16 bytes at the scratchpad's start: one filled, one reserved. -/
def tChan : State :=
  tc .S fun c => sv .S [(4, 0), (5, 4 * 2 ^ 32 + 16)]
    (c.setChan 2 { Chan.reset with cfg := true, base := 0, size := 16, count := 4, pidx := 2, filled := 1, rsv := [(0, false)] })
theorem witness_ChannelResults : (tChan.rs 4).toNat % 2 ^ 32 % 16 = 0 ∧ (tChan.rs 5).toNat % 2 ^ 32 = 16 ∧
    (tChan.rs 5).toNat / 2 ^ 32 % 2 ^ 13 = 4 ∧ 0 + 16 * 4 ≤ 65536 * (tChan.core 0).sg ∧ ((tChan.core 0).chan 2).cfg = true ∧
    (1 : BitVec 12).toNat ≤ ((tChan.core 0).chan 2).filled - ((tChan.core 0).chan 2).taken ∧
    ((tChan.core 0).chan 2).filled - ((tChan.core 0).chan 2).taken < (2 : BitVec 12).toNat ∧
    (2 : BitVec 12).toNat ≤ ((tChan.core 0).chan 2).count - ((tChan.core 0).chan 2).filled - ((tChan.core 0).chan 2).rsv.length ∧
    ((tChan.core 0).chan 2).count - ((tChan.core 0).chan 2).filled - ((tChan.core 0).chan 2).rsv.length < (3 : BitVec 12).toNat ∧
    ((tChan.core 0).chan 3).cfg = false ∧ (tChan.core 0).stop = none ∧ ((tChan.core 0).chan 2).count < (5 : BitVec 12).toNat ∧
    (tChan.rs 4).toNat / 2 ^ 32 % 2 ^ 13 < 1 := by decide +kernel
def tSem (k : Nat) : State := tc .S fun c => c.setSem 7 k
/-- V is held on semaphore 7 for two. -/
def tSemV (k : Nat) : State := tc .S fun c => (c.setSem 7 k).setStr .V { c.strV with hold := .sem 7 2 }
theorem witness_SemaphoreResults_served : (((tSemV 1).core 0).str .V).hold = .sem (7 : BitVec 5).toNat 2 ∧
    (∀ f w, f ≠ .S → f ≠ .V → (((tSemV 1).core 0).str f).hold ≠ .sem (7 : BitVec 5).toNat w ∧
      (((tSemV 1).core 0).str f).hold ≠ .semDue (7 : BitVec 5).toNat w) ∧
    (∀ j w, (((tSemV 1).core 0).str .S).hold ≠ .sem j w ∧ (((tSemV 1).core 0).str .S).hold ≠ .semDue j w) ∧
    2 ≤ ((tSemV 1).core 0).sem (7 : BitVec 5).toNat + (1 : BitVec 12).toNat :=
  ⟨by decide +kernel, fun f w _ hv => by cases f <;> first | exact absurd rfl hv | exact ⟨fun h => Hold.noConfusion h, fun h => Hold.noConfusion h⟩,
    fun j w => ⟨fun h => Hold.noConfusion h, fun h => Hold.noConfusion h⟩, by decide +kernel⟩
theorem witness_SemaphoreResults : (∀ f j w, (((tSem 4094).core 0).str f).hold ≠ .sem j w) ∧
    (∀ f j w, (((tSem 4094).core 0).str f).hold ≠ .semDue j w) ∧
    ((tSem 4094).core 0).sem (7 : BitVec 5).toNat + (1 : BitVec 12).toNat ≤ 4095 ∧
    4095 < ((tSem 4094).core 0).sem (7 : BitVec 5).toNat + (2 : BitVec 12).toNat ∧ ((tSem 4094).core 0).stop = none ∧
    (4094 : BitVec 12).toNat ≤ ((tSem 4094).core 0).sem (7 : BitVec 5).toNat ∧ ((tSem 4094).core 0).sem (7 : BitVec 5).toNat < (4095 : BitVec 12).toNat :=
  ⟨fun f j w => by cases f <;> exact fun h => Hold.noConfusion h, fun f j w => by cases f <;> exact fun h => Hold.noConfusion h, by decide +kernel,
    by decide +kernel, by decide +kernel, by decide +kernel, by decide +kernel⟩
/-- A job of a kernel with the deterministic flag, tag 1 in flight. -/
def tTags : State :=
  ((tc .S fun c => sv .S [(4, 6), (5, 4)] { c with tags := c.tags.setIfInBounds 1 { infl := true, fb := false, abs := false, readyAt := 0 } }).modInst 0 16
    fun i => { i with det := true })
/-- The same with the flag off, and the trail too. -/
def tWall : State := tTags.modInst 0 16 fun i => { i with det := false }
theorem witness_TagResults : tTags.detCore 0 = true ∧ tTags.cur = .job 0 .S ∧ ((tTags.core 0).tag 1).infl = true ∧ ((tTags.core 0).tag 2).infl = false ∧
    tTags.rs 4 = 6 ∧ tTags.rs 5 = 4 ∧ (∀ k, k < 64 → (tTags.rs 5).getLsbD k = true → ((tTags.core 0).tag k).infl = false) ∧
    (tTags.rs 4).getLsbD 2 = true ∧ (∀ j, j < 2 → (tTags.rs 4).getLsbD j = true → ((tTags.core 0).tag j).infl = true) ∧
    (tTags.rs 6 = 0 ∧ ∀ k, k < 64 → (tTags.rs 6).getLsbD k = true → (tTags.core 0).tagReady true k = false) := by decide +kernel
theorem witness_TagResults_wall : tWall.detCore 0 = false ∧ (tWall.ctx (tWall.cxnOf tWall.cur)).trail.mode = 0 ∧ (tWall.core 0).tagReady false 1 = false ∧
    (tWall.core 0).tagReady false 2 = true ∧ (tWall.rs 4).getLsbD 1 = true ∧ (∀ k, k < 64 → (tWall.rs 5).getLsbD k = true → (tWall.core 0).tagReady false k = true) := by
  decide +kernel
theorem witness_WaitsAndHolds : ((tj .S).rs 0 + BitVec.ofInt 64 (0 : BitVec 12).toInt).toNat ≤ (tj .S).now 0 ∧
    (tj .S).now 0 < ((tj .S).rs 0 + BitVec.ofInt 64 (1 : BitVec 12).toInt).toNat ∧ ((tj .S).core 0).strS.hold = .none ∧
    ((tj .S).core 0).strS.inSlot = false ∧ ((tj .S).core 0).rb = 0 := by decide +kernel
/-- S stands at a BAR that waits for the accesses before number 4, or has arrived. -/
def tBarDue (h : Hold) : State := tc .S fun c => c.setStr .S { c.strS with hold := h }
theorem witness_WaitsAndHolds_bar : (tBarDue (.barDue 4)).cur = .job 0 .S ∧ ((tBarDue (.barDue 4)).core 0).strS.hold = .barDue 4 ∧
    ((tBarDue (.bar false 3)).core 0).strS.hold = .bar false 3 := by decide +kernel
/-- S is held at a VCWAIT whose cycle has come. -/
def tClock : State := tc .S fun c => c.setStr .S { c.strS with hold := .clock }
theorem witness_WaitsAndHolds_clock : ((tClock.rs 0 + BitVec.ofInt 64 (0 : BitVec 12).toInt).toNat ≤ tClock.now 0) ∧ tClock.cur = .job 0 .S ∧
    (((tClock.core 0).str .S).hold = .clock) := by decide +kernel
/-- A core that has stored byte 15 of the line at 0x30000, and the same line after a FENCE from LS to GA. -/
def lFence : PsbLine := { va := 0x30000, loc := .hbm 0x30000 0, mask := 0x8000, taint := 1, data := 5 <<< 120, writer := [], det := false, fenced := 0, born := 0 }
def cFence (l : PsbLine) : Core := { (tj .S).core 0 with psb := [l] }
/-- S stands at FENCE with a load of its own on its way, sequence number 4, due later, and one of V's, 3; V has signalled semaphore 1. -/
def pastV : Past := { ls := #v[0, 4, 0, 0], cp := 0 }
def tFence (o : Order) : State := tc .S fun c => { c with seq := 4, order := o, pend := [{ seq := 3, due := 90, ls := true, target := .vld 1 0 16 }] }
theorem witness_FenceResults : ((tj .S).core 0).pend = [] ∧ ((tj .S).core 0).copies = [] ∧ (cFence lFence).psbLine 0x3000F = some lFence ∧
    (cFence lFence).psbByte 0x3000F = some (5, true) ∧ lFence.fenced.getLsbD (64 * (2 - 1) + 0x3000F % 64) = false ∧
    (cFence (lFence.fence 4)).psbByte 0x3000F = some (5, true) ∧ (lFence.fence 4).fenced.getLsbD (64 * (2 - 1) + 0x3000F % 64) = true ∧
    (lFence.fence 4).fenced.getLsbD (64 * (1 - 1) + 0x3000F % 64) = false := by decide +kernel
/-- R71, R83: a load of V's that nothing orders before the FENCE does not hold it; one that a semaphore orders before it does. -/
theorem witness_FenceResults_held : ((tFence .reset).core 0).fenced (((tFence .reset).core 0).pastOf .S 5) 1 = true ∧
    ((tFence (({ Order.reset with sems := [(1, 2, pastV)] } : Order).waited .S 1 2)).core 0).fenced
      (((tFence (({ Order.reset with sems := [(1, 2, pastV)] } : Order).waited .S 1 2)).core 0).pastOf .S 5) 1 = false ∧
    ((tFence .reset).core 0).strS.hold = .none := by decide +kernel
/-- R83: what copies see of that byte before and after the FENCE. -/
theorem test_fence_copy : (cFence lFence).copySees 2 0x3000F false = none ∧ (cFence (lFence.fence 4)).copySees 2 0x3000F false = some (5, true) ∧
    (cFence (lFence.fence 4)).copySees 3 0x3000F false = none := by decide +kernel
theorem witness_StatusRegisters : (tj .S).statusJob 0 .S 3 = some ((tj .S).core 0).shape ∧ ((tj .S).statusJob 0 .S 0x41).isSome = true ∧
    lowest (((tj .S).core 0).statusConds 3 0x00000C0000000000) = 8 ∧ lowest (((tj .S).core 0).statusConds 1 ((tj .S).rs 0)) = 0 := by decide +kernel
theorem witness_WritesLand : ((tc .S fun c => { c with pend := [{ seq := 3, due := 0, ls := false, target := .s .S 63 7 true }] }).core 0).pend =
    [{ seq := 3, due := (tj .S).now 0, ls := false, target := .s .S 63 7 true }] := by decide +kernel

/-! Memory. -/

/-- a1 at 0x30008 in context memory and scratchpad 8; s2 the value stored, tainted. -/
def tMem (e : Engine) : State :=
  tc e fun c => (c.setStr e (((c.str e).wa 1 0x30008 false).ws 2 0x1122334455667788 true)).setStr e ((((c.str e).wa 1 0x30008 false).wa 2 8 false).ws 2 0x1122334455667788 true)
def pMem (n : Nat) : List (Nat × Nat × Phys × Bool) := [(0x30008, n, .hbm 0x30008 0x10000, false)]
theorem tMem_ok (n : Nat) (k : Access) (h : (tMem .S).transRange 0 0 0x30008 n k = .ok (pMem n)) (hc : (tMem .S).cxnOf (.job 0 .S) = 0)
    (hg : (tMem .S).genOf (.job 0 .S) = 0) : (tMem .S).accessOk (.job 0 .S) 0x30008 n k (pMem n) := by
  refine ⟨by rw [hc, hg]; exact h, fun _ x hx => ?_, fun _ x hx => ?_⟩
  all_goals (simp only [pMem, List.mem_singleton] at hx; subst hx; rfl)
theorem tMem_strong (n : Nat) (k : Access) (h : (tMem .S).transRange 0 0 0x30008 n k = .ok (pMem n)) (hc : (tMem .S).cxnOf (.job 0 .S) = 0)
    (hg : (tMem .S).genOf (.job 0 .S) = 0) (ha : 0x30008 % n = 0) (hm : (tMem .S).mixClash 0 n (.hbm 0x30008 0x10000) = false) (host t : Bool) :
    (tMem .S).strongOk 0x30008 n k host t 0x30008 (.hbm 0x30008 0x10000) false :=
  ⟨⟨n, [], tMem_ok n k h hc hg⟩, fun _ => rfl, fun _ hx => Phys.noConfusion hx, rfl, ha, hm, by cases t <;> rfl⟩
theorem witness_LoadResults : ((tMem .S).ra 1 + BitVec.ofInt 64 ((-1 : BitVec 12).toInt * 2 ^ (3 : BitVec 2).toNat)).toNat = 0x30000 ∧
    ((tMem .S).ra 1 + BitVec.ofInt 64 ((0 : BitVec 12).toInt * 2 ^ (3 : BitVec 2).toNat)).toNat = 0x30008 ∧
    (tMem .S).accessOk (.job 0 .S) 0x30008 8 accLoad (pMem 8) ∧ ((tMem .S).loadRange 0 0x30008 (pMem 8)).2.poison = 0 ∧
    ((tMem .S).core 0).psbByte 0x3000F = none ∧ ((tMem .S).core 0).snapPart 0x30008 = none ∧ ((tMem .S).core 0).snap.length < 8192 :=
  ⟨by decide +kernel, by decide +kernel, tMem_ok 8 _ (by decide +kernel) (by decide +kernel) (by decide +kernel), by decide +kernel,
    by decide +kernel, by decide +kernel, by decide +kernel⟩
theorem witness_LoadValues :
    ((tc .S fun c => { c with psb := [{ va := 0x30000, loc := .hbm 0x30000 0, mask := 0x8000, taint := 1, data := 5 <<< 120, writer := [], det := false, fenced := 0, born := 0 }] }).core 0).psbByte
      0x3000F = some (5, true) ∧
    ((tc .S fun c => { c with snap := [{ va := 0x30000, data := 9 <<< 120, taint := true, poison := 0 }] }).core 0).snapPart 0x30008 =
      some { va := 0x30000, data := 9 <<< 120, taint := true, poison := 0 } := by decide +kernel
theorem witness_StoreResults : (tMem .S).accessOk (.job 0 .S) 0x30008 8 accStore (pMem 8) ∧
    (∀ x ∈ pMem 8, (tMem .S).taintStop (.job 0 .S) x.2.2.2 ((tMem .S).rsT 2) = false) ∧ (tMem .S).rsT 2 = true ∧
    ((tMem .S).core 0).psb.length + (pMem 8).length ≤ 2048 ∧ ((tMem .S).core 0).psbFull = false ∧ ((tMem .S).core 0).psb.length < 2048 :=
  ⟨tMem_ok 8 _ (by decide +kernel) (by decide +kernel) (by decide +kernel), by decide +kernel, by decide +kernel, by decide +kernel, by decide +kernel, by decide +kernel⟩
/-- A thread whose a1 is 0x30008. -/
def tqa : State := tq.modQueue 0 0 (Queue.onThread (·.wa 1 0x30008 false))
theorem tqa_strong (k : Access) (h : tqa.transRange 0 0 0x30008 8 k = .ok (pMem 8)) (t : Bool) :
    tqa.strongOk 0x30008 8 k true t 0x30008 (.hbm 0x30008 0x10000) false := by
  refine ⟨⟨8, [], h, fun _ x hx => ?_, fun _ x hx => ?_⟩, fun _ => rfl, fun _ hx => Phys.noConfusion hx, rfl, by decide +kernel, by decide +kernel,
    by cases t <;> rfl⟩
  all_goals (simp only [List.mem_singleton] at hx; subst hx; rfl)
theorem witness_ThreadResults : tqa.cur = .thread 0 0 ∧ (tqa.queue 0 0).thread.inSlot = false ∧
    (tqa.ra 1 + BitVec.ofInt 64 ((0 : BitVec 12).toInt * 2 ^ (3 : BitVec 2).toNat)).toNat = 0x30008 ∧ 0x30008 % 2 ^ (3 : BitVec 2).toNat = 0 ∧
    tqa.strongOk 0x30008 8 accLoad true false 0x30008 (.hbm 0x30008 0x10000) false ∧
    tqa.strongOk 0x30008 8 accStore true true 0x30008 (.hbm 0x30008 0x10000) false :=
  ⟨by decide +kernel, by decide +kernel, by decide +kernel, by decide +kernel, tqa_strong _ (by decide +kernel) _, tqa_strong _ (by decide +kernel) _⟩
theorem witness_ScratchpadResults : ((tMem .S).core 0).window 8 8 = some 8 ∧ (8 + 1) % 8 ≠ 0 ∧
    ((tc .S fun c => { c with dbw0 := 0x8000000000010000 }).core 0).window 60 8 = none ∧ ((tj .S).core 0).stop = none := by decide +kernel
theorem witness_AtomicsIssue : ((tMem .S).core 0).guardOpen 0 ∧ aOk 1 = true ∧ sOk 2 = true ∧ pairOk 2 = true ∧
    ((tMem .S).ra ((1 : F6).setWidth 4)).toNat = 0x30008 ∧
    (tMem .S).strongOk 0x30008 8 accAtomic false true 0x30008 (.hbm 0x30008 0x10000) false ∧
    (tMem .S).strongOk 0x30008 4 accAtomic false true 0x30008 (.hbm 0x30008 0x10000) false ∧
    (tMem .S).strongOk 0x30008 8 accStrongLoad true false 0x30008 (.hbm 0x30008 0x10000) false ∧
    (tMem .S).strongOk 0x30008 8 accStrongStore true true 0x30008 (.hbm 0x30008 0x10000) false ∧
    (tMem .S).translate 0 0 0x30008 accAtomic = .ok (.hbm 0x30008 0x10000) false 0x30008 { out := 0x30008, level := 0, val := placeLeaf, addr := placeTable } :=
  ⟨Or.inl rfl, rfl, rfl, rfl, by decide +kernel, tMem_strong 8 _ (by decide +kernel) (by decide +kernel) (by decide +kernel) rfl (by decide +kernel) _ _,
    tMem_strong 4 _ (by decide +kernel) (by decide +kernel) (by decide +kernel) rfl (by decide +kernel) _ _,
    tMem_strong 8 _ (by decide +kernel) (by decide +kernel) (by decide +kernel) rfl (by decide +kernel) _ _,
    tMem_strong 8 _ (by decide +kernel) (by decide +kernel) (by decide +kernel) rfl (by decide +kernel) _ _, by decide +kernel⟩
/-- a1 at 0x30010 for accesses of 16 bytes. -/
def tPair : State := tc .S (av .S [(1, 0x30010)])
theorem witness_AtomicsIssue16 : (tPair.ra 1).toNat = 0x30010 ∧ tPair.transRange 0 0 0x30010 16 accAtomic = .ok [(0x30010, 16, .hbm 0x30010 0x10000, false)] ∧
    tPair.transRange 0 0 0x30010 16 accStrongLoad = .ok [(0x30010, 16, .hbm 0x30010 0x10000, false)] ∧
    tPair.transRange 0 0 0x30010 16 accStrongStore = .ok [(0x30010, 16, .hbm 0x30010 0x10000, false)] ∧ tPair.mixClash 0 16 (.hbm 0x30010 0x10000) = false := by
  decide +kernel
/-- A fetched addition waits at its home. -/
def xAdd : Strong := { mkStrong .S (.rmw 1) 8 0x30008 (.hbm 0x30008 0x10000) false (some 5) 3 false 0 1 with id := 7, due := 9 }
def tStrong : State := tc .S fun c => { c with strong := [xAdd], pend := [{ seq := 8, due := 9, ls := true, target := .await 7 }] }
def xAred : Strong := { mkStrong .S (.ared 2 0 1) 4 0x30008 (.hbm 0x30008 0x10000) false none 3 true 0 0 with id := 7, due := 9 }
theorem witness_StrongPerformance : tStrong.nextStrong (.job 0 .S) = some xAdd ∧ xAdd.op.isAred = false ∧ tStrong.reaches xAdd.loc = true ∧ tStrong.sent (.job 0 .S) xAdd = true ∧
    tStrong.mixClash (tStrong.cxnOf (.job 0 .S)) xAdd.size xAdd.loc = false ∧ tStrong.mixOpen (.job 0 .S) xAdd = [] ∧
    (tStrong.ctx 0).trail.mode = 0 ∧ (tStrong.ctx 0).track = false ∧ tStrong.physPoison xAdd.loc 8 = 0 ∧
    (tc .S fun c => { c with strong := [xAred] }).nextStrong (.job 0 .S) = some xAred ∧ ((tj .S).core 0).member = some (0, 16, 0, 0) ∧
    ((tj .S).ctx 0).insts.all (fun z => z.slots == []) = true ∧ ((tj .S).inst? 0 16).isSome = true := by decide +kernel
/-- With MIXDBG, an access of 16 bytes has tagged the part of xAdd (R80). -/
def tClash : State := tStrong.modCtx 0 fun c => { c with mixdbg := true, mix := [(0x30000 / 16, 0x30000, 16, 16)] }
theorem witness_StrongPerformance_clash : tClash.mixClash (tClash.cxnOf (.job 0 .S)) xAdd.size xAdd.loc = true ∧ tClash.reaches xAdd.loc = true ∧ tClash.sent (.job 0 .S) xAdd = true ∧
    tClash.nextStrong (.job 0 .S) = some xAdd := by decide +kernel
/-- Queue thread 5 has stored 4 bytes in the middle of those of xAdd; V has, and S comes after V's accesses below number 4 or 3. -/
def mark4 (w : Who) (id : Nat) : Mark :=
  { doer := { who := w, id := id, stamp := 0, past := .reset, deps := [] }, plain := false, low := 0x3000A, size := 4, wrote := some 6, known := [(w, id, 0)] }
def tMark (w : Who) (id : Nat) : State := tStrong.modCtx 0 fun c => { c with marks := { n := 1, l := [mark4 w id] } }
/-- R71, R80: an order between the two accesses, and none. -/
theorem test_mix_open : (tMark (.thread 5) 0).mixOpen (.job 0 .S) xAdd = [0x3000A, 0x3000B, 0x3000C, 0x3000D] ∧
    (tMark (.stream 16 0 0 .V) 3).mixOpen (.job 0 .S) { xAdd with past := { ls := #v[0, 4, 0, 0], cp := 0 } } = [] ∧
    (tMark (.stream 16 0 0 .V) 3).mixOpen (.job 0 .S) { xAdd with past := { ls := #v[0, 3, 0, 0], cp := 0 } } = [0x3000A, 0x3000B, 0x3000C, 0x3000D] ∧
    (((tMark (.thread 5) 0).joinMarks 0 [0]).mixOpen (.job 0 .S) xAdd).length = 4 ∧
    (tMark (.stream 16 0 0 .S) 3).mixOpen (.job 0 .S) xAdd = [] := by decide +kernel
/-- A peer behind a link that is down, and an access whose line has not left its port. -/
theorem witness_StrongPerformance_link : tStrong.reaches (.peer 1 0) = false ∧
    (tStrong.modCtx 0 fun c => { c with requests := [(0, [⟨1, .hbm, .strong 7, none⟩])] }).sent (.job 0 .S) xAdd = false ∧
    ((tc .S fun c => { c with strong := [xAred] }).sent (.job 0 .S) xAred) = true := by decide +kernel

/-! Vector words. -/

/-- The conditions of a V word on a core, as they are decided. -/
def rdy (p : BitVec 1) (c : Core) (v : VSpec) : Bool := lowest (v.allConds c) == 0 && v.ready c (p == 1)
theorem rdy_ok {p : BitVec 1} {c : Core} {v : VSpec} (h : rdy p c v = true) : c.vReady v p := by
  simp only [rdy, Bool.and_eq_true, beq_iff_eq] at h
  exact h
/-- A V stream under a shape of 1 row, 4 columns and a type; channel 0 has a filled slot and two free ones; s4 is 64, s5 is 0, s6 names
the experts 2 and 3. -/
def tv (ty : Nat) : State :=
  tc .V fun c => sv .V [(4, 64), (5, 0), (6, 2 * 2 ^ 44 + 2 * 2 ^ 32), (7, 0x0000C00000000C00)] (
    ({ c with shape := BitVec.ofNat 64 (0x0000C00000000C00 + ty * 2 ^ 20) }).setChan 0
      { Chan.reset with cfg := true, base := 0, size := 16, count := 3, pidx := 1, filled := 1 })
theorem witness_guard : ((tv 0).core 0).guardOpen 0 ∧ (tv 0).cur = .job 0 .V := ⟨Or.inl rfl, by decide +kernel⟩
theorem witness_ElementwiseResults :
    ([.add, .sub, .mul, .min, .max, .fma, .fms, .abs, .neg, .and, .or, .xor].all fun (op : VOp) => rdy 0 ((tv 0).core 0)
      { conds := [(op.okFor (.fp .f32), 10), (!op.addend || vOk 3, 10)], srcs := [(48, 16), (2, 16)]
        dst := if op.addend then vOnly 3 16 else some (48, 16), interval := 1 }) = true ∧
    ([.shl, .shr, .sra, .mulh, .adds, .subs].all fun (op : VOp) => rdy 1 ((tv 0x0B).core 0)
      { conds := [(op.okFor (.int true 32), 10), (!op.addend || vOk 3, 10)], srcs := [(1, 16), (2, 16)], dst := some (3, 16), interval := 1 }) = true ∧
    ((tv 0x0B).core 0).sh = { rows := 1, cols := 4, ty := .int true 32 } := by decide +kernel
theorem witness_PredicateWords :
    ([{ conds := [(cmpOk (.fp .f32) 3, 10)], srcs := [(1, 16), (2, 16)], dst := none, interval := 1 },
      { conds := [(vOk 3 && vpOk 2, 10)], srcs := [(1, 16)], dst := vOnly 3 16, interval := 1 },
      { conds := [(vpOk 3 && vpOk 1 && vpOk 2, 10)], srcs := [], dst := none, interval := 1 },
      { conds := [(vpOk 1, 10)], srcs := [], dst := none, interval := 1 },
      { conds := [(vpOk 3 && vOk 1, 10)], srcs := [(1, 16)], dst := none, interval := 1 },
      { conds := [(vOk 3 && vpOk 1, 10)], srcs := [], dst := vOnly 3 16, interval := 1 }].all (rdy 0 ((tv 0).core 0))) = true := by decide +kernel
theorem witness_ConversionsAndReductions :
    ElTy.ofCode (0x0B : BitVec 5).toNat = some (.int true 32) ∧
    rdy 0 ((tv 0).core 0) { conds := cvtConds ((tv 0).core 0).sh (some (.int true 32)), srcs := [(1, 16)], dst := some (3, 16), interval := 1 } = true ∧
    rdy 0 ((tv 1).core 0) { conds := [(vOk 2, 10), (decide (((tv 1).core 0).sh.ty ≠ .fp .f32) && !((tv 1).core 0).sh.ty.isRaw, 10), (decide (4 * 32 ≤ 8192), 8)]
                            srcs := [(1, 16)], dst := some (3, 8), interval := 1 } = true ∧
    rdy 0 ((tj .V).core 0) { conds := [(sOk 5, 10), (true, 10), (decide (((tj .V).core 0).sh.n % 64 = 0), 8)]
                             srcs := [(1, 1024)], dst := some (3, 1024), interval := 2 } = true ∧
    rdy 0 ((tv 0).core 0) { conds := [(vOk 3, 10), (!((tv 0).core 0).sh.ty.isRaw, 10)], srcs := [(1, 16)], dst := vOnly 3 16, interval := 1 } = true := by
  decide +kernel
theorem witness_MoveResults :
    ([{ conds := [(vOk 3, 10), (decide (4 ≤ 512), 8)], srcs := [(1, 16), (2, 8)], dst := vOnly 3 16, interval := 1 },
      { conds := [(vOk 3 && sOk 5, 10), (decide (((tv 0).rs 5).toNat < 1), 8)], srcs := [(1, 16)], dst := vOnly 3 16, interval := 1 },
      { conds := [(vOk 3, 10)], srcs := [(1, 16)], dst := vOnly 3 16, interval := 1 },
      { conds := [], srcs := [(48, 16)], dst := some (48, 16), interval := 1 },
      { conds := [(vOk 3 && sOk 5, 10)], srcs := [], dst := vOnly 3 16, interval := 1 }].all (rdy 0 ((tv 0).core 0))) = true := by decide +kernel
theorem witness_VectorMemory :
    ([{ conds := [(sOk 4, 10), (decide (((tv 0).rs 4).toNat % 16 = 0), 24), ((((tv 0).core 0).window 64 16).isSome, 24)], srcs := [], dst := some (48, 16), interval := 1 },
      { conds := [(sOk 4, 10), (decide (((tv 0).rs 4).toNat % 16 = 0), 24), ((((tv 0).core 0).window 64 16).isSome, 24)], srcs := [(48, 16)], dst := none, interval := 1 },
      { conds := [(vOk 3 && sOk 4, 10)] ++ ((tv 0).core 0).gatherConds 64 2 0, srcs := [(2, 8)], dst := vOnly 3 16, interval := 1 },
      { conds := [(sOk 4, 10)] ++ ((tv 0).core 0).gatherConds 64 2 0, srcs := [(3, 16), (2, 8)], dst := none, interval := 1 },
      { conds := [(sOk 4, 10)], srcs := [], dst := some (3, 16), interval := 1 }].all (rdy 0 ((tv 0).core 0))) = true ∧
    (tv 0).transRange 0 0 64 16 accLoad = .ok [(64, 16, .hbm 64 0x10000, false)] ∧ (tv 0).transRange 0 0 64 16 accStore = .ok [(64, 16, .hbm 64 0x10000, false)] ∧
    ((tv 0).loadRange 0 64 [(64, 16, .hbm 64 0x10000, false)]).2.poison = 0 := by decide +kernel
theorem witness_SpecialVectorResults :
    rdy 0 ((tv 0).core 0) { conds := [(decide (((tv 0).core 0).sh.ty = .fp .f32), 10)], srcs := [(1, 16)], dst := some (3, 16), interval := 1 } = true ∧
    rdy 0 ((tv 0).core 0) { conds := [(sOk 4 && sOk 5, 10)], srcs := [], dst := some (3, 1024), interval := 2 } = true ∧
    rdy 0 ((tv 0x0F).core 0)
      { conds := [(sOk 6, 10), (((tv 0x0F).core 0).sh.ty = .int false 16 || ((tv 0x0F).core 0).sh.ty = .int false 32, 10), (decide (0 < 2) && decide (2 + 2 ≤ 4096), 10),
          (decide (0 % 16 = 0), 24), ((((tv 0x0F).core 0).window 0 (8 * 2 + 4 * 4)).isSome, 24)]
        srcs := [(1, 16), (2, 16)], dst := none, interval := 1 } = true ∧
    rdy 0 ((tv 0).core 0) { conds := [(vOk 3 && sOk 4, 10)], srcs := [], dst := vOnly 3 1024, interval := 1 } = true ∧
    lowest (shapeConds ((tv 0).core 0).vg ((tv 0).rs 7)) = 0 := by decide +kernel
theorem witness_DirectionalResults :
    ([{ conds := [(dOk 3, 10), (decide (4 ≤ 256), 8), (decide (((tv 0).core 0).sh.ty ≠ .raw 8) && decide (((tv 0).core 0).sh.ty ≠ .raw 32), 10)]
        srcs := [(48, 16)], dst := none, interval := 2 },
      { conds := [(dOk 1, 10), (decide (4 ≤ 256), 8)], srcs := [], dst := some (3, 16), interval := 1 },
      { conds := [(dOk 1, 10), (decide (4 ≤ 256), 8)], srcs := [], dst := some (3, 8), interval := 1 },
      { conds := [(dOk 1 && dOk 2 && sOk 3, 10), (decide (4 ≤ 256), 8)], srcs := [], dst := none, interval := 1 },
      { conds := [(vOk 3 && dOk 1 && dOk 15, 10), (decide (4 ≤ 256), 8)], srcs := [], dst := none, interval := 4 },
      { conds := [(sOk 3 && dOk 1, 10)], srcs := [], dst := none, interval := 1 }].all (rdy 0 ((tv 0).core 0))) = true := by decide +kernel

/-! The matrix engine. -/

/-- An M stream: s4 is 64, s5 names four rows, s6 a spill of one row to byte 0, s7 a spill of the whole array; an i8 MMA of k = 16 reads
byte 64 and byte 320. -/
def tm (f : MEng → MEng) : State :=
  tc .M fun c => sv .M [(4, 64), (5, 4), (6, 2 ^ 63), (7, 0), (8, 320), (9, 512)] { c with m := f { c.m with mctl := 0 } }
def xMma : MmaWord := ⟨0, 4, 8, 0, 1, 3, 9, 9, 15⟩
/-- An MMA whose last step is done. -/
def mDone : Mma :=
  { word0 := xMma.word0, word1 := xMma.word1, abase := 64, bbase := 320, sca := 0, scb := 0, astr := 0, bstr := 0, th := 0, tw := 0, ach := none
    bch := none, fin := 0, fstep := 1000, fph := 0, started := true, resume := 0 }
theorem witness_MatrixResults : ((tm id).core 0).chanOk 4 = true ∧ ((tm id).core 0).mmaBase 4 0 % 16 = 0 ∧ ((tm id).core 0).window 64 16 = some 64 ∧
    ((tm id).rs 4).toNat % 4 = 0 ∧ lowest (((tm id).core 0).mmaCauses xMma) = 0 ∧ ((tm id).core 0).mmaReady xMma = true ∧
    lowest (((tm fun m => { m with mmas := [mDone, mDone] }).core 0).mmaCauses xMma) = 0 ∧
    ((tm fun m => { m with mmas := [mDone, mDone] }).core 0).mmaReady xMma = false := by decide +kernel
theorem witness_MatrixJoins : ((tm id).core 0).m.mmas = [] ∧ ((tm id).core 0).strM.hold = .none ∧ 1 ≤ ((tm id).rs 5).toNat ∧ ((tm id).rs 5).toNat ≤ 128 ∧
    ((tm id).rs 9).toNat % 512 = 0 ∧ ((tm id).rs 9).toNat + 512 * ((tm id).rs 5).toNat ≤ 65536 * ((tm id).core 0).ag ∧
    (((tm id).core 0).window (W64.f ((tm id).rs 6) 31 0) (spillSize ((tm id).rs 6)).1).isSome = true ∧ ((tm id).rs 6).getLsbD 63 = true ∧
    (W64.f ((tm id).rs 6) 47 32 + W64.f ((tm id).rs 6) 55 48 + 1) * 512 ≤ 65536 * ((tm id).core 0).ag ∧
    (((tm id).core 0).window (W64.f ((tm id).rs 7) 31 0) (spillSize ((tm id).rs 7)).1).isSome = true := by decide +kernel
/-- A posted MCFG. -/
theorem witness_MatrixJoins_mwaitf : ((tm fun m => { m with follow := [(0x80B00400, 0, 0)] }).modInst 0 16 fun i => { i with groups := i.groups.map fun g => { g with vcyc := 3 } }).now 0 = 3 ∧
    decodeM 0x80B00400 0 = .ok (.mcfg 0 4) := ⟨by decide +kernel, rfl⟩
/-- The other kinds that may be posted, a kind that may not, and a posted command under guard slot 1. -/
theorem witness_MatrixJoins_posted : decodeM 0x80100400 0 = .ok (.mlda 0 4 0) ∧ decodeM 0x80200400 0 = .ok (.mldb 0 4 0) ∧ decodeM 0x80300400 0 = .ok (.mldas 0 4) ∧
    decodeM 0x80400400 0 = .ok (.mldbs 0 4) ∧ decodeM 0x80600000 0 = .ok (.mzero 0) ∧ fld xMma.word0 14 6 = xMma.d ∧
    decodeM xMma.word0 xMma.word1 = .ok (.mma 0 xMma.a xMma.b xMma.p xMma.z xMma.prof xMma.fa xMma.fb xMma.km1) ∧ decodeM 0x80C10000 0 = .ok (.mstat 0 4) ∧
    decodeM 0x84B00400 0 = .ok (.mcfg 1 4) ∧ guardedWord (.mcfg 1 4) = some (1, 4) ∧ ((tm id).core 0).stop = none := by
  exact ⟨rfl, rfl, rfl, rfl, rfl, by decide +kernel, rfl, rfl, rfl, rfl, by decide +kernel⟩
/-- An image of an idle array at scratchpad 0. -/
theorem witness_MatrixJoins_mfill : ((tc .M id).core 0).imageOk (((tc .M fun c => c.spWrite 0 [(1, false), (0, false), (1, false)]).core 0).fillImage 0) = true := by decide +kernel
theorem witness_ArrayEvents : (((tm id).groupOf 0).map (·.stand)).getD false = false ∧ mDone.steps ≤ mDone.fstep ∧ mDone.fin ≤ 2000 ∧
    ({ mDone with fstep := 0 } : Mma).fstep < ({ mDone with fstep := 0 } : Mma).steps := by decide +kernel

/-! The copy engine. -/

/-- Descriptors in scratchpad: at 256 one dimension of four words, at 320 an index descriptor, at 384 a collective's; an index list at
448; s1 to s3 name ends in scratchpad, s4, s5 and s6 the descriptors, s7 a context address, s8 a count of 64 bytes. -/
def tx : State :=
  tc .X fun c =>
    let w := fun (k : Core) (a : Nat) (l : List Nat) => k.spWrite a (tainted false (l.flatMap (leBytes 4)))
    let c1 := w c 256 [4, 0, 0, 0, 4, 0, 0, 0, 4, 0, 0, 0, 0x80B00400, 0, 0, 0]
    let c2 := w c1 320 [448, 4, 8, 16, 0x300, 0, 0, 0]
    let c3 := w c2 384 [0x40000, 0, 1, 0, 4, 7, 0, 0]
    (sv .X [(1, 2 ^ 63 + 1024), (2, 2 ^ 63 + 2048), (3, 2 ^ 63 + 4096), (4, 256), (5, 320), (6, 384), (7, 0x40000), (8, 64)] c3).setChan 0
      { Chan.reset with cfg := true, base := 8192, size := 16, count := 2, filled := 1 }
def dAff : BitVec 512 := (((tx.core 0).descriptor (tx.rs 4) 64).getD 0)
def dIdx : BitVec 512 := (((tx.core 0).descriptor (tx.rs 5) 32).getD 0)
def dCol : BitVec 512 := (((tx.core 0).descriptor (tx.rs 6) 32).getD 0)
/-- What an issuing footprint has found. -/
def fine (f : Foot) : Bool := f.park == none && f.bad == none && f.view == false
theorem witness_CopiesIssue : (tx.core 0).descriptor (tx.rs 4) 64 = some dAff ∧ affTotal dAff 1 4 = 16 ∧ followOk (BitVec.ofNat 32 (descNat dAff 48 4)) = true ∧
    ((tx.core 0).tag 5).infl = false ∧ (tx.core 0).copy? 5 = none ∧ copyEnd (tx.rs 1) = .sp 1024 ∧ copyEnd (tx.rs 2) = .sp 2048 ∧
    affAligned dAff 1 4 (some (.sp 1024)) (some (.sp 2048)) = true ∧ affAligned dAff 1 4 none (some (.sp 2048)) = true ∧
    affAligned dAff 1 4 (some (.sp 1024)) none = true ∧ lowest ((tx.core 0).chanConds 0 16) = 0 ∧
    fine (tx.footprint 0 accCopyRead (affElts dAff 1 4 (some (.sp 1024)) (some (.sp 2048)))) = true ∧
    fine (tx.footprint 0 accCopyRead (affElts dAff 1 4 none (some (.sp 2048)))) = true ∧
    fine (tx.footprint 0 accCopyRead (affElts dAff 1 4 (some (.sp 1024)) none)) = true := by decide +kernel
theorem witness_CopiesIssue_indexed : (tx.core 0).descriptor (tx.rs 5) 32 = some dIdx ∧ descNat dIdx 0 4 = 448 ∧ descNat dIdx 4 4 = 4 ∧ descNat dIdx 8 4 = 8 ∧
    descNat dIdx 12 4 = 16 ∧ descNat dIdx 16 1 = 0 ∧ descNat dIdx 17 1 % 64 = 3 ∧ (tx.core 0).window 448 (4 * 2) = some 448 ∧ ((tx.core 0).tag 3).infl = false ∧
    fine (tx.footprint 0 accCopyRead (idxElts true (.sp 1024) (.sp 2048) 8 16 65535 [(0, false), (0, false), (0, false), (0, false)])) = true ∧
    fine (tx.footprint 0 accCopyRead (idxElts false (.sp 1024) (.sp 2048) 8 16 65535 [(0, false), (0, false), (0, false), (0, false)])) = true := by decide +kernel
theorem witness_FetchesIssue : copyEnd (tx.rs 7) = .cm 0x40000 ∧ W64.f (tx.rs 8) 31 0 = 64 ∧
    fine (tx.footprint 0 accXfetch (runElts (.sp 1024) (.cm 0x40000) 64 16)) = true ∧ (tx.footprint 0 accXfetch (runElts (.sp 1024) (.cm 0x40000) 64 16)).tiers = [] ∧
    (tx.footprint 0 accXfetch (runElts (.sp 1024) (.cm 0x40000) 64 16)).moves.all (fun m => match m.src with
      | .cm _ p _ => p.isView == false
      | _ => true) = true := by decide +kernel
theorem witness_FetchesIssue_coll : (tx.core 0).descriptor (tx.rs 6) 32 = some dCol ∧ descNat dCol 0 8 = 0x40000 ∧ descNat dCol 8 4 = 1 ∧ descNat dCol 12 4 = 0 ∧
    descNat dCol 16 4 = 4 ∧ tx.rankFoot 0 0x40000 1 = ([(0x40000, 8, .hbm 0x40000 0x10000)], .empty) ∧
    (tx.rankRead 0 tx.free [(0x40000, 8, .hbm 0x40000 0x10000)]).2 = [] ∧
    (tx.rankRead 0 tx.free [(0x40000, 8, .hbm 0x40000 0x10000)]).1.getD 0 0 = rankKey tx.guide.devnum 0 (tx.ctx (tx.cxnOf tx.cur)).dcn.toNat ∧
    ElTy.ofCode (0 : BitVec 5).toNat = some (.fp .f32) ∧ ([0, 1, 2, 3].all fun cop => collType cop (.fp .f32)) = true ∧
    fine (tx.footprint 0 accCopyRead ((List.range 16).map fun (k : Nat) => { dst := .sp 0, src := (End.sp 2048).at k, n := 1, idxT := false })) = true ∧
    fine (tx.footprint 0 accCopyRead ((List.range 16).map fun (k : Nat) => { dst := (End.sp 1024).at k, src := .sp 0, n := 1, idxT := false })) = true := by
  decide +kernel
/-- A copy of a form under tag 5 with one element between scratchpad addresses, or in a slot. -/
def xCopy (f : CopyForm) (ms : List Move) (sl : List CopySlot) : Copy :=
  { mkCopy 5 f 0 0 0 0 0 0 0 0 with moves := ms, slots := sl, slotSize := 16, nslots := 2 }
def mCopy : Move := { dst := .sp 1024, src := .sp 2048, n := 4, idxT := false }
def slCopy : CopySlot := { seq := 0, epoch := 0, addr := 0, claimed := 0, released := false, moves := [mCopy] }
/-- It stands in flight at cycle 9; channel 0 has one filled and one free slot. -/
def ty (x : Copy) : State :=
  (tc .X fun c => ({ c with copies := [x] }.setTag 5 { infl := true, fb := false, abs := false, readyAt := 0 }).setChan 0
    { Chan.reset with cfg := true, size := 16, count := 2, filled := 1 }).modInst 0 16 fun i => { i with groups := i.groups.map fun g => { g with vcyc := 9 } }
theorem witness_CopyEvents : ((ty (xCopy .xcopy [] [])).core 0).copy? 5 = some (xCopy .xcopy [] []) ∧ (xCopy .xcopy [] []).ripe 9 = true ∧
    (xCopy .xcopy [mCopy] []).ripe 9 = false ∧ (ty (xCopy .xcopy [] [])).now 0 = 9 ∧ (xCopy .xcopy [mCopy] []).waitTier = [] ∧ mCopy.dst = .sp 1024 ∧
    (xCopy .xfill [] []).claimed < (xCopy .xfill [] []).nslots ∧ (xCopy .xfill [] []).nextClaim ≤ 9 ∧
    0 < (((ty (xCopy .xfill [] [])).core 0).chan 0).free ∧ 0 < (((ty (xCopy .xdrain [] [])).core 0).chan 0).avail ∧
    (xCopy .xfill [] [slCopy]).slots = [slCopy] ∧ slCopy.claimed + (xCopy .xfill [] [slCopy]).slotLat ≤ 9 ∧ slCopy.claimed + cdiv 16 64 ≤ 9 ∧
    slCopy.released = false ∧ ((ty (xCopy .xfetchTry [] [])).ctx ((ty (xCopy .xfetchTry [] [])).cxnOf (.job 0 .X))).trail.mode = 0 ∧
    ({ xCopy .xcopy [] [] with cause := some (32, 64) } : Copy).ripe 9 = true := by decide +kernel
/-- The same with a source page at 2^42 that a window may fetch. -/
def txTier : State :=
  ((tx.modCore 0 (sv .X [(7, 2 ^ 42)])).placeBytes (placeTable + 8) (leBytes 8 (2 ^ 58 + 0x7D))).modCtx 0 fun c => { c with wins := aset c.wins 1 1 }
theorem witness_FetchesIssue_absent : copyEnd (txTier.rs 7) = .cm (2 ^ 42) ∧
    fine (txTier.footprint 0 accXfetch (runElts (.sp 1024) (.cm (2 ^ 42)) 64 16)) = true ∧
    (txTier.footprint 0 accXfetch (runElts (.sp 1024) (.cm (2 ^ 42)) 64 16)).tiers.length = 1 := by decide +kernel

/-! Handlers, groups and the walk. -/

/-- Core 0's job stopped with cause 24; queue 0 has a handler or none, entered or not. -/
def tTrap (q : Nat) (h : Bool) : State :=
  ((tj .S).modCore 0 fun c => { c with stop := some { cause := 24, strm := .V, faddr := 0x123, held := h, parked := false, cycle := 0 } }).modQueue 0 0
    fun k => { k with state := .running, qhnd := BitVec.ofNat 55 q, thread := { k.thread with pc := 0x5000 }, hnd := h, handling := if h then some 0 else none, qepc := if h then 0x5000 else 0 }
def tHandler : State := { tTrap 0x4001 true with cur := .thread 0 0 }
theorem witness_HandlerEntryAndReturn : (tTrap 0x4001 false).entryFor 0 0 = some 0 ∧ (tTrap 0 false).entryFor 0 0 = some 0 ∧
    ((tTrap 0x4001 false).core 0).member = some (0, 16, 0, 0) ∧ (tHandler.queue 0 0).hnd = true ∧ (tHandler.queue 0 0).handling = some 0 ∧
    (tHandler.queue 0 0).thread.inSlot = false ∧ (tHandler.core 0).coefLost = false ∧ (tHandler.core 0).lateErr = none ∧ (tHandler.core 0).refetching = false ∧ (tq.queue 0 0).hnd = false := by
  decide +kernel
def gr0 (s : State) : Group := (s.group? 0 16 0).getD (mkGroup 9 9 [])
def in0 (s : State) : Inst := (s.inst? 0 16).getD placeInst
/-- Every stream of core 0's job at a hold. -/
def tAll (h : Hold) (f : Core → Core) : State :=
  tc .S fun c => f { c with strS := { c.strS with hold := h }, strV := { c.strV with hold := h }, strM := { c.strM with hold := h }, strX := { c.strX with hold := h } }
def tPhase : State :=
  tAll (.phase 1 0) fun c => { c with dbw0 := 0x8000000000010000, psb := [{ va := 0x40, loc := .hbm 0x40 0x10000, mask := 1, taint := 1, data := 7, writer := [(0, .V, 0)], det := false, fenced := 0, born := 0 }] }
theorem witness_GroupReleases : tPhase.boundary (in0 tPhase) (gr0 tPhase) = some ([gr0 tPhase], 1) ∧ (gr0 tPhase).members.Nodup ∧
    (tj .S).boundary (in0 (tj .S)) (gr0 (tj .S)) = none ∧ ((tAll .rdv id).core 0).rdvDone = true ∧ ((tj .S).core 0).rdvDone = false ∧
    (tj .S).barrierReady (in0 (tj .S)) (gr0 (tj .S)) = none ∧ ∀ k, (tAll (.bar k 0) id).barrierReady (in0 (tAll (.bar k 0) id)) (gr0 (tAll (.bar k 0) id)) =
      some ([gr0 (tAll (.bar k 0) id)], k) := by decide +kernel
/-- Context 0's one instance, changed, whose core 0 holds no job; it asks or not. -/
def tWalks (ask : Bool) (f : Inst → Inst) : State := (tc .S fun c => { c with job := none, asking := ask }).modInst 0 16 f
def gWalks (m : Nat) : State := tWalks true fun i => { i with mode := m }
/-- The same in replay, with the record of an iteration placed on ordinal 0 next. -/
def gReplay : State :=
  ((gWalks 2).placeBytes 0x50000 (leBytes 8 (mkQ0 0 0x04 ((tj .S).issJob 0 .S 0)) ++ leBytes 8 1)).modTrail 0 fun t =>
    { t with mode := 2, widx := 1, ridx := 0, sz := 16, base := 5, pages := [(0x50000, 0)] }
def tPend : State := tq.modCtx 0 fun c => { c with insts := [{ placeInst with state := .pending, groups := [] }] }
theorem witness_WalkEvents : (tj .S).toAdmit 0 = none ∧ (tPend.toAdmit 0).isSome = true ∧ (tPend.ctx 0).trail.mode = 0 ∧
    (in0 (tWalks false fun i => { i with state := .admitted })).state = .admitted ∧ placeInst.codeOff ≠ [] ∧ placeInst.readFault = false ∧
    ((tj .S).queue 0 0).state ≠ .parked ∧ (gWalks 1).placeNext 0 (in0 (gWalks 1)) (gr0 (gWalks 1)) = some 0 ∧ (in0 (gWalks 1)).mode = 1 ∧
    (gr0 (gWalks 1)).nextJ < (gr0 (gWalks 1)).tuples ∧ (gWalks 0).placeNext 0 (in0 (gWalks 0)) (gr0 (gWalks 0)) = some 0 ∧
    (gWalks 0).placeNext 0 (in0 (gWalks 0)) { gr0 (gWalks 0) with nextJ := 2 } = some 0 ∧ (in0 (gWalks 0)).counts ≠ [] ∧ (gr0 (gWalks 0)).state ≠ .dissolved ∧
    ((gWalks 0).queue 0 (in0 (gWalks 0)).q).stopped = false ∧ ((gWalks 0).ctx 0).going = true ∧ ((gWalks 0).ctx 0).trail.mode = 0 := by decide +kernel
theorem witness_WalkEvents_replay : (gReplay.ctx 0).trail.mode = 2 ∧ gReplay.findRecord 0 (placedBy 0) = some 0 ∧ bits (recIss (gReplay.record 0 0).1) 17 11 = 0 ∧
    gReplay.placeNext 0 (in0 gReplay) (gr0 gReplay) = some 0 ∧
    (match gReplay.gate 0 none (gReplay.placeRecord (gr0 gReplay) 0).1 (gReplay.placeRecord (gr0 gReplay) 0).2 with
     | .go _ _ => true
     | _ => false) = true := by decide +kernel
theorem witness_WalkEvents_start : let s := tc .S fun c => { c with job := none, placed := some (0, 1) }
    (s.core 0).placed = some (0, 1) ∧ (s.core 0).member = some (0, 16, 0, 0) ∧ (s.core 0).coefLost = false := by decide +kernel
def tOwes : State := tc .S fun c => { c with strong := [{ xAdd with due := 1 }] }
def tPaused : State := (tj .S).modGroup 0 16 0 fun g => { g with state := .paused, ret := .lockstep, prsn := 4 }
def tDrained : State := (tc .S fun c => { c with job := none }).modInst 0 16 fun i => { i with state := .draining, groups := i.groups.map fun g => { g with state := .dissolved } }
/-- Between jobs nothing of a group can be late on the wall clock. -/
theorem witness_CyclesAndCompletion_onTime : let s := (tc .S fun c => { c with job := none })
    s.awaitsOthers (gr0 s) = false ∧ s.notPresent 0 (gr0 s) (gr0 s).nxt = false ∧ s.wallLate (gr0 s) (gr0 s).nxt = none ∧ (gr0 s).state = .lockstep := by
  decide +kernel
theorem witness_CyclesAndCompletion : (gr0 (tj .S)).state = .lockstep ∧ (tj .S).awaitsOthers (gr0 (tj .S)) = false ∧
    (tj .S).notPresent 0 (gr0 (tj .S)) (gr0 (tj .S)).nxt = false ∧ tOwes.notPresent 0 (gr0 tOwes) (gr0 tOwes).nxt = true ∧ tPaused.memberStopped (gr0 tPaused) = false ∧
    (tPaused.queue 0 (in0 tPaused).q).state ≠ .parked ∧ (in0 tDrained).state = .draining ∧ (∀ x ∈ (in0 tDrained).groups, x.state = .dissolved) ∧
    (∀ n ∈ (in0 tDrained).cores, tDrained.storesLinked n = true ∧ ∀ x ∈ (tDrained.core n).strong, x.done = true) ∧ (tDrained.commitAll 0 16 (in0 tDrained).cores true).2 = [] := by decide +kernel

/-! Queue threads. -/

/-- s1 an index, s2 a value. -/
def tQ (x y : Nat) (f : Queue → Queue) : State :=
  tq.modQueue 0 0 fun k => f { k with thread := (k.thread.ws 1 (BitVec.ofNat 64 x) false).ws 2 (BitVec.ofNat 64 y) true }
def tHandlerReg : State := tHandler.modQueue 0 0 fun k => { k with thread := k.thread.ws 1 0x1103 false }
theorem witness_QueueForms : (tQ 5 0x101 id).cur = .thread 0 0 ∧ ((tQ 16 0 id).ctx 0).statusWord 16 = 7 ∧
    ((tQ 16 0 fun k => { k with launched := 1 }).ctx 0).statusWord 16 = 2 ∧ ((tQ 9 0 id).queueReg 0 0 9).isSome = true ∧ ((tQ 0 0x101 id).rs 2).getLsbD 8 = true ∧
    ((tQ 0 0 id).queueReg 0 0 0).isSome = true ∧ (tQ 10 0 id).queueReg 0 0 10 = none ∧ (tHandlerReg.queueReg 0 0 0x1103).isSome = true ∧
    (tHandlerReg.queue 0 0).handling = some 0 ∧ (tQ 5 0 id).rs 1 ≠ 0 ∧ ((tQ 5 0 id).queue 0 0).np = false ∧
    ((tQ 5 0 fun k => { k with np := true }).queue 0 0).np = true ∧ W64.f ((tQ 63 0 id).rs 1) 10 0 < 64 ∧ ((tQ 5 0 id).queue 0 0).hnd = false ∧
    ((tQ 5 0 id).queue 0 0).state = .running ∧ ((tQ 5 0 fun k => { k with state := .waiting }).queue 0 0).state ≠ .running := by
  decide +kernel
/-- A launch record at 0x30000 of a code object at 0x40000, which lists no dependences. -/
def tLaunch : State :=
  (tq.placeBytes 0x30000 (leBytes 8 0x40000 ++ leBytes 8 0x1234 ++ leBytes 4 9)).modQueue 0 0 fun k => { k with thread := k.thread.wa 1 0x30000 false }
def pLaunch : List (Nat × Nat × Phys × Bool) := (List.range 4).map fun k => (0x30000 + 16 * k, 16, .hbm (0x30000 + 16 * k) 0x10000, false)
theorem witness_Launches : (tLaunch.ctx 0).nout 0 < 64 ∧ tLaunch.cxnOf (.thread 0 0) = 0 ∧
    tLaunch.transRange 0 (tLaunch.genOf (.thread 0 0)) 0x30000 64 accLoad = .ok pLaunch ∧ (∀ x ∈ pLaunch, tLaunch.physPoison x.2.2.1 x.2.1 = 0) ∧
    (LaunchRec.ofBytes (pLaunch.flatMap fun x => tLaunch.physRead x.2.2.1 x.2.1)).ndep = 0 ∧
    (LaunchRec.ofBytes (pLaunch.flatMap fun x => tLaunch.physRead x.2.2.1 x.2.1)).code = 0x40000 ∧
    (match tLaunch.transRange 0 (tLaunch.genOf (.thread 0 0)) 0x40000 128 accLoad with
     | .ok qs => (qs.all fun x => tLaunch.physPoison x.2.2.1 x.2.1 == 0) && field (qs.flatMap fun x => tLaunch.physRead x.2.2.1 x.2.1) 15 1 == 0
     | _ => false) = true := by decide +kernel
theorem witness_ContextAndTrailRegisters : ((tQ 31 0 id).rs 1).toNat < 32 ∧ ((tQ 3 0 id).cxReg 0 3).isSome = true ∧ partOk 0 = false ∧ partOk partdReset.toNat = true ∧
    (tQ 0x200 0 id).cxReg 0 0x200 = none ∧ ((tQ 5 10 id).rs 1).toNat + ((tQ 5 10 id).rs 2).toNat ≤ 4096 ∧ (((tQ 1 0x80 id).ctx 0).trail.reg 1).isSome = true ∧
    lowest (((tQ 1 0x80 id).ctx 0).trail.writeConds 1 0x80) = 0 := by decide +kernel
theorem witness_GuardedWords_illegal : (((tGuard 0).core 0).guardShut 1 ∨ ((tGuard 0).core 0).guardShut 2) ∧ ((tj .V).core 0).guardOpen 16 ∧
    ((tj .V).core 0).stop = none := ⟨witness_GuardedWords.1, Or.inr (Or.inl rfl), by decide +kernel⟩
theorem witness_WrongPlacesTrap : ((tj .V).core 0).guardOpen 16 ∧ ((tj .V).core 0).stop = none := ⟨Or.inr (Or.inl rfl), by decide +kernel⟩

/-! The trail. -/

/-- Context 0 replays a trail of one record, with the job's restart point taken. -/
def tReplay (q0 q1 : Nat) : State :=
  ((tc .S (·.capture 0)).placeBytes 0x50000 (leBytes 8 q0 ++ leBytes 8 q1)).modTrail 0 fun t =>
    { t with mode := 2, widx := 1, ridx := 0, sz := 16, base := 5, pages := [(0x50000, 0)] }
def tRestart : State := tReplay (mkQ0 0 0x0B ((tj .S).issJob 0 .V 0)) 24
def tClassA : State := tReplay (mkQ0 0 0x08 (issUnit 4 0)) (16 * 2 ^ 32 + 3)
def tPassed : State := (tReplay (mkQ0 3 0x01 (issUnit 0 0)) 0).modQueue 0 0 fun k => { k with icount := 5 }
/-- It records, with one record held. -/
def tRecord : State := ((tReplay 0 0).modTrail 0 fun t => { t with mode := 1, held := [(1, 2)], widx := 0 }).modCtx 0 fun c => { c with insts := [] }
/-- An operation is held for its turn behind a record that is another's. -/
def tStall : State := tPassed.modTrail 0 fun t => { t with waits := [⟨mkQ0 0 0x09 (issUnit 3 0), 0, true, false, true⟩], idle := 2 ^ 24 }
def tTrailOff : State := { tRecord.modTrail 0 fun t => { t with mode := 0, held := [] } with cur := .thread 0 0 }
theorem witness_TrailAndReplay : (tRecord.ctx 0).trail.mode = 1 ∧ (tRecord.ctx 0).trail.full = false ∧ (tRecord.ctx 0).trail.hostq = [] ∧
    (∀ q, q < 16 → (tRecord.queue 0 q).strong = []) ∧ (match tTrailOff.ringPages 0 true (tTrailOff.ctx 0).trail.vas with
      | .ok ps => ps.map (·.1) == [0x50000]
      | _ => false) = true ∧
    tStall.heldOn 0 ≠ [] ∧ (tStall.ctx 0).trail.div = false ∧
    tPassed.passed 0 [] (tPassed.window 0) = some (0, 0x800000, 5) ∧ tClassA.passed 0 [] (tClassA.window 0) = none ∧
    engines.find? (fun e => (tRestart.restartRecord 0 e).isSome) = some .V ∧ tRestart.restartRecord 0 .V = some 0 ∧
    engines.find? (fun e => (tClassA.restartRecord 0 e).isSome) = none ∧ tClassA.classARecord 0 0 (gr0 tClassA).vcyc = some 0 ∧ (gr0 tClassA).members = [0] ∧
    (tClassA.core 0).rp.isSome = true ∧ (tClassA.core 0).strong = [] ∧ (tClassA.core 0).copies = [] := by decide +kernel

/-! Shares, translation, links and errors. -/

def tShare (f : Ctx → Ctx) (g : Queue → Queue) (n : Nat) : State := { (tq.modCtx 0 f).modQueue 0 0 g with pcyc := n }
def tNp : State := tShare (fun c => { c with quant := 0 }) (fun k => { k with np := true, bound := 5, elapsed := 5 }) 0
def tDefer : State := tShare (fun c => { c with deferred := some (2, 0x60000, 4), quant := 3, slice := 1 }) (fun k => { k with deferring := true, qdebt := 7 }) 9
def tTable (n : Nat) : State := (tShare id id 256).modGuide fun g => { g with tables := [(List.replicate 256 1, n)] }
def tPort0 : State := (tShare (fun c => { c with requests := [(0, [⟨1, .hbm, .none, none⟩])], buckets := [(0, 5)] }) id 0).modGuide fun g => { g with timetable := [1] }
theorem witness_QualityOfService : (tNp.queue 0 0).np = true ∧ (tNp.queue 0 0).bound.toNat ≤ (tNp.queue 0 0).elapsed ∧ (tNp.queue 0 0).watched = false ∧
    8 * (tNp.ctx 0).quant.toNat * 1024 ≤ (tNp.queue 0 0).elapsed ∧ (tDefer.ctx 0).deferred = some (2, 0x60000, 4) ∧ (tDefer.ctx 0).track = false ∧
    (tDefer.queue 0 0).deferring = true ∧ (tDefer.queue 0 0).np = false ∧ (tDefer.ctx 0).quant ≠ 0 ∧ (tDefer.ctx 0).slice ≤ 1 ∧ (tTable 2).pcyc % 256 = 0 ∧
    (tTable 2).guide.tables = [(List.replicate 256 1, 2)] ∧ (tShare id id 1024).pcyc % 1024 = 0 ∧ (tq.ctx 0).state = .running ∧ (tq.ctx 0).clmask ≠ 0 ∧
    tNp.pcyc % 1024 = 0 ∧ tDefer.pcyc % 1024 ≠ 0 ∧ (tPort0.ctx 0).throttled 0 = false ∧ tPort0.guide.timetable.getD 0 0 = BitVec.ofNat 6 1 ∧
    (∀ n, n < 32 → n ≠ 0 → (tPort0.ctx n).requests = []) ∧ (∀ n, n < 32 → (tq.ctx n).requests = []) ∧ tq.guide.timetable.getD 0 0 = 0 := by decide +kernel
/-- Core 0's XFETCH waits for the page that is to land at frame 2. -/
def xTier : Copy := { xCopy .xfetch [{ dst := .sp 0, src := .cm 0x20010 (.hbm 0x20010 0x10000) false, n := 4, idxT := false }] [] with
  waitTier := [2 + 2 ^ 40 * 0x10000], tierAs := [(2 + 2 ^ 40 * 0x10000, 2, 0)] }
def tTier : State := (ty xTier).modCtx 0 fun c => { c with tiers := [(2 + 2 ^ 40 * 0x10000, 0x10000, 0x7D, 2, 0)] }
def tWalk : State := (tj .S).modGroup 0 16 0 fun g => { g with state := .paused, prsn := 2 }
/-- A mailbox command of the Guide is under way for context 0. -/
def tBox (f : Ctx → Ctx) : State := (tq.modCtx 0 f).modGuide fun g => { g with busy := true }
theorem witness_TranslationEvents : (tWalk.ctx 0).insts.map (fun i => i.groups.map fun g => (g.state, g.prsn)) = [[(.paused, 2)]] ∧
    tq.invDone 0 [] = true ∧ tTier.invDone 0 [.copy 0 5 0] = false ∧ (tTier.ctx 0).tierAt 0x20010 = some (2 + 2 ^ 40 * 0x10000, 0x10000, 0x7D) ∧ (tTier.ctx 0).runCores = [0] ∧
    ((tBox id).addrOk (2 ^ 40) 65536 65536).1 = true ∧ (tTier.core 0).stop = none ∧ (tTier.core 0).copies.find? (fun x => x.form == .xfetch && x.waitTier.contains (2 + 2 ^ 40 * 0x10000)) = some xTier ∧
    xTier.tierByte (2 + 2 ^ 40 * 0x10000) = some (0x20010, 0x20010, 0) ∧ ((tBox id).ctx 0).s2inv = none ∧ opCx 0 = 0 := by
  decide +kernel
/-- The mailbox holds a command, and the Guide runs. -/
theorem witness_mailbox (f : Ctx → Ctx) (h : ((tBox f).guide.rdy && (tBox f).guide.waitInv.isNone) = true) : (tBox f).idleGuide := by
  simp only [Bool.and_eq_true, Option.isNone_iff_eq_none] at h
  exact h
/-- Port 3 drains, the only one to device 1, to which an access of core 0 is on its way. -/
def tDrain (l : List Strong) : State :=
  ((tc .S fun c => { c with strong := l }).setPort 3 { Port.reset with state := .draining }).modGuide fun g => { g with routes := [(1, 8)] }
theorem witness_ports : ((tDrain []).port 3).state = .draining ∧ (tDrain []).inFlight 3 = false ∧ (tDrain [{ xAdd with loc := .peer 1 0 }]).inFlight 3 = true ∧
    (tDrain []).fabricLive = true ∧ tq.fabricLive = false := by decide +kernel
theorem witness_LinkAndErrorEvents : (tq.llcWrite 0x40 4).llcDirty 4 = true ∧ tq.llcDirty 4 = false ∧ ({ tq with inbox := [.coldReset] } : State).inbox = [.coldReset] ∧ (tq.port 3).state = .down ∧ ((tq.setPort 3 { tq.port 3 with state := .training }).port 3).state = .training ∧
    ((tq.setPort 3 { tq.port 3 with state := .up, replays := 0xFFFFFFFF }).port 3).replays.toNat = 2 ^ 32 - 1 ∧ tq.guide.routes = [] ∧
    ((tj .V).core 0).job.isSome = true ∧ ((tj .V).core 0).stop = none ∧ ((tj .V).ctx ((tj .V).cxnOf (.job 0 .V))).trail.mode = 0 ∧ (tq.core 0).job = none ∧
    16 * 0x10000 < hbmTop ∧ vget (tq.modGuide fun g => { g with railLow := g.railLow.setIfInBounds 2 true }).guide.railLow 2 false = true ∧
    (vget tq.guide.banks 2 .reset).dected = false := by decide +kernel

/-! Commands, contexts, migration, the host, resets. -/

/-- Operand bytes: offset, count, value. -/
def opB (l : List (Nat × Nat × Nat)) : BitVec 496 := BitVec.ofNat 496 (l.foldl (fun a x => a + x.2.2 % 2 ^ (8 * x.2.1) * 2 ^ (8 * x.1)) 0)
theorem tBox_idle (f : Ctx → Ctx) : (tBox f).idleGuide := ⟨rfl, rfl⟩
theorem witness_CommandChecks : (State.reset.guide.rdy = false) ∧ (tBox id).guide.events = [] ∧ ((tBox id).ctx (opCx 5)).state = .free ∧ opCx 33 = 33 ∧
    64 ≤ opCx 64 := by decide +kernel
def opShares : BitVec 496 := opB [(1, 1, 3), (2, 4, 100), (6, 32, 2 ^ 240)]
def tPort (st : PortState) : State := (tBox id).setPort 0 { (tBox id).port 0 with state := st }
theorem witness_Settings : ((tBox id).ctx (opCx 0)).state = .running ∧ opF (opB [(1, 1, 5)]) 1 1 ≠ ((tBox id).ctx 0).cg ∧
    ((tBox id).ctx 0).heldGens.contains 5 = false ∧ ((tBox fun c => { c with insts := [] }).ctx 0).heldGens.contains 0 = false ∧
    (tBox id).sharesOk 0 (opF opShares 2 4) (opF opShares 1 1) (BitVec.ofNat 256 (opF opShares 6 32)) = true ∧
    (tBox fun c => { c with state := .free }).sharesOk 0 100 3 (BitVec.ofNat 256 (2 ^ 240)) = true ∧
    (∀ k, k < 32 → ((tBox fun c => { c with state := .free }).ctx k).state = .free) ∧
    (tBox id).rangeOk 7 1 (65536 / 65536 * 65536) (131072 / 65536 * 65536) (0x1004 / 4 * 4) = true ∧
    ((tBox id).modGuide fun g => { g with events := [7, 8] }).guide.events = [7, 8] ∧ (tBox id).spare (2 ^ 40) 64 = true ∧
    vget (tBox id).guide.railLow 3 false = false ∧ ((tPort .down).port 0).state = .down ∧ ((tPort .up).port 0).state = .up ∧ ((tPort .failed).port 0).state = .failed := by
  decide +kernel
def opBind : BitVec 496 := opB [(0, 1, 1), (1, 1, 9), (2, 2, 77), (4, 8, 2), (12, 2, 5), (14, 2, 2), (28, 4, 3), (32, 4, 4)]
def tStaged : State := (tBox id).modCtx 1 fun c => { c with stagedSlots := some (100, 2 ^ 240, 3) }
def tIn (st : CxState) : State := tBox fun c => { c with state := st, vf := 9, trail := .reset }
theorem witness_ContextLife : (tStaged.ctx (opCx opBind)).state = .free ∧ (tStaged.regionOk 1 (opRuns opBind 12)).1 = true ∧ (tStaged.stagedOk 1).1 = true ∧
    (tStaged.vfOk 1 (opF opBind 1 1)).1 = true ∧ ((tIn .bound).ctx 0).state = .bound ∧ (∀ q, q < 16 → ((tIn .running).queue 0 q).np = false) ∧
    ((tIn .running).addrOk (opF (opB [(1, 1, 2), (2, 8, 2 ^ 40)]) 2 8) 4096 4096).1 = true ∧ 6 < (tIn .bound).guide.boot ∧ (tIn .bound).byVf 9 = some 0 ∧
    State.reset.guide.boot ≤ 6 ∧ ((tIn .resetting).ctx 0).trail.hostq = [] ∧ ((tIn .tornDown).ctx 0).state = .tornDown := by decide +kernel
def tStop : State := tBox fun c => { c with state := .quiescing, cls := 2, hamper := 2 ^ 40, insts := [], queues := c.queues.map fun k => { k with state := .idle }, saves := 6 }
/-- A Saved context whose hamper at 2^40 has no section and names one cluster. -/
def tSaved : State :=
  (tBox fun c => { c with state := .saved, insts := [], hamper := 2 ^ 40 }).placeBytes (2 ^ 40)
    (leBytes 4 hamperMagic ++ leBytes 2 1 ++ leBytes 1 5 ++ zeros 13 ++ leBytes 2 1 ++ zeros 2 ++ leBytes 8 1 ++ zeros 32 ++ sha512 [])
theorem witness_SaveAndResume : (tStop.ctx 0).state = .quiescing ∧ (tStop.ctx 0).mig = none ∧ (∀ q, q < 16 → (tStop.queue 0 q).state = .idle) ∧
    (tStop.ctx 0).trail.mode = 0 ∧ (tStop.ctx 0).trail.hostq = [] ∧ (tStop.ctx 0).track = false ∧ (tSaved.ctx 0).state = .saved ∧ (tSaved.addrOk (2 ^ 40) 4096 4096).1 = true ∧
    (∀ x ∈ tSaved.hamperConds (2 ^ 40) 1, x.1 = true) := by decide +kernel
def frec : FaultRec :=
  { va := 0, ipa := 0, handle := 0, gidx := 0, ord := 0, strm := 0, qt := true, acc := 0, level := 0, walk := false, reason := 0, gen := 0, q := 2 }
def tParked : State := (tBox id).modQueue 0 2 fun k => { k with state := .parked, prior := .waiting, faults := [(7, frec)] }
/-- The same queue, which had waited for an instance that is gone. -/
def tParkedOn : State := tParked.modQueue 0 2 fun k => { k with kwait := some 77 }
def tDiv : State := (tBox id).modTrail 0 fun t => { t with div := true, divId := 7, divOwner := none }
theorem witness_FaultAnswers : (tParked.ctx 0).going = true ∧ opF (opB [(1, 2, 7)]) 1 2 = 7 ∧ (tParked.ctx 0).recordOf 7 = some (2, frec) ∧
    (tParked.queue 0 2).divParked = false ∧ (tParked.queue 0 2).kwait = none ∧ (tParkedOn.queue 0 2).kwait = some 77 ∧
    (tParkedOn.inst? 0 77).isNone = true ∧ (tDiv.ctx 0).recordOf 7 = none ∧ (tDiv.ctx 0).going = true ∧ (tDiv.ctx 0).trail.hostq = [] ∧
    ((tBox id).ctx 0).recordOf 7 = none ∧ ((tBox id).ctx 0).trail.div = false := by decide +kernel
def mig0 : Mig :=
  { peer := 3, peerCxn := 1, threshold := 0, limit := 4, hamper := 2 ^ 40, frw := 1, step := 0, rounds := 0, round := none, w0 := 0, asked := false, stopBegun := false
    saved := false, aborted := false }
def opMigin : BitVec 496 := opB [(0, 1, 1), (1, 2, 3), (5, 8, 2), (13, 2, 5), (15, 2, 2), (29, 8, 2 ^ 40), (37, 4, 2)]
theorem witness_Migration : ((tBox id).ctx 0).state = .running ∧ ((tBox id).addrOk (2 ^ 40) 4096 4096).1 = true ∧ (tStaged.regionOk 1 (opRuns opMigin 13)).1 = true ∧
    (tStaged.stagedOk 1).1 = true ∧ opF opMigin 1 2 ≤ 16383 ∧ opF opMigin 37 4 ≠ 0 ∧ (tStaged.addrOk (opF opMigin 29 8) (65536 * opF opMigin 37 4) 65536).1 = true ∧
    apart (opRuns opMigin 13) (opF opMigin 29 8, opF opMigin 37 4) = true ∧
    ((tBox fun c => { c with state := .migOut, mig := some mig0 }).ctx 0).mig = some mig0 ∧ mig0.stopBegun = false ∧
    ((tIn .migIn).vfOk 0 (opF (opB [(1, 1, 9)]) 1 1)).1 = true ∧ ({ mig0 with step := 5 } : Mig).step = 5 := by decide +kernel
def tHost : State := tIn .running
theorem witness_HostAccesses : tHost.byVf 9 = some 0 ∧ (tHost.queue 0 3).state = .idle ∧ ((tHost.ctx 0).threadCluster 3).isSome = true ∧
    ((tIn .bound).queue 0 3).state = .idle ∧ (tHost.ctx 0).s1inv = none ∧ (tHost.hostDpa 0 0x40 (.write [1, 2])).isSome = true ∧
    (tHost.hostDpa 0 0x40 (.atomic .cas 8 0 0)).isSome = true ∧ hostAtomicOk .cas 8 0x40 = true ∧ (tHost.ctx 0).trail.mode = 0 ∧ (tHost.ctx 0).trail.hostq = [] ∧ (tHost.ctx 0).ringLost = false ∧
    (tHost.hostReadAt 0 0x40).isSome = true ∧ tHost.byVf 8 = none ∧ tHost.physPoison (.hbm 0x40 0) 16 = 0 ∧ tHost.guide.busy = true ∧ tq.guide.busy = false := by
  decide +kernel
theorem witness_Resets : (∀ n, n < 32 → (State.reset.ctx n).state.runs = false) ∧ 7 ≤ tq.guide.boot ∧ (∀ n, n < 32 → ((tIn .bound).ctx n).state.runs = false) ∧
    State.reset.guide.boot < 7 ∧ State.reset.guide.err = 0 := by decide +kernel
theorem witness_Attestation : (tBox id).guide.rdy = true ∧ (0x20 : BitVec 32).getLsbD 5 = true ∧ (0x4 : BitVec 32).getLsbD 2 = true ∧
    (0 : BitVec 32).getLsbD 5 = false := by decide +kernel

/-! The machine. -/

/-- An ADDI at the program counter of the S stream, whose turn it is. -/
def tTurn : State := State.reset.place1 (.job 0 .S) (bytesOfWords [0x1030C001])
theorem witness_StepRunsDecoded : tTurn.guide.powered = true ∧ tTurn.guide.booting = false ∧ tTurn.agenda = [.issue (.job 0 .S)] ∧
    tTurn.mayIssue (.job 0 .S) = true ∧ (tTurn.stream (.job 0 .S)).longAtEnd 4 = false ∧ tTurn.fetchWord (.job 0 .S) 0x20000 = .word 0x1030C001 := by decide +kernel
/-- A host write to 0x30000, whose home slice has 64 requests waiting, stays outside. -/
def tFull : State := tTurn.modCtx 0 fun c => { c with vf := 1, trail := { c.trail with hostq := List.replicate 64 (homeSlice 0x30000, 0x30000, .write []) } }
theorem witness_StepRunsDecoded_full : hostSpan (.hostWrite 1 0x30000 [7]) = some (1, 0x30000, 1) ∧ tFull.sliceFull 1 0x30000 1 = true ∧
    tFull.sliceFull 2 0x30000 1 = false ∧ hostSpan .coldReset = none := by decide +kernel
theorem witness_DecodeEncode : WellFormed (.addi 12 12 1) = true ∧ encode (.addi 12 12 1) = some [0x1030C001] := ⟨rfl, rfl⟩
theorem witness_StepKeepsForm : tTurn.memWf := by
  show tTurn.hbm.wf = true
  decide +kernel
theorem witness_StepGoesOn : (State.reset.modGuide fun g => { g with powered := false }).inbox = [] ∧ State.reset.guide.powered = true := by decide +kernel

/-! Words of the spec (chapter 4's examples and Table 24-1) and what they stand for. -/

theorem word_VADD : decodeWord .V 0xCC1085DE 0 = .ok (.vadd 19 2 5 55 1) := rfl
theorem word_MMA : decodeWord .M 0x805030C5 0xD118C0FF = .ok (.mma 0 48 49 0 1 1 3 3 255) := rfl
theorem word_LI : decodeWord .S 0x18040029 0 = .ok (.li 1 41) ∧ decodeWord .S 0x1814807F 0 = .ok (.li 5 0x807F) := ⟨rfl, rfl⟩
theorem word_ADDI : decodeWord .S 0x10041001 0 = .ok (.addi 1 1 1) := rfl
theorem word_ST : decodeWord .S 0x3A08B000 0 = .ok (.st 2 2 3 0) := rfl
theorem word_LD : decodeWord .S 0x38087000 0 = .ok (.ld 2 1 3 0) := rfl
theorem word_RDV : decodeWord .X 0x52000000 0 = .ok .rdv := rfl
theorem word_LOOP : decodeWord .S 0x2F200000 0 = .ok (.loop 8 0) := rfl
theorem word_TRAP : decodeWord .S 0x54000000 0 = .ok (.trap 0) := rfl
theorem word_SEMSIG : decodeWord .X 0x48000001 0 = .ok (.semsig 0 1) := rfl
theorem word_SEMWAIT : decodeWord .V 0x49040001 0 = .ok (.semwait 1 1) := rfl
theorem word_VCWAIT : decodeWord .X 0x4D01C1E9 0 = .ok (.vcwait 28 489) := rfl
theorem word_VSHAPE : decodeWord .V 0x82F01400 0 = .ok (.vshape 0 20) := rfl
theorem word_VBCS : decodeWord .V 0x82505500 0 = .ok (.vbcs 0 1 21) := rfl
theorem word_VST : decodeWord .V 0x82701A0C 0 = .ok (.vst 0 26 3 0) := rfl
theorem word_MCFG : decodeWord .M 0x80B00100 0 = .ok (.mcfg 0 1) := rfl
theorem word_MLDB : decodeWord .M 0x80200200 0 = .ok (.mldb 0 2 0) := rfl
theorem word_MSHIFT : decodeWord .M 0x80700400 0 = .ok (.mshift 0 0 4) := rfl
theorem word_MSPILL : decodeWord .M 0x80914000 0 = .ok (.mspill 0 5) := rfl
theorem word_XCOPY : decodeWord .X 0x80125650 0xE00C0000 = .ok (.xcopy 0 9 22 20 0 0 3 0 0) := rfl
theorem word_LAUNCH : decodeWord .S 0x81814100 0 = .ok (.launch 0 5 1 0) := rfl
theorem word_KWAIT : decodeWord .S 0x81918500 0 = .ok (.kwait 0 6 5) := rfl
theorem word_TRWR : decodeWord .S 0x8210010C 0 = .ok (.trwr 0 1 3) := rfl
theorem word_QSIG : decodeWord .S 0x82C00400 0 = .ok (.qsig 0 4) := rfl
/-- The word 0 raises cause 1 (R98); a private opcode that no table assigns, cause 2 (R105). -/
theorem word_none : (match decodeWord .S 0 0 with
    | .error r => r.cause
    | _ => 0) = 1 ∧ (match decodeWord .X 0x8FF00000 0 with
    | .error r => r.cause
    | _ => 0) = 2 := ⟨rfl, rfl⟩

/-! An ill-formed term for each check. -/

theorem refuses_s : WellFormed (.atadd 0 48 1 2 0) = false := by decide
theorem refuses_a : WellFormed (.launch 0 1 16 2) = false := by decide
theorem refuses_v : WellFormed (.vfma 0 48 1 2 0) = false := by decide
theorem refuses_vp : WellFormed (.vpand 0 16 1 2 0) = false := by decide
theorem refuses_d : WellFormed (.dadd 0 16 1 2) = false := by decide
theorem refuses_ch : WellFormed (.xfill 0 47 1 2 0 0 0 0 0) = false := by decide
theorem refuses_pair : WellFormed (.atcas16 0 3 1 2) = false := by decide
theorem refuses_size : WellFormed (.ldS 0 2 1 5 0) = false := by decide
theorem refuses_prof : WellFormed (.mma 0 1 2 0 0 6 0 0 0) = false := by decide
theorem refuses_rop : WellFormed (.xallred 0 1 2 3 0 0 3 0) = false := by decide
theorem refuses_ty : WellFormed (.vcvt 0 1 2 6 0) = false := by decide
theorem refuses_hint : WellFormed (.hint 0 0) = false := by decide

/-! Single steps. -/

/-- The digest of the empty message (FIPS 180-4). -/
theorem test_sha512_empty : leNat (sha512 []).reverse =
    0xcf83e1357eefb8bdf1542850d66d8007d620e4050b5715dc83f4a921d36ce9ce47d0d13c5d85f2b0ff8318d2877eec2f63b931bd47417a81a538327af927da3e := by decide +kernel

def nextOf (o : Host.Outcome State Fault Refusal) : State :=
  match o with
  | .next t => t
  | _ => State.reset
def written (i : Instr) (s : State) : List PendTarget := ((nextOf (exec i s)).core 0).pend.map (·.target)
/-- Chapter 4's example: s1 holds 41, and ADDI makes it 42. -/
theorem test_addi_example : written (.addi 1 1 1) (tc .S (sv .S [(1, 41)])) = [.s .S 1 42 false] := by decide +kernel
theorem test_add_wraps : written (.add 3 1 2) (tc .S (sv .S [(1, 2 ^ 64 - 1), (2, 1)])) = [.s .S 3 0 false] := by decide +kernel
theorem test_sub_source_is_destination : written (.sub 1 2 1) (tc .S (sv .S [(1, 1), (2, 0)])) = [.s .S 1 0xFFFFFFFFFFFFFFFF false] := by decide +kernel
theorem test_mulh_signed : written (.mulh 3 1 2) (tc .S (sv .S [(1, 2 ^ 64 - 1), (2, 5)])) = [.s .S 3 0xFFFFFFFFFFFFFFFF false] := by decide +kernel
/-- R157: a count past 4,095 raises its cause, and the count stays. -/
theorem test_semsig_overflow : ((nextOf (exec (.semsig 7 2) (tSem 4094))).core 0).stop.map (·.cause) = some 44 ∧
    ((nextOf (exec (.semsig 7 2) (tSem 4094))).core 0).sem 7 = 4094 := by decide +kernel
theorem test_llc_write : ((tq.llcWrite 0x44 8).llcLine? 1).map (fun x => (x.valid, x.dirty)) = some (0x6, 0x6) ∧ (tq.llcWrite 0x44 8).llcMiss 1 1 false = true ∧
    (tq.llcWrite 0x44 8).llcMiss 1 6 false = false := by decide +kernel
theorem test_withFetchWord : (nextOf (step (State.reset.withFetchWord 32 0x10041001))).cores ≠ [] ∧ decodeTableWord 32 0x10041001 = some (.addi 1 1 1) :=
  ⟨by decide +kernel, rfl⟩

end Sys2Proof.Tests
end

section
/-! What the rules of chapter 5's scalar and channel instructions rest on: changes of a queue, results of either kind of agent, and
conditions one at a time. -/
namespace Sys2Proof.Machine

/-! Changes of a queue, one after the other. -/

/-- An element changed twice at one index; beyond the vector's end neither change does anything. -/
theorem setIfInBounds_setIfInBounds_vget {α : Type} {n : Nat} (v : Vector α n) (k : Nat) (x d : α) (g : α → α) :
    (v.setIfInBounds k x).setIfInBounds k (g (vget (v.setIfInBounds k x) k d)) = v.setIfInBounds k (g x) := by
  ext i hi
  by_cases hk : k = i
  · subst hk
    simp [vget_setIfInBounds, hi]
  · simp [hk]
theorem State.modCtx_modCtx (s : State) (n : Nat) (f g : Ctx → Ctx) : (s.modCtx n f).modCtx n g = s.modCtx n fun c => g (f c) := by
  have h := setIfInBounds_setIfInBounds_vget s.ctxs n (f (s.ctx n)) .reset g
  simp only [State.modCtx, State.setCtx, State.ctx] at h ⊢
  rw [h]
/-- A queue of a context changed by a function. -/
def Ctx.modQueue (c : Ctx) (q : Nat) (f : Queue → Queue) : Ctx := c.setQueue q (f (c.queue q))
theorem Ctx.modQueue_modQueue (c : Ctx) (q : Nat) (f g : Queue → Queue) :
    (c.modQueue q f).modQueue q g = c.modQueue q fun k => g (f k) := by
  have h := setIfInBounds_setIfInBounds_vget c.queues q (f (c.queue q)) .reset g
  simp only [Ctx.modQueue, Ctx.setQueue, Ctx.queue] at h ⊢
  rw [h]
theorem State.modQueue_eq_modCtx (s : State) (c q : Nat) (f : Queue → Queue) : s.modQueue c q f = s.modCtx c (·.modQueue q f) := rfl
theorem State.modQueue_modQueue (s : State) (c q : Nat) (f g : Queue → Queue) :
    (s.modQueue c q f).modQueue c q g = s.modQueue c q fun k => g (f k) := by
  simp only [State.modQueue_eq_modCtx, State.modCtx_modCtx, Ctx.modQueue_modQueue]

/-- Going past an instruction after a change of the queue, by a thread. -/
theorem State.finish_modQueue (s : State) (c q len k : Nat) (f : Queue → Queue) :
    (s.modQueue c q f).finish (.thread c q) len k = s.threadDid c q len f := by
  simp only [State.finish, State.threadDid, State.modQueue_modQueue]
  rfl
/-- A thread's register is written as its instruction issues (R131). -/
theorem State.finish_modStream_thread (s : State) (c q len k : Nat) (f : Stream → Stream) :
    (s.modStream (.thread c q) f).finish (.thread c q) len k = s.threadDid c q len (Queue.onThread f) :=
  State.finish_modQueue s c q len k (Queue.onThread f)

/-! An instruction that gives one register result. -/

/-- An instruction of one word with one register result: a job's pends at `target` for its latency (R129), and a thread's registers change
by `write` at once (R131). -/
def State.givesResult (s : State) (i : Instr) (target : Engine → PendTarget) (write : Stream → Stream) (lat : Nat) : Prop :=
  (∀ n e, s.cur = .job n e → exec i s = .next (s.jobPut n e (target e) lat)) ∧
    (∀ c q, s.cur = .thread c q → exec i s = .next (s.threadDid c q 4 (Queue.onThread write)))

/-- An instruction that goes on after a change that is a pending write of a job and a register write of a thread. -/
theorem State.givesResult_of_fin {s t : State} {i : Instr} {target : Engine → PendTarget} {write : Stream → Stream} {lat : Nat}
    (h : exec i s = .next (t.fin 4 1)) (hjob : ∀ n e, s.cur = .job n e → t = s.addPend n lat false (target e))
    (hthread : ∀ c q, s.cur = .thread c q → t = s.modStream (.thread c q) write) : s.givesResult i target write lat := by
  refine ⟨fun n e hc => ?_, fun c q hc => ?_⟩
  · rw [h, hjob n e hc, State.fin, State.cur_addPend, hc, State.finish_addPend, State.jobPut]
  · have hcur : t.cur = s.cur := by rw [hthread c q hc]; rfl
    rw [h, State.fin, hcur, hc, hthread c q hc, State.finish_modStream_thread]
theorem State.givesResult_scalar {s : State} {i : Instr} {d : F6} {v : W64} {t : Bool} {lat : Nat}
    (h : exec i s = .next (s.scalar d v t lat)) : s.givesResult i (.s · d.toNat v t) (·.ws d.toNat v t) lat :=
  State.givesResult_of_fin h (fun n e hc => by rw [hc, State.putS]) (fun c q hc => by rw [hc, State.putS])
theorem State.givesResult_putA {s : State} {i : Instr} {d : BitVec 4} {v : W64} {t : Bool} {lat : Nat}
    (h : exec i s = .next ((s.putA s.cur d.toNat v t lat).fin 4 1)) : s.givesResult i (.a · d.toNat v t) (·.wa d.toNat v t) lat :=
  State.givesResult_of_fin h (fun n e hc => by rw [hc, State.putA, Nat.mod_eq_of_lt d.isLt]) (fun c q hc => by rw [hc, State.putA])
theorem State.givesResult_putP {s : State} {i : Instr} {d : BitVec 4} {v t : Bool} {lat : Nat}
    (h : exec i s = .next ((s.putP s.cur d.toNat v t lat).fin 4 1)) : s.givesResult i (.p · d.toNat v t) (·.wp d.toNat v t) lat :=
  State.givesResult_of_fin h (fun n e hc => by rw [hc, State.putP, Nat.mod_eq_of_lt d.isLt]) (fun c q hc => by rw [hc, State.putP])

/-- An integer operation of two sources whose value is `v`. -/
theorem State.givesResult_alu {s : State} {i : Instr} {f : W64 → W64 → W64} {d a b : F6} {v : W64} {lat : Nat}
    (h : exec i s = .next (s.alu f lat d a b)) (hv : f (s.rs a) (s.rs b) = v) :
    s.givesResult i (.s · d.toNat v (s.rsT a || s.rsT b)) (·.ws d.toNat v (s.rsT a || s.rsT b)) lat := by
  subst hv
  exact State.givesResult_scalar h
/-- An integer operation of a source and an immediate whose value is `v`. -/
theorem State.givesResult_aluImm {s : State} {i : Instr} {f : W64 → W64} {d a : F6} {v : W64} {lat : Nat}
    (h : exec i s = .next (s.aluImm f lat d a)) (hv : f (s.rs a) = v) :
    s.givesResult i (.s · d.toNat v (s.rsT a)) (·.ws d.toNat v (s.rsT a)) lat := by
  subst hv
  exact State.givesResult_scalar h

/-- A compare of two sources whose condition gives `v` (R135). -/
theorem State.givesResult_cmp {s : State} {c : BitVec 2} {d : BitVec 4} {a b : F6} {v : Bool} (hv : compare c (s.rs a) (s.rs b) = v) :
    s.givesResult (.cmp c d a b) (.p · d.toNat v (s.rsT a || s.rsT b)) (·.wp d.toNat v (s.rsT a || s.rsT b)) 1 := by
  subst hv
  exact State.givesResult_putP rfl
/-- A compare with an immediate whose condition gives `v`. -/
theorem State.givesResult_cmpi {s : State} {c : BitVec 2} {d : BitVec 4} {a : F6} {imm : BitVec 12} {v : Bool}
    (hv : compare c (s.rs a) (imm12 imm) = v) : s.givesResult (.cmpi c d a imm) (.p · d.toNat v (s.rsT a)) (·.wp d.toNat v (s.rsT a)) 1 := by
  subst hv
  exact State.givesResult_putP rfl

/-! Values. -/

/-! Division by zero gives all ones (R133). -/

theorem sdiv_eq_ofInt (x y : W64) : sdiv x y = if y = 0 then BitVec.ofInt 64 (-1) else BitVec.ofInt 64 (x.toInt.tdiv y.toInt) := rfl
theorem udiv_eq_ofNat (x y : W64) : udiv x y = if y = 0 then BitVec.ofNat 64 (2 ^ 64 - 1) else BitVec.ofNat 64 (x.toNat / y.toNat) := rfl
theorem smin_eq_ofInt (x y : W64) : smin x y = BitVec.ofInt 64 (min x.toInt y.toInt) := by
  unfold smin
  split <;> rename_i h
  · rw [Int.min_eq_left h, BitVec.ofInt_toInt]
  · rw [Int.min_eq_right (Int.le_of_not_le h), BitVec.ofInt_toInt]
theorem smax_eq_ofInt (x y : W64) : smax x y = BitVec.ofInt 64 (max x.toInt y.toInt) := by
  unfold smax
  split <;> rename_i h
  · rw [Int.max_eq_right h, BitVec.ofInt_toInt]
  · rw [Int.max_eq_left (Int.le_of_not_le h), BitVec.ofInt_toInt]
theorem umin_eq_ofNat (x y : W64) : umin x y = BitVec.ofNat 64 (min x.toNat y.toNat) := by
  unfold umin
  split <;> rename_i h
  · rw [Nat.min_eq_left h, BitVec.ofNat_toNat, BitVec.setWidth_eq]
  · rw [Nat.min_eq_right (Nat.le_of_not_le h), BitVec.ofNat_toNat, BitVec.setWidth_eq]
theorem umax_eq_ofNat (x y : W64) : umax x y = BitVec.ofNat 64 (max x.toNat y.toNat) := by
  unfold umax
  split <;> rename_i h
  · rw [Nat.max_eq_right h, BitVec.ofNat_toNat, BitVec.setWidth_eq]
  · rw [Nat.max_eq_left (Nat.le_of_not_le h), BitVec.ofNat_toNat, BitVec.setWidth_eq]

/-! The four conditions of CMP and CMPI (R135). -/

theorem compare_zero (x y : W64) : compare 0 x y = decide (x = y) := by
  rw [Bool.eq_iff_iff]
  simp [compare]
theorem compare_one (x y : W64) : compare 1 x y = decide (x.toInt < y.toInt) := rfl
theorem compare_two (x y : W64) : compare 2 x y = decide (x.toNat < y.toNat) := rfl
theorem compare_three (x y : W64) : compare 3 x y = decide (x &&& y ≠ 0) := by
  rw [Bool.eq_iff_iff]
  simp [compare]

theorem getLsbD_setBit_same {w : Nat} (x : BitVec w) {k : Nat} (hk : k < w) (b : Bool) : (setBit x k b).getLsbD k = b := by
  cases b <;> simp [setBit, hk]
/-- A predicate register holds what was written to it, whichever it is (R135). -/
theorem Stream.p_wp_same (x : Stream) (d : BitVec 4) (v t : Bool) : (x.wp d.toNat v t).p.getLsbD d.toNat = v := by
  simp only [Stream.wp, Nat.mod_eq_of_lt d.isLt]
  exact getLsbD_setBit_same x.p d.isLt v

/-! Checks of one condition. -/

theorem State.check_one_ok {s : State} {b : Bool} (h : b = true) (c : Nat) (k : State → State) : s.check [(b, c)] k = k s :=
  State.check_ok (by simpa using h) k
theorem State.check_one_fail {s : State} {b : Bool} (h : b = false) {c : Nat} (hc : c ≠ 0) (k : State → State) : s.check [(b, c)] k = s.cause c :=
  State.check_fail _ k c (by simp [lowest, h]) hc

/-! The fields of CHCFG's operands (R153). -/

theorem W64.f_31_0 (x : W64) : W64.f x 31 0 = x.toNat % 2 ^ 32 := by simp [W64.f, bits]
theorem W64.f_44_32 (x : W64) : W64.f x 44 32 = x.toNat / 2 ^ 32 % 2 ^ 13 := rfl

/-! Channel instructions. -/

section
variable {s : State} {n : Nat} {e : Engine} (h : s.cur = .job n e)
include h

/-- A channel instruction goes on at its configured channel. -/
theorem State.chanWord_configured {k : BitVec 4} (hk : ((s.core n).chan k.toNat).cfg = true) (f : State → Nat → Chan → State) :
    s.chanWord k f = .next (f s n ((s.core n).chan k.toNat)) := by
  simp only [State.chanWord, State.jobWord_job h, hk, if_true]
theorem State.chanWord_unconfigured {k : BitVec 4} (hk : ((s.core n).chan k.toNat).cfg = false) (f : State → Nat → Chan → State) :
    s.chanWord k f = .next (s.cause 11) := by
  simp [State.chanWord, State.jobWord_job h, hk]
theorem State.putChan_job (k : BitVec 4) (x : Chan) : s.putChan n k x = s.jobDid n e 4 1 (·.setChan k.toNat x) :=
  State.fin_modCore h 4 1 _ rfl

end

end Sys2Proof.Machine
end

section
/-! The statements about scalar instructions (R132 to R135). -/
open Sys2Proof Sys2Proof.Machine

/-- Settles O1: each form is the shared integer operation of two sources or of a source and an immediate, with its value of Table 5-2. -/
theorem integerResults : Obligations.IntegerResults := by
  intro s d a b imm sh
  -- ADD, SUB, MUL, MULH, MULHU
  refine ⟨State.givesResult_alu rfl rfl, State.givesResult_alu rfl rfl, State.givesResult_alu rfl rfl, State.givesResult_alu rfl rfl,
    State.givesResult_alu rfl rfl, ?_⟩
  -- DIV, DIVU, REM, REMU
  refine ⟨State.givesResult_alu rfl (sdiv_eq_ofInt _ _), State.givesResult_alu rfl (udiv_eq_ofNat _ _), State.givesResult_alu rfl rfl,
    State.givesResult_alu rfl rfl, ?_⟩
  -- AND, OR, XOR and the shifts
  refine ⟨State.givesResult_alu rfl rfl, State.givesResult_alu rfl rfl, State.givesResult_alu rfl rfl, State.givesResult_alu rfl rfl,
    State.givesResult_alu rfl rfl, State.givesResult_alu rfl rfl, ?_⟩
  -- MIN, MAX, MINU, MAXU
  refine ⟨State.givesResult_alu rfl (smin_eq_ofInt _ _), State.givesResult_alu rfl (smax_eq_ofInt _ _),
    State.givesResult_alu rfl (umin_eq_ofNat _ _), State.givesResult_alu rfl (umax_eq_ofNat _ _), ?_⟩
  -- the immediate forms
  exact ⟨State.givesResult_aluImm rfl rfl, State.givesResult_aluImm rfl rfl, State.givesResult_aluImm rfl rfl, State.givesResult_aluImm rfl rfl,
    State.givesResult_aluImm rfl rfl, State.givesResult_aluImm rfl rfl, State.givesResult_aluImm rfl rfl, State.givesResult_aluImm rfl rfl⟩

/-- Settles O2: each form is a result of the destination's kind, with its value of R134. -/
theorem constantAndAddressResults : Obligations.ConstantAndAddressResults := by
  intro s d b k l imm wide
  exact ⟨State.givesResult_scalar rfl, State.givesResult_scalar (by rw [BitVec.ofNat_toNat]; rfl), State.givesResult_putA rfl,
    State.givesResult_putA rfl, State.givesResult_putA rfl, State.givesResult_scalar rfl⟩

/-- Settles O3: each compare and predicate operation gives a predicate register its value of R135, and SEL a scalar one. -/
theorem compareAndSelectResults : Obligations.CompareAndSelectResults := by
  intro s d a b z x y imm
  obtain ⟨selJob, selThread⟩ := State.givesResult_scalar (s := s) (i := .sel z x y a) rfl
  refine ⟨State.givesResult_cmp (compare_zero _ _), State.givesResult_cmp (compare_one _ _), State.givesResult_cmp (compare_two _ _),
    State.givesResult_cmp (compare_three _ _), ?_⟩
  refine ⟨State.givesResult_cmpi (compare_zero _ _), State.givesResult_cmpi (compare_one _ _), State.givesResult_cmpi (compare_two _ _),
    State.givesResult_cmpi (compare_three _ _), ?_⟩
  refine ⟨State.givesResult_putP rfl, State.givesResult_putP rfl, State.givesResult_putP rfl, State.givesResult_putP rfl, selJob, selThread, ?_⟩
  exact fun r v w => Stream.p_wp_same r d v w
end

section
/-! What each channel instruction comes to in a job (R153, R155). -/
namespace Sys2Proof.Machine

/-- The operands that CHCFG admits in a scratchpad of `top` bytes (R153). -/
def chcfgAdmits (base size count top : Nat) : Prop :=
  base % 16 = 0 ∧ size % 16 = 0 ∧ 16 ≤ size ∧ size ≤ 65536 ∧ 1 ≤ count ∧ count ≤ 4096 ∧ base + size * count ≤ top
theorem chcfgAdmits_iff {base size count top : Nat} :
    (decide (base % 16 = 0) && decide (size % 16 = 0) && decide (16 ≤ size) && decide (size ≤ 65536) && decide (1 ≤ count)
      && decide (count ≤ 4096) && decide (base + size * count ≤ top)) = true ↔ chcfgAdmits base size count top := by
  simp [chcfgAdmits, and_assoc]
theorem not_chcfgAdmits {base size count top : Nat}
    (h : base % 16 ≠ 0 ∨ size % 16 ≠ 0 ∨ size < 16 ∨ 65536 < size ∨ count < 1 ∨ 4096 < count ∨ top < base + size * count) :
    ¬ chcfgAdmits base size count top := by
  rintro ⟨h1, h2, h3, h4, h5, h6, h7⟩
  omega

section
variable {s : State} {n : Nat} {e : Engine} {k : BitVec 4} (h : s.cur = .job n e)
include h

/-- CHCFG asks one condition of its operands: with it a channel is configured empty, without it cause 10 is raised. -/
theorem exec_chcfg_admitted {a b : F6} {base size count : Nat} (hbase : W64.f (s.rs a) 31 0 = base) (hsize : W64.f (s.rs b) 31 0 = size)
    (hcount : W64.f (s.rs b) 44 32 = count) (hc : chcfgAdmits base size count (s.core n).spSize) :
    exec (.chcfg k a b) s = .next (s.jobDid n e 4 1 fun c => c.setChan k.toNat
      { Chan.reset with cfg := true, base := base, size := size, count := count, epoch := ((s.core n).chan k.toNat).epoch + 1 }) := by
  subst hbase hsize hcount
  show execChcfg k a b s = _
  rw [execChcfg, State.jobWord_job h, State.check_one_ok (chcfgAdmits_iff.2 hc), State.fin1, State.fin_setCore h 4 1 _ (by rfl)]
  exact congrArg _ (State.jobDid_congr _ _ _ _ _ _ _ rfl)
theorem exec_chcfg_refused {a b : F6} {base size count : Nat} (hbase : W64.f (s.rs a) 31 0 = base) (hsize : W64.f (s.rs b) 31 0 = size)
    (hcount : W64.f (s.rs b) 44 32 = count) (hc : ¬ chcfgAdmits base size count (s.core n).spSize) :
    exec (.chcfg k a b) s = .next (s.cause 10) := by
  subst hbase hsize hcount
  show execChcfg k a b s = _
  rw [execChcfg, State.jobWord_job h, State.check_one_fail (Bool.eq_false_iff.2 (mt chcfgAdmits_iff.1 hc)) (by decide)]

/-- Each other channel instruction asks for a configured channel (R155). -/
theorem exec_chan_unconfigured {m : BitVec 12} {i : Instr} (hk : ((s.core n).chan k.toNat).cfg = false)
    (hi : i = .chwaitFull k m ∨ i = .chwaitFree k m ∨ i = .chadvCons k m ∨ i = .chadvProd k m ∨ i = .chrst k) : exec i s = .next (s.cause 11) := by
  have hw := fun f => State.chanWord_unconfigured (s := s) h hk f
  rcases hi with rfl | rfl | rfl | rfl | rfl
  · exact (hw _ : execChwaitFull k m s = _)
  · exact (hw _ : execChwaitFree k m s = _)
  · exact (hw _ : execChadvCons k m s = _)
  · exact (hw _ : execChadvProd k m s = _)
  · exact (hw _ : execChrst k s = _)

end

section
variable {s : State} {n : Nat} {e : Engine} {k : BitVec 4} {m : BitVec 12} {ch : Chan} (h : s.cur = .job n e)
  (hch : (s.core n).chan k.toNat = ch) (hk : ch.cfg = true)
include h hch hk

/-- A CHWAIT for no more slots than its channel has goes on when they are there, and else holds its stream. -/
theorem exec_chwaitFull (hm : m.toNat ≤ ch.count) :
    exec (.chwaitFull k m) s = .next (if m.toNat ≤ ch.avail then s.jobDid n e 4 1 id else s) := by
  subst hch
  show execChwaitFull k m s = _
  rw [execChwaitFull, State.chanWord_configured h hk, State.check_one_ok (decide_eq_true hm), State.fin1_job h]
theorem exec_chwaitFree (hm : m.toNat ≤ ch.count) :
    exec (.chwaitFree k m) s = .next (if m.toNat ≤ ch.free then s.jobDid n e 4 1 id else s) := by
  subst hch
  show execChwaitFree k m s = _
  rw [execChwaitFree, State.chanWord_configured h hk, State.check_one_ok (decide_eq_true hm), State.fin1_job h]
theorem exec_chwait_beyond (hm : ch.count < m.toNat) {i : Instr} (hi : i = .chwaitFull k m ∨ i = .chwaitFree k m) :
    exec i s = .next (s.cause 10) := by
  subst hch
  have hm' := decide_eq_false (Nat.not_le.2 hm)
  rcases hi with rfl | rfl
  · show execChwaitFull k m s = _
    rw [execChwaitFull, State.chanWord_configured h hk, State.check_one_fail hm' (by decide)]
  · show execChwaitFree k m s = _
    rw [execChwaitFree, State.chanWord_configured h hk, State.check_one_fail hm' (by decide)]

/-- CHADV.cons lets go of available slots, and raises cause 45 for more than there are. -/
theorem exec_chadvCons (hm : m.toNat ≤ ch.avail) :
    exec (.chadvCons k m) s = .next (s.jobDid n e 4 1 (·.setChan k.toNat
      { ch with cidx := (ch.cidx + m.toNat) % ch.count, filled := ch.filled - m.toNat })) := by
  subst hch
  show execChadvCons k m s = _
  rw [execChadvCons, State.chanWord_configured h hk, State.check_one_ok (decide_eq_true hm), State.putChan_job h]
theorem exec_chadvCons_beyond (hm : ch.avail < m.toNat) : exec (.chadvCons k m) s = .next (s.cause 45) := by
  subst hch
  show execChadvCons k m s = _
  rw [execChadvCons, State.chanWord_configured h hk, State.check_one_fail (decide_eq_false (Nat.not_le.2 hm)) (by decide)]
/-- CHADV.prod fills free slots, and raises cause 45 for more than there are. -/
theorem exec_chadvProd (hm : m.toNat ≤ ch.free) :
    exec (.chadvProd k m) s = .next (s.jobDid n e 4 1 (·.setChan k.toNat
      { ch with pidx := (ch.pidx + m.toNat) % ch.count, filled := ch.filled + m.toNat })) := by
  subst hch
  show execChadvProd k m s = _
  rw [execChadvProd, State.chanWord_configured h hk, State.check_one_ok (decide_eq_true hm), State.putChan_job h]
theorem exec_chadvProd_beyond (hm : ch.free < m.toNat) : exec (.chadvProd k m) s = .next (s.cause 45) := by
  subst hch
  show execChadvProd k m s = _
  rw [execChadvProd, State.chanWord_configured h hk, State.check_one_fail (decide_eq_false (Nat.not_le.2 hm)) (by decide)]
/-- CHRST empties the channel. -/
theorem exec_chrst : exec (.chrst k) s = .next (s.jobDid n e 4 1 (·.setChan k.toNat ch.clear)) := by
  subst hch
  show execChrst k s = _
  rw [execChrst, State.chanWord_configured h hk, State.putChan_job h]

end

/-- An instruction that raises a cause and does nothing else, in a job that is not stopped (R168). -/
theorem trapsTo_of_exec_cause {s : State} {n : Nat} {e : Engine} (h : s.cur = .job n e) (hs : (s.core n).stop = none) {i : Instr} {c : Nat}
    (hi : exec i s = .next (s.cause c)) : ∃ u, exec i s = .next u ∧ s.trapsTo u n e c 0 :=
  ⟨_, hi, State.trapsTo_cause h c hs 0⟩

end Sys2Proof.Machine
end

section
/-! The statement about channel instructions (R153, R155). -/
open Sys2Proof Sys2Proof.Machine

/-- Settles O11: each channel instruction by its own rule, a cause by what a trap of a job does. -/
theorem channelResults : Obligations.ChannelResults := by
  refine ⟨?_, ?_⟩
  · intro s n e k a b m h c ch base size count put
    refine ⟨fun h1 h2 h3 h4 h5 h6 h7 =>
      exec_chcfg_admitted h (W64.f_31_0 _) (W64.f_31_0 _) (W64.f_44_32 _) ⟨h1, h2, h3, h4, h5, h6, h7⟩, fun hk => ?_⟩
    have hch : (s.core n).chan k.toNat = ch := rfl
    refine ⟨fun hm ha => ?_, fun hm ha => ?_, fun hm hf => ?_, fun hm hf => ?_, exec_chadvCons h hch hk, exec_chadvProd h hch hk,
      exec_chrst h hch hk⟩
    · exact (exec_chwaitFull h hch hk hm).trans (congrArg _ (if_pos ha))
    · exact (exec_chwaitFull h hch hk hm).trans (congrArg _ (if_neg (Nat.not_le.2 ha)))
    · exact (exec_chwaitFree h hch hk hm).trans (congrArg _ (if_pos hf))
    · exact (exec_chwaitFree h hch hk hm).trans (congrArg _ (if_neg (Nat.not_le.2 hf)))
  · intro s n e k a b m i h hs ch base size count
    have hch : (s.core n).chan k.toNat = ch := rfl
    refine ⟨fun hbad => trapsTo_of_exec_cause h hs (exec_chcfg_refused h (W64.f_31_0 _) (W64.f_31_0 _) (W64.f_44_32 _) (not_chcfgAdmits hbad)),
      fun hk hi => trapsTo_of_exec_cause h hs (exec_chan_unconfigured h hk hi),
      fun hk hm hi => trapsTo_of_exec_cause h hs (exec_chwait_beyond h hch hk hm hi),
      fun hk hm => trapsTo_of_exec_cause h hs (exec_chadvCons_beyond h hch hk hm),
      fun hk hm => trapsTo_of_exec_cause h hs (exec_chadvProd_beyond h hch hk hm)⟩
end

section
/-! Reading the fields of a word back (R3, R95): a window of a number, and what a sum of fields placed in disjoint windows holds in each. -/
namespace Sys2Proof

/-- The `n` bits of a number from bit `lo`. -/
def window (x lo n : Nat) : Nat := x / 2 ^ lo % 2 ^ n

theorem window_add_same {x y lo n : Nat} (hy : y < 2 ^ n) (h : window x lo n = 0) : window (x + y * 2 ^ lo) lo n = y := by
  simp only [window] at *
  rw [Nat.add_mul_div_right _ _ (Nat.two_pow_pos lo), Nat.add_mod, h, Nat.zero_add, Nat.mod_mod, Nat.mod_eq_of_lt hy]
theorem window_add_below {x y lo n m : Nat} (h : lo + n ≤ m) : window (x + y * 2 ^ m) lo n = window x lo n := by
  obtain ⟨k, rfl⟩ := Nat.exists_eq_add_of_le h
  have hm : y * 2 ^ (lo + n + k) = (y * 2 ^ k * 2 ^ n) * 2 ^ lo := by
    rw [Nat.pow_add, Nat.pow_add]
    ac_rfl
  simp only [window]
  rw [hm, Nat.add_mul_div_right _ _ (Nat.two_pow_pos lo), Nat.add_mul_mod_self_right]
theorem window_add_above {x y lo n m k : Nat} (hy : y < 2 ^ k) (hx : window x m k = 0) (h : m + k ≤ lo) :
    window (x + y * 2 ^ m) lo n = window x lo n := by
  obtain ⟨j, rfl⟩ := Nat.exists_eq_add_of_le h
  simp only [window, Nat.pow_add, ← Nat.div_div_eq_div_mul] at *
  rw [Nat.add_mul_div_right _ _ (Nat.two_pow_pos m)]
  obtain ⟨q, hq⟩ := Nat.dvd_of_mod_eq_zero hx
  rw [hq, Nat.mul_add_div (Nat.two_pow_pos k), Nat.div_eq_of_lt hy, Nat.mul_div_cancel_left _ (Nat.two_pow_pos k), Nat.add_zero]
theorem window_mod {x lo n k : Nat} (h : lo + n ≤ k) : window (x % 2 ^ k) lo n = window x lo n := by
  obtain ⟨j, rfl⟩ := Nat.exists_eq_add_of_le h
  simp only [window]
  rw [Nat.add_assoc, Nat.pow_add, Nat.mod_mul_right_div_self, Nat.pow_add, Nat.mod_mul_right_mod]

/-- The sum of fields in any order of addition. -/
theorem placeSum_cons (base x lo : Nat) (fs : List (Nat × Nat)) : placeSum base ((x, lo) :: fs) = placeSum base fs + x * 2 ^ lo := by
  induction fs generalizing base with
  | nil => rfl
  | cons f fs ih =>
    obtain ⟨y, m⟩ := f
    have h := ih (base + y * 2 ^ m)
    simp only [placeSum] at h ⊢
    rw [Nat.add_right_comm, h]

/-! A field reads back where the rest of the word is clear, and leaves every window beside it as it was. -/

theorem window_place {base : Nat} {fs : List (Nat × Nat)} {lo n : Nat} (h : lo + n ≤ 32) :
    window (place base fs).toNat lo n = window (placeSum base fs) lo n := window_mod h
theorem window_placeSum_nil (base lo n : Nat) : window (placeSum base []) lo n = base / 2 ^ lo % 2 ^ n := rfl
/-- Where the window of the first field is clear in the rest of the word, that window holds the field, and any window apart from it is as the rest
has it; the cases stand in an order in which `simp` decides each from numerals. -/
theorem window_placeSum_cons {w : Nat} (x : BitVec w) (base lo n m : Nat) (fs : List (Nat × Nat)) :
    window (placeSum base ((x.toNat, m) :: fs)) lo n =
      if window (placeSum base fs) m w = 0 then
        if lo + n ≤ m then window (placeSum base fs) lo n
        else if m + w ≤ lo then window (placeSum base fs) lo n
        else if lo = m ∧ n = w then x.toNat
        else placeSum base ((x.toNat, m) :: fs) / 2 ^ lo % 2 ^ n
      else placeSum base ((x.toNat, m) :: fs) / 2 ^ lo % 2 ^ n := by
  rw [placeSum_cons]
  split
  next hx =>
    split
    next h1 => exact window_add_below h1
    · split
      next h2 => exact window_add_above x.isLt hx h2
      · split
        next h3 =>
          obtain ⟨rfl, rfl⟩ := h3
          exact window_add_same x.isLt hx
        · rfl
  · rfl

/-! What the decoder reads of a word and of an encoded one. -/

theorem fld_eq_window (w : W32) (lo n : Nat) : fld w lo n = BitVec.ofNat n (window w.toNat lo n) := by
  apply BitVec.eq_of_toNat_eq
  simp [fld, window]
theorem fld_place {base : Nat} {fs : List (Nat × Nat)} {lo n : Nat} (h : lo + n ≤ 32) :
    fld (place base fs) lo n = BitVec.ofNat n (window (placeSum base fs) lo n) := by
  rw [fld_eq_window, window_place h]
theorem bit_place {base : Nat} {fs : List (Nat × Nat)} {k : Nat} (h : k + 1 ≤ 32) : bit (place base fs) k = (window (placeSum base fs) k 1 == 1) :=
  congrArg (· == 1) (window_place h)
/-- The major opcode of a shared word (R98), and the opcode of a private one (R105). -/
theorem major_place (base : Nat) (fs : List (Nat × Nat)) : (place base fs).toNat / 2 ^ 24 % 128 = window (placeSum base fs) 24 7 :=
  window_place (lo := 24) (n := 7) (by decide)
theorem opcode_place (base : Nat) (fs : List (Nat × Nat)) : (place base fs).toNat / 2 ^ 20 % 64 = window (placeSum base fs) 20 6 :=
  window_place (lo := 20) (n := 6) (by decide)
theorem payloadKind_place (base : Nat) (fs : List (Nat × Nat)) : (place base fs).toNat / 2 ^ 28 = window (placeSum base fs) 28 4 := by
  rw [← window_place (by decide), window, Nat.mod_eq_of_lt]
  have := (place base fs).isLt
  omega
theorem collective_place (base : Nat) (fs : List (Nat × Nat)) : (place base fs).toNat / 2 ^ 20 % 4 = window (placeSum base fs) 20 2 :=
  window_place (lo := 20) (n := 2) (by decide)
/-- Bit 31 divides the space (R95). -/
theorem le_toNat_place {base : Nat} {fs : List (Nat × Nat)} (h : window (placeSum base fs) 31 1 = 1) : 2 ^ 31 ≤ (place base fs).toNat := by
  have hlt := (place base fs).isLt
  rw [← window_place (by decide), window] at h
  omega
theorem toNat_place_lt {base : Nat} {fs : List (Nat × Nat)} (h : window (placeSum base fs) 31 1 = 0) : (place base fs).toNat < 2 ^ 31 := by
  have hlt := (place base fs).isLt
  rw [← window_place (by decide), window] at h
  omega

end Sys2Proof
end

section
/-! Decoding after encoding, table by table (Tables 4-6 to 4-11): the opcode reads back and picks its arm, and the fields read back. -/
open Sys2Proof.Machine
namespace Sys2Proof

/-- A hint, whatever its kind: its majors follow one another from 0x70 (R98, R99). -/
theorem decodeShared_hint {w : W32} {k : Nat} (hk : k < 16) (h : w.toNat / 2 ^ 24 % 128 = 0x70 + k) :
    decodeShared w = if w = 0x70000000 then .ok .nop else .ok (.hint (fld w 24 4) (fld w 0 24)) := by
  rw [decodeShared, h]
  have hcases : k = 0 ∨ k = 1 ∨ k = 2 ∨ k = 3 ∨ k = 4 ∨ k = 5 ∨ k = 6 ∨ k = 7 ∨ k = 8 ∨ k = 9 ∨ k = 10 ∨ k = 11 ∨ k = 12 ∨ k = 13 ∨ k = 14 ∨ k = 15 := by omega
  rcases hcases with rfl | rfl | rfl | rfl | rfl | rfl | rfl | rfl | rfl | rfl | rfl | rfl | rfl | rfl | rfl | rfl <;> rfl
theorem toNat_hint (k : BitVec 4) (imm : BitVec 24) :
    (place 0x70000000 [(k.toNat, 24), (imm.toNat, 0)]).toNat = 0x70000000 + k.toNat * 2 ^ 24 + imm.toNat := by
  have hk := k.isLt
  have hi := imm.isLt
  simp only [place, placeSum, BitVec.toNat_ofNat]
  omega
theorem decodeShared_encode_hint {k : BitVec 4} {imm : BitVec 24} (hwf : WellFormed (.hint k imm) = true) :
    decodeShared (place 0x70000000 [(k.toNat, 24), (imm.toNat, 0)]) = .ok (.hint k imm) := by
  have hk := k.isLt
  have hi := imm.isLt
  have hw := toNat_hint k imm
  have hnop : place 0x70000000 [(k.toNat, 24), (imm.toNat, 0)] ≠ 0x70000000 := by
    intro h
    have h0 : (0x70000000 : W32).toNat = 0x70000000 + k.toNat * 2 ^ 24 + imm.toNat := h ▸ hw
    have hzero : k.toNat = 0 ∧ imm.toNat = 0 := by
      simp only [BitVec.reduceToNat] at h0
      omega
    have hk0 : k = 0 := BitVec.eq_of_toNat_eq hzero.1
    have hi0 : imm = 0 := BitVec.eq_of_toNat_eq hzero.2
    simp [WellFormed, hk0, hi0] at hwf
  rw [decodeShared_hint hk (by rw [hw]; omega), if_neg hnop]
  simp only [fld_place, window_placeSum_cons, window_placeSum_nil, Nat.reduceAdd, Nat.reduceLeDiff, Nat.reducePow, Nat.reduceMod,
    Nat.reduceDiv, Nat.reduceEqDiff, and_self, reduceIte, BitVec.ofNat_toNat, BitVec.setWidth_eq]

/-- A word without a guard is one of the shared table (R95). -/
theorem shared_encode {i : Instr} {ws : List W32} (hg : guardedWord i = none) (h : encode i = some ws) :
    ∃ w, ws = [w] ∧ w.toNat < 2 ^ 31 := by
  cases i <;> cases hg <;> cases h <;> refine ⟨_, rfl, toNat_place_lt ?_⟩ <;>
  simp only [window_placeSum_cons, window_placeSum_nil, Nat.reduceAdd, Nat.reduceLeDiff, Nat.reducePow, Nat.reduceMod, Nat.reduceDiv,
    Nat.reduceEqDiff, reduceIte]
/-- Every word with a guard is one of a private table (R95, R101). -/
theorem private_encode {i : Instr} {x : Guard × Nat} {ws : List W32} (hg : guardedWord i = some x) (h : encode i = some ws) :
    2 ^ 31 ≤ (ws.getD 0 0).toNat := by
  cases i <;> cases hg <;> cases h <;> refine le_toNat_place ?_ <;>
  simp only [window_placeSum_cons, window_placeSum_nil, Nat.reduceAdd, Nat.reduceLeDiff, Nat.reducePow, Nat.reduceMod, Nat.reduceDiv,
    Nat.reduceEqDiff, reduceIte]

/-- Table 4-6. -/
theorem decodeShared_encode {i : Instr} {w : W32} (hwf : WellFormed i = true) (hg : guardedWord i = none) (h : encode i = some [w]) :
    decodeShared w = .ok i := by
  cases i <;> cases hg <;> cases h
  case hint => exact decodeShared_encode_hint hwf
  case ret | endl | endlRot | phaseG | phaseK | phaseX | rdv | iflush | eret | nop => rfl
  all_goals rw [decodeShared, major_place]
  case mulh | mulhu | div | divu | rem | remu | min | minu | max | maxu | gmaskT | gmaskF | chwaitFull | chwaitFree | chadvCons | chadvProd | eretAt =>
    simp only [fld_place, bit_place, window_placeSum_cons, window_placeSum_nil, Nat.reduceAdd, Nat.reduceLeDiff, Nat.reducePow, Nat.reduceMod,
      Nat.reduceDiv, Nat.reduceEqDiff, Nat.reduceBEq, and_self, and_true, reduceIte, BitVec.ofNat_toNat, BitVec.setWidth_eq, Bool.false_eq_true]
  all_goals
    conv in window _ 24 7 =>
      simp only [window_placeSum_cons, window_placeSum_nil, Nat.reduceAdd, Nat.reduceLeDiff, Nat.reducePow, Nat.reduceMod, Nat.reduceDiv,
        Nat.reduceEqDiff, reduceIte]
    conv => lhs; whnf
    simp only [fld_place, window_placeSum_cons, window_placeSum_nil, Nat.reduceAdd, Nat.reduceLeDiff, Nat.reducePow, Nat.reduceMod,
      Nat.reduceDiv, Nat.reduceEqDiff, and_self, and_true, reduceIte, BitVec.ofNat_toNat, BitVec.setWidth_eq]

/-- Table 4-7. -/
theorem decodeS_encode {i : Instr} {x : Guard × Nat} (hS : engineOf i = .S) (hg : guardedWord i = some x) :
    ∃ w, encode i = some [w] ∧ decodeS w = .ok i := by
  cases i <;> cases hS <;> cases hg <;> refine ⟨_, rfl, ?_⟩ <;> rw [decodeS, opcode_place]
  case aredOrd =>
    simp only [fld_place, bit_place, window_placeSum_cons, window_placeSum_nil, Nat.reduceAdd, Nat.reduceLeDiff, Nat.reducePow, Nat.reduceMod,
      Nat.reduceDiv, Nat.reduceEqDiff, Nat.reduceBEq, and_self, and_true, reduceIte, BitVec.ofNat_toNat, BitVec.setWidth_eq]
  all_goals
    conv in window _ 20 6 =>
      simp only [window_placeSum_cons, window_placeSum_nil, Nat.reduceAdd, Nat.reduceLeDiff, Nat.reducePow, Nat.reduceMod, Nat.reduceDiv,
        Nat.reduceEqDiff, reduceIte]
    conv => lhs; whnf
    simp only [fld_place, window_placeSum_cons, window_placeSum_nil, Nat.reduceAdd, Nat.reduceLeDiff, Nat.reducePow, Nat.reduceMod,
      Nat.reduceDiv, Nat.reduceEqDiff, and_self, and_true, reduceIte, BitVec.ofNat_toNat, BitVec.setWidth_eq]

/-- Tables 4-8 and 4-9. -/
theorem decodeV_encode {i : Instr} (hV : engineOf i = .V) : ∃ w, encode i = some [w] ∧ decodeV w = .ok i := by
  cases i <;> cases hV <;> refine ⟨_, rfl, ?_⟩ <;> rw [decodeV, opcode_place]
  case vexp2 | vlog2 | vrcp | vrsq | vsinpi | vcospi | vtanh | vrsum | vcsum | vrmax | vcmax | vrmin | vcmin =>
    simp only [fld_place, window_placeSum_cons, window_placeSum_nil, Nat.reduceAdd, Nat.reduceLeDiff, Nat.reducePow, Nat.reduceMod,
      Nat.reduceDiv, Nat.reduceEqDiff, and_self, and_true, reduceIte, BitVec.ofNat_toNat, BitVec.setWidth_eq, BitVec.toNat_ofNat]
  all_goals
    conv in window _ 20 6 =>
      simp only [window_placeSum_cons, window_placeSum_nil, Nat.reduceAdd, Nat.reduceLeDiff, Nat.reducePow, Nat.reduceMod, Nat.reduceDiv,
        Nat.reduceEqDiff, reduceIte]
    conv => lhs; whnf
    simp only [fld_place, window_placeSum_cons, window_placeSum_nil, Nat.reduceAdd, Nat.reduceLeDiff, Nat.reducePow, Nat.reduceMod,
      Nat.reduceDiv, Nat.reduceEqDiff, and_self, and_true, reduceIte, BitVec.ofNat_toNat, BitVec.setWidth_eq]

/-! A long form is told by its opcode, and its payload's kind by bits 31:28 (R106). -/

theorem isLongWord_M {w : W32} (h : 2 ^ 31 ≤ w.toNat) : isLongWord .M w = (w.toNat / 2 ^ 20 % 64 == 5) := by
  rw [isLongWord, decide_eq_true h, Bool.true_and]
theorem isLongWord_X {w : W32} (h : 2 ^ 31 ≤ w.toNat) : isLongWord .X w = [1, 2, 3, 6, 7].contains (w.toNat / 2 ^ 20 % 64) := by
  rw [isLongWord, decide_eq_true h, Bool.true_and]
  simp only [List.contains_cons, List.contains_nil, Bool.or_false, Bool.or_assoc]

/-- Table 4-10: the second word is there for a long form alone. -/
theorem isLongWord_encode_M {i : Instr} {ws : List W32} (hM : engineOf i = .M) (h : encode i = some ws) :
    isLongWord .M (ws.getD 0 0) = (ws.length == 2) := by
  have hw : 2 ^ 31 ≤ (ws.getD 0 0).toNat := by
    cases i <;> cases hM <;> exact private_encode rfl h
  rw [isLongWord_M hw]
  cases i <;> cases hM <;> cases h <;> rw [List.getD_cons_zero, opcode_place] <;>
  simp only [window_placeSum_cons, window_placeSum_nil, Nat.reduceAdd, Nat.reduceLeDiff, Nat.reducePow, Nat.reduceMod, Nat.reduceDiv,
    Nat.reduceEqDiff, reduceIte] <;> rfl

/-- Table 4-11: the second word is there for a long form alone. -/
theorem isLongWord_encode_X {i : Instr} {ws : List W32} (hX : engineOf i = .X) (h : encode i = some ws) :
    isLongWord .X (ws.getD 0 0) = (ws.length == 2) := by
  have hw : 2 ^ 31 ≤ (ws.getD 0 0).toNat := by
    cases i <;> cases hX <;> exact private_encode rfl h
  rw [isLongWord_X hw]
  cases i <;> cases hX <;> cases h <;> rw [List.getD_cons_zero, opcode_place] <;>
  simp only [window_placeSum_cons, window_placeSum_nil, Nat.reduceAdd, Nat.reduceLeDiff, Nat.reducePow, Nat.reduceMod, Nat.reduceDiv,
    Nat.reduceEqDiff, reduceIte] <;> rfl

/-- Table 4-10. -/
theorem decodeM_encode {i : Instr} {ws : List W32} (hM : engineOf i = .M) (h : encode i = some ws) :
    decodeM (ws.getD 0 0) (ws.getD 1 0) = .ok i := by
  cases i <;> cases hM <;> cases h
  case mma =>
    rw [List.getD_cons_zero, List.getD_cons_succ, List.getD_cons_zero, decodeM, opcode_place, payloadKind_place]
    simp only [fld_place, window_placeSum_cons, window_placeSum_nil, Nat.reduceAdd, Nat.reduceLeDiff, Nat.reducePow, Nat.reduceMod, Nat.reduceDiv,
      Nat.reduceEqDiff, and_self, and_true, reduceIte, BitVec.ofNat_toNat, BitVec.setWidth_eq]
  all_goals
    rw [decodeM, List.getD_cons_zero, opcode_place]
    conv in window _ 20 6 =>
      simp only [window_placeSum_cons, window_placeSum_nil, Nat.reduceAdd, Nat.reduceLeDiff, Nat.reducePow, Nat.reduceMod, Nat.reduceDiv,
        Nat.reduceEqDiff, reduceIte]
    conv => lhs; whnf
    simp only [fld_place, window_placeSum_cons, window_placeSum_nil, Nat.reduceAdd, Nat.reduceLeDiff, Nat.reducePow, Nat.reduceMod,
      Nat.reduceDiv, Nat.reduceEqDiff, and_self, and_true, reduceIte, BitVec.ofNat_toNat, BitVec.setWidth_eq]

/-- Table 4-11. -/
theorem decodeX_encode {i : Instr} {ws : List W32} (hX : engineOf i = .X) (h : encode i = some ws) :
    decodeX (ws.getD 0 0) (ws.getD 1 0) = .ok i := by
  cases i <;> cases hX <;> cases h
  case xcopy | xfill | xdrain | xfetch | xfetchTry =>
    rw [List.getD_cons_zero, List.getD_cons_succ, List.getD_cons_zero, decodeX, opcode_place, payloadKind_place]
    simp only [fld_place, bit_place, window_placeSum_cons, window_placeSum_nil, Nat.reduceAdd, Nat.reduceLeDiff, Nat.reducePow, Nat.reduceMod, Nat.reduceDiv,
      Nat.reduceEqDiff, Nat.reduceBEq, and_self, and_true, reduceIte, BitVec.ofNat_toNat, BitVec.setWidth_eq, Bool.false_eq_true]
  case xallred | xallgath | xredscat | xall2all =>
    rw [List.getD_cons_zero, List.getD_cons_succ, List.getD_cons_zero, decodeX, opcode_place, payloadKind_place, collective_place]
    simp only [fld_place, window_placeSum_cons, window_placeSum_nil, Nat.reduceAdd, Nat.reduceLeDiff, Nat.reducePow, Nat.reduceMod, Nat.reduceDiv,
      Nat.reduceEqDiff, and_self, and_true, reduceIte, BitVec.ofNat_toNat, BitVec.setWidth_eq]
  all_goals
    rw [decodeX, List.getD_cons_zero, opcode_place]
    conv in window _ 20 6 =>
      simp only [window_placeSum_cons, window_placeSum_nil, Nat.reduceAdd, Nat.reduceLeDiff, Nat.reducePow, Nat.reduceMod, Nat.reduceDiv,
        Nat.reduceEqDiff, reduceIte]
    conv => lhs; whnf
    simp only [fld_place, window_placeSum_cons, window_placeSum_nil, Nat.reduceAdd, Nat.reduceLeDiff, Nat.reducePow, Nat.reduceMod,
      Nat.reduceDiv, Nat.reduceEqDiff, and_self, and_true, reduceIte, BitVec.ofNat_toNat, BitVec.setWidth_eq]

theorem long_length {ws : List W32} (hne : ws ≠ []) (hlen : ws.length ≤ 2) : (if ws.length == 2 then 8 else 4) = 4 * ws.length := by
  have := List.length_pos_iff.mpr hne
  by_cases h : ws.length = 2
  · rw [h]; rfl
  · rw [if_neg (by simpa using h)]; omega

/-! The words of an instruction as bytes and back (R94). -/

theorem length_bytesOfWords (ws : List W32) : (bytesOfWords ws).length = 4 * ws.length := by
  induction ws with
  | nil => rfl
  | cons w ws ih =>
    simp only [bytesOfWords, List.length_cons, ih]
    omega
@[simp] theorem wordOfBytes_bytesOfWords (ws : List W32) : wordOfBytes (bytesOfWords ws) = ws.getD 0 0 := by
  cases ws with
  | nil => rfl
  | cons w ws =>
    apply BitVec.eq_of_toNat_eq
    have hw := w.isLt
    simp only [wordOfBytes, bytesOfWords, List.getD_cons_zero, List.getD_cons_succ, BitVec.toNat_ofNat]
    omega
@[simp] theorem wordOfBytes_drop_bytesOfWords (ws : List W32) : wordOfBytes ((bytesOfWords ws).drop 4) = ws.getD 1 0 := by
  cases ws with
  | nil => rfl
  | cons w ws => exact wordOfBytes_bytesOfWords ws
/-- The bytes of an instruction's words decode as the words do. -/
theorem decodeBytes_bytesOfWords {e : Engine} {i : Instr} {ws : List W32} (hne : ws ≠ []) (h : decodeWord e (ws.getD 0 0) (ws.getD 1 0) = .ok i) :
    decodeBytes e (bytesOfWords ws) = .ok (i, if isLongWord e (ws.getD 0 0) then 8 else 4) := by
  have hlen : ¬ (bytesOfWords ws).length < 4 := by
    have := List.length_pos_iff.mpr hne
    rw [length_bytesOfWords]
    omega
  rw [decodeBytes, if_neg hlen, wordOfBytes_bytesOfWords, wordOfBytes_drop_bytesOfWords, h]

theorem isLongWord_shared {e : Engine} {w : W32} (h : w.toNat < 2 ^ 31) : isLongWord e w = false := by
  rw [isLongWord.eq_def, decide_eq_false (Nat.not_le.mpr h), Bool.false_and]
/-- A shared word decodes alike in every engine (R96). -/
theorem decodeBytes_encode_shared {i : Instr} {ws : List W32} (e : Engine) (hwf : WellFormed i = true) (hg : guardedWord i = none)
    (h : encode i = some ws) : decodeBytes e (bytesOfWords ws) = .ok (i, 4 * ws.length) := by
  obtain ⟨w, rfl, hw⟩ := shared_encode hg h
  have hdec : decodeWord e w 0 = .ok i := (if_pos hw).trans (decodeShared_encode hwf hg h)
  rw [decodeBytes_bytesOfWords (List.cons_ne_nil _ _) hdec, List.getD_cons_zero, isLongWord_shared hw]
  rfl
theorem decodeWord_encode_private {i : Instr} {x : Guard × Nat} {ws : List W32} (hg : guardedWord i = some x) (h : encode i = some ws) :
    decodeWord (engineOf i) (ws.getD 0 0) (ws.getD 1 0) = .ok i := by
  rw [decodeWord.eq_def, if_neg (Nat.not_lt.mpr (private_encode hg h))]
  cases he : engineOf i with
  | S =>
    obtain ⟨w, hws, hdec⟩ := decodeS_encode he hg
    obtain rfl : ws = [w] := Option.some.inj (h.symm.trans hws)
    exact hdec
  | V =>
    obtain ⟨w, hws, hdec⟩ := decodeV_encode he
    obtain rfl : ws = [w] := Option.some.inj (h.symm.trans hws)
    exact hdec
  | M => exact decodeM_encode he h
  | X => exact decodeX_encode he h
theorem isLongWord_encode {i : Instr} {x : Guard × Nat} {ws : List W32} (hg : guardedWord i = some x) (h : encode i = some ws) :
    isLongWord (engineOf i) (ws.getD 0 0) = (ws.length == 2) := by
  cases he : engineOf i with
  | S =>
    obtain ⟨w, hws, -⟩ := decodeS_encode he hg
    obtain rfl : ws = [w] := Option.some.inj (h.symm.trans hws)
    exact Bool.and_false _
  | V =>
    obtain ⟨w, hws, -⟩ := decodeV_encode he
    obtain rfl : ws = [w] := Option.some.inj (h.symm.trans hws)
    exact Bool.and_false _
  | M => exact isLongWord_encode_M he h
  | X => exact isLongWord_encode_X he h
/-- A private word decodes in its own engine (R95, R106). -/
theorem decodeBytes_encode_private {i : Instr} {x : Guard × Nat} {ws : List W32} (hg : guardedWord i = some x) (h : encode i = some ws) :
    decodeBytes (engineOf i) (bytesOfWords ws) = .ok (i, 4 * ws.length) := by
  have hne : ws ≠ [] := by
    rintro rfl
    exact absurd (private_encode hg h) (by decide)
  have hlen : ws.length ≤ 2 := by
    cases i <;> cases h <;> simp only [List.length_cons, List.length_nil, Nat.reduceAdd, Nat.reduceLeDiff]
  rw [decodeBytes_bytesOfWords hne (decodeWord_encode_private hg h), isLongWord_encode hg h, long_length hne hlen]

end Sys2Proof

open Sys2Proof Sys2Proof.Machine
/-- Settles O57: a word without a guard is a shared one and decodes so in every engine; a guarded one decodes in its own, by its table. -/
theorem decodeEncode : Obligations.DecodeEncode := by
  unfold Obligations.DecodeEncode
  intro i ws hwf h
  cases hg : guardedWord i with
  | none =>
    refine ⟨decodeBytes_encode_shared _ hwf hg h, fun _ e => ?_⟩
    obtain ⟨w, rfl, -⟩ := shared_encode hg h
    exact decodeBytes_encode_shared e hwf hg h
  | some x =>
    refine ⟨decodeBytes_encode_private hg h, fun hbit => ?_⟩
    have hw := private_encode hg h
    have hlt := (ws.getD 0 0).isLt
    rw [BitVec.getLsbD, Nat.testBit_eq_decide_div_mod_eq, decide_eq_false_iff_not] at hbit
    omega
end

section
open Sys2Proof Sys2Proof.Machine

/-- Settles O56: each of the six words is one literal, and the decoder reads it. -/
theorem decodeWords : Obligations.DecodeWords := by
  unfold Obligations.DecodeWords
  exact ⟨rfl, rfl, rfl, rfl, rfl, rfl⟩
/-- Settles O58: memory at reset lists nothing (R455). -/
theorem resetKeepsForm : Obligations.ResetKeepsForm := by
  rw [Obligations.ResetKeepsForm]
  exact Mem.wf_nil
end

section
/-! Every step of a module with power has a next state: an instruction or event always answers one, with the order of accesses noted or not. -/
namespace Sys2Proof.Machine

theorem runCommand_next (code : Nat) (op : BitVec 496) (s : State) : ∃ t, runCommand code op s = .next t := by
  unfold runCommand
  split <;> exact ⟨_, rfl⟩
theorem State.go_next (s : State) : ∃ t, s.go = .next t := by
  unfold State.go
  split
  · exact ⟨_, rfl⟩
  · exact runCommand_next _ _ _
theorem State.writePf_next (s : State) (off : Nat) (bytes : List Byte) : ∃ t, s.writePf off bytes = .next t := by
  simp only [State.writePf]
  split
  · exact State.go_next _
  · exact ⟨_, rfl⟩
theorem State.writeVf_next (s : State) (vf off : Nat) (bytes : List Byte) : ∃ t, s.writeVf vf off bytes = .next t := by
  simp only [State.writeVf]
  (repeat' split) <;> exact ⟨_, rfl⟩
theorem execRegisterWrite_next (fn off : Nat) (bytes : List Byte) (s : State) : ∃ t, execRegisterWrite fn off bytes s = .next t := by
  unfold execRegisterWrite
  split
  · exact s.writePf_next off bytes
  · split
    · exact s.writeVf_next fn off bytes
    · exact ⟨_, rfl⟩
theorem execVpmov_next (g : Guard) (d a : F6) (m : BitVec 1) (s : State) : ∃ t, execVpmov g d a m s = .next t := by
  unfold execVpmov
  (repeat' split) <;> exact ⟨_, rfl⟩

/-- No instruction, event or input stops the machine. -/
theorem exec_next (i : Instr) (s : State) : ∃ t, exec i s = .next t := by
  cases i
  case registerWrite fn off bytes => exact execRegisterWrite_next fn off bytes s
  case vpmov g d a m => exact execVpmov_next g d a m s
  all_goals exact ⟨_, rfl⟩
theorem runAuto_next (a : Auto) (s : State) : ∃ t, runAuto a s = .next t := by
  cases a
  case replayPhaseRestart n late =>
    by_cases h : s.restartLate n = late
    · exact ⟨_, if_pos h⟩
    · exact ⟨_, if_neg h⟩
  all_goals exact ⟨_, rfl⟩

theorem State.ordered_exec_next (s u : State) (a : Act) (i : Instr) : ∃ t, s.ordered a (some i) (exec i u) = .next t := by
  obtain ⟨t, ht⟩ := exec_next i u
  exact ⟨_, congrArg (s.ordered a (some i)) ht⟩
theorem issueStep_next (s : State) (ag : Agent) : ∃ t, issueStep s ag = .next t := by
  unfold issueStep
  split
  · exact State.ordered_exec_next _ _ _ _
  · exact ⟨_, rfl⟩
  · exact ⟨_, rfl⟩
theorem actStep_next (s : State) (a : Act) : ∃ t, actStep s a = .next t := by
  cases a with
  | ev i => exact s.ordered_exec_next s _ i
  | auto a => exact runAuto_next a s
  | issue ag => exact issueStep_next s ag

/-- With power, whatever is next: boot, an action of the agenda, an input, or the plan of the next cycle. -/
theorem step_next {s : State} (h : s.guide.powered = true) : ∃ t, step s = .next t := by
  rw [step, h]
  simp only [Bool.not_true, Bool.false_eq_true, if_false]
  split
  · exact ⟨_, rfl⟩
  · split
    · exact actStep_next _ _
    · exact exec_next _ _
    · exact ⟨_, rfl⟩
theorem step_dark {s : State} (h : s.guide.powered = false) : step s = darkStep s := by
  rw [step, h]
  rfl
theorem darkStep_next {s : State} (h : s.inbox ≠ []) : ∃ t, darkStep s = .next t := by
  obtain ⟨i, rest, hi⟩ := List.exists_cons_of_ne_nil h
  rw [darkStep, hi]
  by_cases hc : (i == .coldReset) = true
  · exact ⟨_, if_pos hc⟩
  · exact ⟨_, if_neg hc⟩

end Sys2Proof.Machine

open Sys2Proof Sys2Proof.Machine
/-- Settles O60: with power every part of a step answers a next state; without, an input does and nothing else (R463, log 36). -/
theorem stepGoesOn : Obligations.StepGoesOn := by
  unfold Obligations.StepGoesOn
  intro s
  refine ⟨step_next, fun h => ⟨fun hin => ?_, fun hin => ?_⟩⟩
  · rw [step_dark h, darkStep, hin]
  · rw [step_dark h]
    exact darkStep_next hin
end

section
/-! What a step runs. -/
namespace Sys2Proof.Machine

/-- A turn of an agent that may issue and whose words decode runs the instruction, once its words are captured (R145). -/
theorem State.turn_run {s : State} {ag : Agent} {i : Instr} {len : Nat} (hmay : { s with cur := ag }.mayIssue ag = true)
    (hhead : { s with cur := ag }.headAt ag (s.stream ag).pc.toNat = .instr i len) (hend : (s.stream ag).longAtEnd len = false) :
    s.turn ag = .run i ({ s with cur := ag }.capture ag len) := by
  have hx : { s with cur := ag }.stream ag = s.stream ag := by cases ag <;> rfl
  simp only [State.turn, hmay, hx, hhead, hend, if_true, Bool.false_eq_true, if_false]
/-- Outside every loop no word is captured. -/
theorem State.capture_no_loop {s : State} {ag : Agent} (len : Nat) (h : (s.stream ag).loops = []) : s.capture ag len = s := by
  have hb : (s.stream ag).inBody (s.stream ag).pc.toNat = false := by rw [Stream.inBody, h]; rfl
  simp only [State.capture, hb, Bool.false_eq_true, if_false]

/-- Noting the order of accesses changes that order in one core, and no more. -/
theorem State.noteOrder_only_order (s t : State) (a : Act) (i : Option Instr) :
    s.noteOrder t a i = t ∨ ∃ n o, orderSite a = some (n, o) ∧
      ∃ p q, s.noteOrder t a i = t.modCore n fun c => { c with
        order := p, strong := c.strong.map fun y => if (s.core n).seq ≤ y.id then { y with past := q } else y } := by
  unfold State.noteOrder
  cases ha : orderSite a with
  | none => exact .inl rfl
  | some site =>
    obtain ⟨n, e, via⟩ := site
    by_cases h : (s.core n).job ≠ (t.core n).job ∨ (t.core n).job = none ∨ (s.core n).loading ≠ (t.core n).loading
    · exact .inl (if_pos h)
    · exact .inr ⟨n, (e, via), rfl, _, _, if_neg h⟩

/-- What a step does once the agenda is empty: it takes an input, or plans the next cycle. -/
theorem step_idle {s : State} (hp : s.guide.powered = true) (hb : s.guide.booting = false) (ha : s.agenda = []) :
    step s = match s.takeInput false s.inbox with
      | some (i, rest) => exec i { s with inbox := rest }
      | none => .next s.planCycle := by
  simp only [step, hp, hb, ha, Bool.not_true, Bool.false_eq_true, if_false]
  cases s.takeInput false s.inbox <;> rfl
theorem step_act {s : State} {a : Act} {rest : List Act} (hp : s.guide.powered = true) (hb : s.guide.booting = false) (ha : s.agenda = a :: rest) :
    step s = actStep { s with agenda := rest } a := by
  simp only [step, hp, hb, ha, Bool.not_true, Bool.false_eq_true, if_false]

/-! Which input is taken: one that asks no slice, or whose slice's queue has room; a host request to a full one is held. -/

theorem State.takeInput_cons {s : State} {i : Instr} (more : List Instr)
    (h : ∀ vf off k, hostSpan i = some (vf, off, k) → s.sliceFull vf off k = false) : s.takeInput false (i :: more) = some (i, more) := by
  simp only [State.takeInput]
  cases hi : hostSpan i with
  | none => rfl
  | some x => simp only [h _ _ _ hi, Bool.false_or, Bool.false_eq_true, if_false]
theorem State.takeInput_held {s : State} {j : Instr} {vf off k : Nat} (more : List Instr) (hj : hostSpan j = some (vf, off, k))
    (hfull : s.sliceFull vf off k = true) : s.takeInput false (j :: more) = (s.takeInput true more).map fun x => (x.1, j :: x.2) := by
  simp only [State.takeInput, hj, hfull, Bool.false_or, if_true]
theorem State.takeInput_free (s : State) {i : Instr} (more : List Instr) (hi : hostSpan i = none) (kept : Bool) :
    s.takeInput kept (i :: more) = some (i, more) := by
  simp only [State.takeInput, hi, Bool.false_eq_true, if_false]

end Sys2Proof.Machine

open Sys2Proof Sys2Proof.Machine
/-- Settles O55: each clause is the branch of a step that its hypotheses choose (log 1). -/
theorem stepRunsDecoded : Obligations.StepRunsDecoded := by
  unfold Obligations.StepRunsDecoded
  intro s rest ag i len hp hb
  refine ⟨fun ha hmay hhead hend => ⟨?_, State.capture_no_loop len⟩, fun ha => ?_, fun s1 t a => s1.noteOrder_only_order t a _,
    fun more ha hin hroom => ?_, fun j more ha hin hfull => ⟨fun hm => ?_, fun rest' hm hi => ?_⟩, fun ha hin => ?_⟩
  · have hx : ({ s with agenda := rest, cur := ag } : State).stream ag = ({ s with agenda := rest } : State).stream ag := by cases ag <;> rfl
    rw [step_act hp hb ha, actStep, issueStep, State.turn_run hmay (hx ▸ hhead) (hx ▸ hend)]
  · rw [step_act hp hb ha]
    rfl
  · rw [step_idle hp hb ha, hin, State.takeInput_cons more hroom]
  · obtain ⟨vf, off, k, hj, hk⟩ := hfull
    rw [step_idle hp hb ha, hin, State.takeInput_held more hj hk, hm]
    rfl
  · obtain ⟨vf, off, k, hj, hk⟩ := hfull
    rw [step_idle hp hb ha, hin, State.takeInput_held more hj hk, hm, s.takeInput_free rest' hi]
    rfl
  · rw [step_idle hp hb ha, hin]
    rfl
end

section
/-! What local HBM is after each operation of the model: as it was (`_hbm`), or at least in canonical form (`_wf`). -/
namespace Sys2Proof.Machine
@[simp] theorem State.ite_hbm (p : Prop) [Decidable p] (s t : State) : (if p then s else t).hbm = if p then s.hbm else t.hbm := apply_ite _ _ _ _
@[simp] theorem Mem.wf_ite (p : Prop) [Decidable p] (m k : Mem) : ((if p then m else k).wf = true) = if p then m.wf = true else k.wf = true := by split <;> rfl
@[simp] theorem State.foldl_hbm {α : Type} {l : List α} {f : State → α → State} {s : State} (hf : ∀ t x, (f t x).hbm = t.hbm) :
    (l.foldl f s).hbm = s.hbm := by
  induction l generalizing s with
  | nil => rfl
  | cons x l ih => exact ih.trans (hf s x)
@[simp] theorem State.foldl_wf {α : Type} {l : List α} {f : State → α → State} {s : State} (hs : s.hbm.wf) (hf : ∀ t x, t.hbm.wf → (f t x).hbm.wf) :
    (l.foldl f s).hbm.wf := by
  induction l generalizing s with
  | nil => exact hs
  | cons x l ih => exact ih (hf s x hs)
@[simp] theorem State.foldl_fst_hbm {α β : Type} {l : List α} {f : State × β → α → State × β} {r : State × β} (hf : ∀ q x, (f q x).1.hbm = q.1.hbm) :
    (l.foldl f r).1.hbm = r.1.hbm := by
  induction l generalizing r with
  | nil => rfl
  | cons x l ih => exact ih.trans (hf r x)
@[simp] theorem State.foldl_fst_wf {α β : Type} {l : List α} {f : State × β → α → State × β} {r : State × β} (hr : r.1.hbm.wf)
    (hf : ∀ q x, q.1.hbm.wf → (f q x).1.hbm.wf) : (l.foldl f r).1.hbm.wf := by
  induction l generalizing r with
  | nil => exact hr
  | cons x l ih => exact ih (hf r x hr)
@[simp] theorem Mem.wf_set_of {m : Mem} (h : m.wf) (a : Nat) (b : Byte) : (m.set a b).wf := Mem.wf_set h a b
@[simp] theorem Mem.wf_write_of {m : Mem} (h : m.wf) (a : Nat) (bs : List Byte) : (m.write a bs).wf := Mem.wf_write h a bs
@[simp] theorem Mem.wf_clear_of {m : Mem} (h : m.wf) (p : Nat → Bool) : (m.clear p).wf := Mem.wf_clear h p
/-- The fold that most operations on several cores are. -/
@[simp] theorem State.foldl_modCore_hbm {α : Type} (l : List α) (n : State → α → Nat) (f : State → α → Core → Core) (s : State) :
    (l.foldl (fun t x => t.modCore (n t x) (f t x)) s).hbm = s.hbm := State.foldl_hbm fun _ _ => State.modCore_hbm ..

/-! `Machine/State`. -/

@[simp] theorem State.reset_wf : State.reset.hbm.wf := by simp +contextual [State.reset]

/-! `Machine/Ops`. -/

@[simp] theorem State.setStream_hbm (s : State) (ag : Agent) (x : Stream) : (s.setStream ag x).hbm = s.hbm := by
  unfold State.setStream
  split <;> simp
@[simp] theorem State.modStream_hbm (s : State) (ag : Agent) (f : Stream → Stream) : (s.modStream ag f).hbm = s.hbm := by simp [State.modStream]
@[simp] theorem State.msix_hbm (s : State) (fn vec : Nat) : (s.msix fn vec).hbm = s.hbm := by simp [State.msix]
@[simp] theorem State.event_hbm (s : State) (type cx : Nat) (id payload : Nat) (keep : optParam Bool false) :
    (s.event type cx id payload keep).hbm = s.hbm := by
  simp [State.event]
@[simp] theorem State.newId_hbm (s : State) : s.newId.2.hbm = s.hbm := by rfl
@[simp] theorem State.cxGoto_hbm (s : State) (cxn : Nat) (st : CxState) : (s.cxGoto cxn st).hbm = s.hbm := by simp [State.cxGoto]
@[simp] theorem State.addPend_hbm (s : State) (n lat : Nat) (ls : Bool) (t : PendTarget) : (s.addPend n lat ls t).hbm = s.hbm := by rfl
@[simp] theorem State.putS_hbm (s : State) (ag : Agent) (r : Nat) (v : W64) (t : Bool) (lat : Nat) : (s.putS ag r v t lat).hbm = s.hbm := by
  unfold State.putS
  split <;> simp
@[simp] theorem State.putA_hbm (s : State) (ag : Agent) (r : Nat) (v : W64) (t : Bool) (lat : Nat) : (s.putA ag r v t lat).hbm = s.hbm := by
  unfold State.putA
  split <;> simp
@[simp] theorem State.putP_hbm (s : State) (ag : Agent) (r : Nat) (v t : Bool) (lat : Nat) : (s.putP ag r v t lat).hbm = s.hbm := by
  unfold State.putP
  split <;> simp
@[simp] theorem State.putT_hbm (s : State) (ag : Agent) (r : Nat) (v : W64) (lat : Nat) : (s.putT ag r v lat).hbm = s.hbm := by
  unfold State.putT
  split <;> simp
@[simp] theorem State.finish_hbm (s : State) (ag : Agent) (len interval : Nat) : (s.finish ag len interval).hbm = s.hbm := by
  unfold State.finish
  split <;> simp
@[simp] theorem State.pauseCore_hbm (s : State) (n bit : Nat) : (s.pauseCore n bit).hbm = s.hbm := by
  unfold State.pauseCore
  split <;> simp
@[simp] theorem State.standCore_hbm (s : State) (n : Nat) : (s.standCore n).hbm = s.hbm := by
  unfold State.standCore
  split <;> simp
@[simp] theorem State.endQueue_hbm (s : State) (cxn q : Nat) (st : QState) (cause : Nat) : (s.endQueue cxn q st cause).hbm = s.hbm := by
  simp [State.endQueue]
@[simp] theorem State.parkQueue_hbm (s : State) (cxn q : Nat) : (s.parkQueue cxn q).hbm = s.hbm := by simp [State.parkQueue]
@[simp] theorem State.faultRecord_hbm (s : State) (cxn q : Nat) (r : FaultRec) : (s.faultRecord cxn q r).hbm = s.hbm := by simp [State.faultRecord]
@[simp] theorem State.trapJob_hbm (s : State) (n : Nat) (e : Engine) (cause faddr : Nat) : (s.trapJob n e cause faddr).hbm = s.hbm := by
  simp [State.trapJob]
@[simp] theorem State.parkJob_hbm (s : State) (n : Nat) (e : Engine) (cause faddr : Nat) : (s.parkJob n e cause faddr).hbm = s.hbm := by
  simp [State.parkJob]
@[simp] theorem State.trapThread_hbm (s : State) (cxn q cause : Nat) : (s.trapThread cxn q cause).hbm = s.hbm := by simp [State.trapThread]
@[simp] theorem State.take_hbm (s : State) (ag : Agent) (cause faddr : Nat) (rec : Option FaultRec) : (s.take ag cause faddr rec).hbm = s.hbm := by
  unfold State.take
  (repeat' split) <;> simp
@[simp] theorem State.enterHandler_hbm (s : State) (cxn q n : Nat) : (s.enterHandler cxn q n).hbm = s.hbm := by
  unfold State.enterHandler
  split <;> simp
@[simp] theorem State.resumeJob_hbm (s : State) (n : Nat) : (s.resumeJob n).hbm = s.hbm := by
  simp only [State.resumeJob]
  (repeat' split) <;> simp
@[simp] theorem State.leaveHandler_hbm (s : State) (cxn q : Nat) : (s.leaveHandler cxn q).hbm = s.hbm := by rfl

/-! `Machine/Llc`. -/

@[simp] theorem State.llcDrop_hbm (s : State) (p : LlcLine → Bool) : (s.llcDrop p).hbm = s.hbm := by rfl
@[simp] theorem State.llcTake_hbm (s : State) (line : Nat) (words : BitVec 16) (write : Bool) : (s.llcTake line words write).hbm = s.hbm := by
  simp [State.llcTake]
@[simp] theorem State.llcAccess_hbm (s : State) (a n : Nat) (write : Bool) : (s.llcAccess a n write).1.hbm = s.hbm := by
  simp [State.llcAccess]
@[simp] theorem State.llcWrite_hbm (s : State) (a n : Nat) : (s.llcWrite a n).hbm = s.hbm := by simp [State.llcWrite]

/-! `Machine/Translate`. -/

@[simp] theorem State.setPeerTaint_hbm (s : State) (part : Nat) (t : Bool) : (s.setPeerTaint part t).hbm = s.hbm := by rfl
@[simp] theorem State.setDirty_wf {s : State} (hs : s.hbm.wf) (cxn leaf : Nat) : (s.setDirty cxn leaf).hbm.wf := by
  simp +contextual [State.setDirty, hs]
@[simp] theorem State.touchPart_hbm (s : State) (part : Nat) (whole any_ : Bool) : (s.touchPart part whole any_).hbm = s.hbm := by rfl
@[simp] theorem State.physWrite_wf {s : State} (hs : s.hbm.wf) (cxn : Nat) (p : Phys) (bs : List (Byte × Bool)) : (s.physWrite cxn p bs).hbm.wf := by
  unfold State.physWrite
  split <;> simp +contextual [hs]
@[simp] theorem State.walk_hbm (s : State) (cxn gen : Nat) (vas : List Nat) : (s.walk cxn gen vas).1.hbm = s.hbm := by rfl
@[simp] theorem State.llcTouch_hbm (s : State) (p : Phys) (n : Nat) (write : Bool) : (s.llcTouch p n write).1.hbm = s.hbm := by
  unfold State.llcTouch
  split
  · split <;> simp
  · simp
  · rfl
@[simp] theorem State.llcServe_hbm (s : State) (l : List (Phys × Nat × Bool)) : (s.llcServe l).1.hbm = s.hbm := by
  simp [State.llcServe]
@[simp] theorem State.requests_wf {s0 : State} (hs0 : s0.hbm.wf) (ag : Agent) (gen : Nat) (vas : List Nat) (need : Need) (l :
    List (Nat × Dest)) (touch : List (Phys × Nat × Bool)) : (s0.requests ag gen vas need l touch).hbm.wf := by
  simp +contextual [State.requests, hs0]
@[simp] theorem State.request_wf {s : State} (hs : s.hbm.wf) (ag : Agent) (va : Nat) (p : Phys) (n : Nat) (write : Bool) (need : Need) :
    (s.request ag va p n write need).hbm.wf := by
  simp +contextual [State.request, hs]

/-! `Machine/Marks`. -/

@[simp] theorem State.undefine_wf {s : State} (hs : s.hbm.wf) (as : List Nat) : (s.undefine as).hbm.wf := by simp +contextual [State.undefine, hs]
@[simp] theorem State.noteMark_hbm (s : State) (ag : Agent) (x : Strong) (old wrote : Option Nat) : (s.noteMark ag x old wrote).hbm = s.hbm := by
  simp only [State.noteMark]
  (repeat' split) <;> simp
@[simp] theorem State.plainWrote_hbm (s : State) (cxn : Nat) (p : Phys) (n : Nat) : (s.plainWrote cxn p n).hbm = s.hbm := by
  unfold State.plainWrote
  split <;> simp
@[simp] theorem State.copyWrote_hbm (s : State) (n : Nat) (x : Copy) (p : Phys) (bs : List (Byte × Bool)) : (s.copyWrote n x p bs).hbm = s.hbm := by
  unfold State.copyWrote
  split <;> simp
@[simp] theorem State.outsideMark_hbm (s : State) (dpa n : Nat) (old wrote : Option Nat) : (s.outsideMark dpa n old wrote).hbm = s.hbm := by rfl
@[simp] theorem State.joinMarks_hbm (s : State) (cxn : Nat) (cores : List Nat) : (s.joinMarks cxn cores).hbm = s.hbm := by rfl

/-! `Machine/ErrorBanks`. -/

@[simp] theorem State.report_hbm (s : State) (bank : Nat) (r : ErrRec) : (s.report bank r).hbm = s.hbm := by simp [State.report]
@[simp] theorem State.poisonMet_hbm (s : State) (cxn gen : Nat) (cause va : Nat) (who : ErrRec) : (s.poisonMet cxn gen cause va who).hbm = s.hbm := by
  simp [State.poisonMet]
@[simp] theorem State.poisonRecord_hbm (s : State) (ag : Agent) (cause va : Nat) : (s.poisonRecord ag cause va).hbm = s.hbm := by
  simp [State.poisonRecord]
@[simp] theorem State.parkContext_hbm (s : State) (cxn dpa : Nat) : (s.parkContext cxn dpa).hbm = s.hbm := by
  simp only [State.parkContext, State.report_hbm]
  refine State.foldl_hbm fun t q => ?_
  split <;> simp

/-! `Machine/Trails`. -/

@[simp] theorem State.trailEvent_hbm (s : State) (cxn : Nat) : (s.trailEvent cxn).hbm = s.hbm := by simp [State.trailEvent]
@[simp] theorem State.writeRecord_wf {s : State} (hs : s.hbm.wf) (cxn q0 q1 : Nat) : (s.writeRecord cxn q0 q1).hbm.wf := by
  simp +contextual [State.writeRecord, hs]
@[simp] theorem State.trailStall_hbm (s : State) (cxn q0 q1 : Nat) : (s.trailStall cxn q0 q1).hbm = s.hbm := by simp [State.trailStall]
@[simp] theorem State.trailTurn_hbm (s : State) (cxn q0 q1 : Nat) (far : Bool) : (s.trailTurn cxn q0 q1 far).hbm = s.hbm := by rfl
@[simp] theorem State.advanceRidx_hbm (s : State) (cxn fuel : Nat) : (s.advanceRidx cxn fuel).hbm = s.hbm := by
  induction fuel generalizing s with
  | zero => rfl
  | succ fuel ih =>
    simp only [State.advanceRidx]
    split
    · rfl
    · split
      · exact ih _
      · rfl
@[simp] theorem State.replayMark_hbm (s : State) (cxn before : Nat) : (s.replayMark cxn before).hbm = s.hbm := by simp [State.replayMark]
@[simp] theorem State.diverge_hbm (s : State) (cxn idx : Nat) (expd act : Nat × Nat) (owner : Option Agent) :
    (s.diverge cxn idx expd act owner).hbm = s.hbm := by
  simp [State.diverge]
@[simp] theorem State.settleRidx_wf {s : State} (hs : s.hbm.wf) (cxn before : Nat) : (s.settleRidx cxn before).hbm.wf := by
  simp +contextual [State.settleRidx, hs]
@[simp] theorem State.matchRecord_wf {s : State} (hs : s.hbm.wf) (cxn k : Nat) : (s.matchRecord cxn k).hbm.wf := by
  simp +contextual [State.matchRecord, hs]
@[simp] theorem State.parkRecord_wf {s : State} (hs : s.hbm.wf) (cxn k : Nat) : (s.parkRecord cxn k).hbm.wf := by
  simp +contextual [State.parkRecord, hs]
/-- The state that an operation has at the trail, in whatever way the trail lets it go on. -/
@[simp] def Gate.state : Gate → State
  | .go s _ => s
  | .wait s => s
  | .diverged s => s
theorem State.gate_wf {s : State} (hs : s.hbm.wf) (cxn : Nat) (owner : Option Agent) (q0 q1 : Nat) : (s.gate cxn owner q0 q1).state.hbm.wf := by
  simp only [State.gate]
  (repeat' split) <;> simp [Gate.state, hs]
theorem State.of_gate_wf {s : State} {cxn : Nat} {owner : Option Agent} {q0 q1 : Nat} {g : Gate} (h : s.gate cxn owner q0 q1 = g) (hs : s.hbm.wf) :
    g.state.hbm.wf := h ▸ State.gate_wf hs cxn owner q0 q1

/-! `Machine/Operands`. -/

@[simp] theorem State.cause_hbm (s : State) (c faddr : Nat) : (s.cause c faddr).hbm = s.hbm := by simp [State.cause]
@[simp] theorem State.fin_hbm (s : State) (len interval : Nat) : (s.fin len interval).hbm = s.hbm := by simp [State.fin]
@[simp] theorem State.check_wf {s : State} (hs : s.hbm.wf) (l : List (Bool × Nat)) {k} (hk : ∀ y0, y0.hbm.wf → (k y0).hbm.wf) :
    (s.check l k).hbm.wf := by
  simp +contextual [State.check, hs, hk]
@[simp] theorem State.jobOnly_wf {s : State} (hs : s.hbm.wf) {k} (hk : ∀ y0 y1, (k y0 y1).hbm.wf) : (s.jobOnly k).hbm.wf := by
  unfold State.jobOnly
  split <;> simp +contextual [hs, hk]
@[simp] theorem State.queueOnly_wf {s : State} (hs : s.hbm.wf) {k} (hk : ∀ y0 y1, (k y0 y1).hbm.wf) : (s.queueOnly k).hbm.wf := by
  unfold State.queueOnly
  split <;> simp +contextual [hs, hk]
@[simp] theorem State.engineOnly_wf {s : State} (hs : s.hbm.wf) {k} (hk : ∀ y0 y1, (k y0 y1).hbm.wf) : (s.engineOnly k).hbm.wf := by
  unfold State.engineOnly
  split <;> simp +contextual [hs, hk]
@[simp] theorem State.notInSlot_wf {s : State} (hs : s.hbm.wf) {k} (hk : ∀ y0, y0.hbm.wf → (k y0).hbm.wf) : (s.notInSlot k).hbm.wf := by
  simp +contextual [State.notInSlot, hs, hk]
@[simp] theorem State.guarded_wf {s : State} (hs : s.hbm.wf) (g : Guard) (len : Nat) {k} (hk : ∀ y0, y0.hbm.wf → (k y0).hbm.wf) :
    (s.guarded g len k).hbm.wf := by
  unfold State.guarded
  (repeat' split) <;> simp +contextual [hs, hk]
@[simp] theorem State.scalar_hbm (s : State) (d : F6) (v : W64) (t : Bool) (lat : Nat) : (s.scalar d v t lat).hbm = s.hbm := by simp [State.scalar]
@[simp] theorem State.awaitLink_hbm (s : State) (ag : Agent) (va n : Nat) : (s.awaitLink ag va n).hbm = s.hbm := by
  unfold State.awaitLink
  split <;> simp
@[simp] theorem State.access_wf {s : State} (hs : s.hbm.wf) (ag : Agent) (va n : Nat) (k : Access) {go} (hgo :
    ∀ y0 y1, y0.hbm.wf → (go y0 y1).hbm.wf) : (s.access ag va n k go).hbm.wf := by
  unfold State.access
  (repeat' split) <;> simp +contextual [hs, hgo]
@[simp] theorem State.markTnt_hbm (s : State) (ag : Agent) (det t : Bool) : (s.markTnt ag det t).hbm = s.hbm := by
  unfold State.markTnt
  (repeat' split) <;> simp
@[simp] theorem State.issueStrong_wf {s : State} (hs : s.hbm.wf) (ag : Agent) (x : Strong) (pair : Bool) : (s.issueStrong ag x pair).hbm.wf := by
  unfold State.issueStrong
  split <;> simp +contextual [hs]
@[simp] theorem State.storePiece_wf {s : State} (hs : s.hbm.wf) (n : Nat) (e : Engine) (va : Nat) (p : Phys) (det : Bool) (bs : List (Byte × Bool)) :
    (s.storePiece n e va p det bs).hbm.wf := by
  simp +contextual [State.storePiece, hs]
@[simp] theorem State.storePieces_wf {s : State} (hs : s.hbm.wf) (n : Nat) (e : Engine) (bs : List (Byte × Bool)) (l :
    List (Nat × Nat × Phys × Bool)) :
    (s.storePieces n e bs l).hbm.wf := by
  induction l generalizing s bs with
  | nil => exact hs
  | cons x l ih => exact ih (State.storePiece_wf hs ..) _
@[simp] theorem State.snapTake_hbm (s : State) (n va : Nat) (p : Phys) : (s.snapTake n va p).hbm = s.hbm := by simp [State.snapTake]
@[simp] theorem State.readParts_hbm (s : State) (n : Nat) (l : List (Nat × Nat × Phys × Bool)) : (s.readParts n l).1.hbm = s.hbm := by
  induction l generalizing s with
  | nil => rfl
  | cons x l ih => exact (ih _).trans (State.snapTake_hbm ..)
@[simp] theorem State.loadRange_wf {s : State} (hs : s.hbm.wf) (n va : Nat) (ps : List (Nat × Nat × Phys × Bool)) :
    (s.loadRange n va ps).1.hbm.wf := by
  simp only [State.loadRange]
  (repeat' split) <;> simp +contextual [hs]

/-! `Machine/Fetch`. -/

@[simp] theorem State.capture_hbm (s : State) (ag : Agent) (len : Nat) : (s.capture ag len).hbm = s.hbm := by simp [State.capture]

/-! `Machine/Flags`. -/

@[simp] theorem State.putFlags_hbm (s : State) (n fl lat : Nat) : (s.putFlags n fl lat).hbm = s.hbm := by simp [State.putFlags]

/-! `Machine/CopyOps`. -/

@[simp] theorem State.startTiers_hbm (s : State) (cxn : Nat) (l : List (Nat × Nat × W64 × Nat × Nat)) : (s.startTiers cxn l).hbm = s.hbm := by rfl
@[simp] theorem State.askCopy_wf {s : State} (hs : s.hbm.wf) (n gen : Nat) (need : Need) (srcs dsts : List Move) :
    (s.askCopy n gen need srcs dsts).hbm.wf := by
  simp +contextual [State.askCopy, hs]
@[simp] theorem State.disownLines_hbm (s : State) (n tag : Nat) : (s.disownLines n tag).hbm = s.hbm := by rfl
@[simp] theorem State.startCopy_wf {s : State} (hs : s.hbm.wf) (n : Nat) (x : Copy) : (s.startCopy n x).hbm.wf := by
  simp +contextual [State.startCopy, hs]
@[simp] theorem State.fillReserve_wf {s : State} (hs : s.hbm.wf) (n tag : Nat) : (s.fillReserve n tag).hbm.wf := by
  simp only [State.fillReserve]
  (repeat' split) <;> simp +contextual [hs]
@[simp] theorem State.drainTake_wf {s : State} (hs : s.hbm.wf) (n tag : Nat) : (s.drainTake n tag).hbm.wf := by
  simp only [State.drainTake]
  (repeat' split) <;> simp +contextual [hs]
@[simp] theorem State.issueCopy_wf {s : State} (hs : s.hbm.wf) (early : List (Bool × Nat)) (late : List (Bool × Nat)) (foot : Foot) {go} (hgo :
    ∀ y0, y0.hbm.wf → (go y0).hbm.wf) : (s.issueCopy early late foot go).hbm.wf := by
  unfold State.issueCopy
  (repeat' split) <;> simp +contextual [hs, hgo]
@[simp] theorem State.affine_wf {s : State} (hs : s.hbm.wf) (n kind : Nat) (d a b : F6) (tag : BitVec 6) (ndm1 es f due : Nat) :
    (s.affine n kind d a b tag ndm1 es f due).hbm.wf := by
  simp only [State.affine]
  split
  · exact State.issueCopy_wf hs _ _ _ fun _ ht => ht
  · refine State.issueCopy_wf hs _ _ _ fun t ht => ?_
    rw [State.fin_hbm]
    (repeat' split) <;> simp [ht]
@[simp] theorem State.indexed_wf {s : State} (hs : s.hbm.wf) (n : Nat) (gath : Bool) (d a b : F6) : (s.indexed n gath d a b).hbm.wf := by
  simp only [State.indexed]
  (repeat' split) <;> simp +contextual [hs]
@[simp] theorem State.coll_wf {s : State} (hs : s.hbm.wf) (n cop : Nat) (d a b : F6) (tag : BitVec 6) (ty rop duex : Nat) :
    (s.coll n cop d a b tag ty rop duex).hbm.wf := by
  simp only [State.coll]
  (repeat' split) <;> simp +contextual [hs]
@[simp] theorem State.fetchCopy_wf {s : State} (hs : s.hbm.wf) (n : Nat) (try_ : Bool) (d a b : F6) (tag : BitVec 6) (due : Nat) :
    (s.fetchCopy n try_ d a b tag due).hbm.wf := by
  simp +contextual [State.fetchCopy, hs]
@[simp] theorem State.poisonParts_hbm (s : State) (p : Phys) (len : Nat) : (s.poisonParts p len).hbm = s.hbm := by
  unfold State.poisonParts
  split <;> simp
@[simp] theorem State.coveredPart_hbm (s : State) (n kind part : Nat) (z : Cover) : (s.coveredPart n kind part z).hbm = s.hbm := by
  unfold State.coveredPart
  split <;> simp
@[simp] theorem State.coverPart_hbm (s : State) (n : Nat) (x : Copy) (kind part : Nat) (mask : BitVec 16) (t p : Bool) :
    (s.coverPart n x kind part mask t p).1.hbm = s.hbm := by
  simp only [State.coverPart]
  (repeat' split) <;> simp
@[simp] theorem State.coverElt_hbm (s : State) (n : Nat) (x : Copy) (dst : Loc) (bs : List (Byte × Bool)) (poison : Bool) :
    (s.coverElt n x dst bs poison).1.hbm = s.hbm := by
  unfold State.coverElt
  split <;> simp
@[simp] theorem State.moveOne_wf {s : State} (hs : s.hbm.wf) (n : Nat) (x : Copy) (m : Move) : (s.moveOne n x m).1.hbm.wf := by
  simp only [State.moveOne]
  (repeat' split) <;> simp +contextual [hs]
@[simp] theorem State.moveAll_wf {s : State} (hs : s.hbm.wf) (n : Nat) (x : Copy) (l : List Move) : (s.moveAll n x l).1.hbm.wf := by
  induction l generalizing s x with
  | nil => exact hs
  | cons m l ih =>
    simp only [State.moveAll]
    split
    · exact ih hs _
    · exact ih (State.moveOne_wf hs ..) _
@[simp] theorem State.exchange_wf {s : State} (hs : s.hbm.wf) (x : Copy) : (s.exchange x).hbm.wf := by simp +contextual [State.exchange, hs]
@[simp] theorem State.copyMoves_wf {s : State} (hs : s.hbm.wf) (n tag k : Nat) : (s.copyMoves n tag k).hbm.wf := by
  simp only [State.copyMoves]
  (repeat' split) <;> simp +contextual [hs]
@[simp] theorem State.fillLand_wf {s : State} (hs : s.hbm.wf) (n tag : Nat) : (s.fillLand n tag).hbm.wf := by
  unfold State.fillLand
  (repeat' split) <;> simp +contextual [hs]
@[simp] theorem State.drainRelease_wf {s : State} (hs : s.hbm.wf) (n tag : Nat) : (s.drainRelease n tag).hbm.wf := by
  simp only [State.drainRelease]
  (repeat' split) <;> simp +contextual [hs]
@[simp] theorem State.endCopy_hbm (s : State) (n : Nat) (x : Copy) (fb abs : Bool) : (s.endCopy n x fb abs).hbm = s.hbm := by rfl
@[simp] theorem State.endTry_wf {s : State} (hs : s.hbm.wf) (n : Nat) (x : Copy) (fb abs : Bool) : (s.endTry n x fb abs).hbm.wf := by
  simp only [State.endTry]
  split
  next s1 _ h =>
    have h1 : s1.hbm.wf := State.of_gate_wf h hs
    rw [State.endCopy_hbm]
    split
    · refine State.foldl_wf (by simpa using h1) fun t m ht => ?_
      split <;> simp [ht]
    · exact h1
  next h => exact State.of_gate_wf h hs
  next h => exact State.of_gate_wf h hs
@[simp] theorem State.completeCopy_wf {s : State} (hs : s.hbm.wf) (n tag : Nat) : (s.completeCopy n tag).hbm.wf := by
  unfold State.completeCopy
  split <;> simp +contextual [hs]
@[simp] theorem State.tryFallback_wf {s : State} (hs : s.hbm.wf) (n tag : Nat) : (s.tryFallback n tag).hbm.wf := by
  simp only [State.tryFallback]
  (repeat' split) <;> simp +contextual [hs]
@[simp] theorem State.noteTry_wf {s : State} (hs : s.hbm.wf) (n w : Nat) (x : Copy) : (s.noteTry n w x).hbm.wf := by
  simp only [State.noteTry]
  split
  · split
    · simp [hs]
    · split
      next h => exact State.of_gate_wf h hs
      next => exact hs
  · exact hs

/-! `Machine/MemScalar`. -/

@[simp] theorem State.dropMix_hbm (s : State) (part : Nat) : (s.dropMix part).hbm = s.hbm := by simp [State.dropMix]
@[simp] theorem State.strong_wf {s : State} (hs : s.hbm.wf) (va n : Nat) (k : Access) (host tainted : Bool) {go : State → Nat → Phys → Bool → State}
    (hgo : ∀ t a p det, t.hbm.wf → (go t a p det).hbm.wf) : (s.strong va n k host tainted go).hbm.wf := by
  refine State.access_wf hs _ _ _ _ fun t ps ht => ?_
  split
  · exact ht
  · simp [ht, hgo]
@[simp] theorem State.landLoad_hbm (s : State) (n : Nat) (e : Engine) (l : Loaded) (t : PendTarget) : (s.landLoad n e l t).hbm = s.hbm := by rfl
@[simp] theorem State.load_wf {s : State} (hs : s.hbm.wf) (sgn : Bool) (r : F6) (a : BitVec 4) (z : BitVec 2) (o : BitVec 12) :
    (s.load sgn r a z o).hbm.wf := by
  unfold State.load
  split <;> simp +contextual [hs]
@[simp] theorem State.plainStore_wf {s : State} (hs : s.hbm.wf) (n : Nat) (e : Engine) (va align : Nat) (bs : List (Byte × Bool)) {go : State → State}
    (hgo : ∀ t, t.hbm.wf → (go t).hbm.wf) : (s.plainStore n e va align bs go).hbm.wf :=
  State.access_wf hs _ _ _ _ fun t ps ht => by simp [ht, hgo]
@[simp] theorem State.loadSp_wf {s : State} (hs : s.hbm.wf) (sgn : Bool) (r : F6) (a : BitVec 4) (z : BitVec 2) (o : BitVec 12) :
    (s.loadSp sgn r a z o).hbm.wf := by
  refine State.check_wf hs _ fun t ht => ?_
  dsimp only
  split
  · split <;> simp [ht]
  · simp [ht]

/-! `Machine/Atomics`. -/

@[simp] theorem State.atomic_wf {s : State} (hs : s.hbm.wf) (op : StrongOp) (opc n : Nat) (k : Access) (host : Bool) (a : F6) (dst :
    Option Nat) (x cmp : BitVec 128) (xT pair : Bool) : (s.atomic op opc n k host a dst x cmp xT pair).hbm.wf := by
  simp +contextual [State.atomic, hs]
@[simp] theorem State.contribute_hbm (s : State) (cxn h : Nat) (x : Strong) : (s.contribute cxn h x).hbm = s.hbm := by
  unfold State.contribute
  split <;> simp
@[simp] theorem State.tagMix_hbm (s : State) (ag : Agent) (x : Strong) : (s.tagMix ag x).hbm = s.hbm := by
  unfold State.tagMix
  split <;> simp
@[simp] theorem State.outsideDone_hbm (s : State) (dpa n : Nat) (old wrote : Option Nat) : (s.outsideDone dpa n old wrote).hbm = s.hbm := by
  simp [State.outsideDone]
@[simp] theorem State.taintEvent_wf {s : State} (hs : s.hbm.wf) (dpa : Nat) (h : Nat × Nat × Nat) : (s.taintEvent dpa h).hbm.wf := by
  simp +contextual [State.taintEvent, hs]
@[simp] theorem State.lineAdded_wf {s : State} (hs : s.hbm.wf) (dpa : Nat) : (s.lineAdded dpa).hbm.wf := by simp +contextual [State.lineAdded, hs]
@[simp] theorem State.lineEvents_wf {s : State} (hs : s.hbm.wf) (ag : Agent) (x : Strong) : (s.lineEvents ag x).hbm.wf := by
  unfold State.lineEvents
  (repeat' split) <;> simp +contextual [hs]
@[simp] theorem State.answer_hbm (s : State) (ag : Agent) (x : Strong) (v : Nat) (t : Bool) (poison : Nat) :
    (s.answer ag x v t poison).hbm = s.hbm := by
  simp only [State.answer]
  split
  · simp
  · split
    · simp
    · refine (State.foldl_hbm fun z p => ?_).trans (State.modQueue_hbm ..)
      split <;> simp
@[simp] theorem State.mixStop_hbm (s : State) (ag : Agent) (x : Strong) : (s.mixStop ag x).hbm = s.hbm := by
  unfold State.mixStop
  split <;> simp
@[simp] theorem State.performStrong_wf {s : State} (hs : s.hbm.wf) (ag : Agent) (x : Strong) : (s.performStrong ag x).hbm.wf := by
  have h0 := State.undefine_wf hs (s.mixOpen ag x)
  simp only [State.performStrong, State.answer_hbm]
  refine State.lineEvents_wf ?_ ..
  split <;> simp [h0]
@[simp] theorem State.atomicStep_wf {s : State} (hs : s.hbm.wf) (ag : Agent) : (s.atomicStep ag).hbm.wf := by
  simp only [State.atomicStep]
  split
  · exact hs
  · split
    · exact hs
    · split
      · simp [hs]
      · split
        · simp [hs]
        · split
          next h => exact State.performStrong_wf (State.of_gate_wf h hs) ..
          next h => exact State.of_gate_wf h hs
          next h => exact State.of_gate_wf h hs
@[simp] theorem State.ackContribution_wf {s : State} (hs : s.hbm.wf) (ag : Agent) : (s.ackContribution ag).hbm.wf := by
  unfold State.ackContribution
  (repeat' split) <;> simp +contextual [hs]
@[simp] theorem State.closeSlot_wf {s : State} (hs : s.hbm.wf) (cxn : Nat) (z : Slot) : (s.closeSlot cxn z).hbm.wf := by
  simp +contextual [State.closeSlot, hs]
@[simp] theorem State.closeSlots_wf {s : State} (hs : s.hbm.wf) (cxn h : Nat) : (s.closeSlots cxn h).hbm.wf := by
  unfold State.closeSlots
  split <;> simp +contextual [hs]

/-! `Machine/Cancel`. -/

@[simp] theorem State.withdraw_hbm (s : State) (n : Nat) : (s.withdraw n).hbm = s.hbm := by
  simp only [State.withdraw]
  (repeat' split) <;> simp
@[simp] theorem State.dropContribs_hbm (s : State) (n : Nat) : (s.dropContribs n).hbm = s.hbm := by
  unfold State.dropContribs
  split <;> simp
@[simp] theorem State.awaitContribs_hbm (s : State) (n : Nat) : (s.awaitContribs n).hbm = s.hbm := by
  unfold State.awaitContribs
  split <;> simp
@[simp] theorem State.cancelPhase_hbm (s : State) (n : Nat) : (s.cancelPhase n).hbm = s.hbm := by simp [State.cancelPhase]
@[simp] theorem State.scribble_wf {s : State} (hs : s.hbm.wf) (n : Nat) (m : Move) : (s.scribble n m).hbm.wf := by
  unfold State.scribble
  split <;> simp +contextual [hs]
@[simp] theorem State.abandonCopy_wf {s : State} (hs : s.hbm.wf) (n : Nat) (x : Copy) : (s.abandonCopy n x).hbm.wf := by
  simp only [State.abandonCopy, State.modCore_hbm]
  exact State.foldl_wf hs fun _ _ ht => by simp [ht]
@[simp] theorem State.abandonCopies_wf {s : State} (hs : s.hbm.wf) (n : Nat) : (s.abandonCopies n).hbm.wf := by
  simp +contextual [State.abandonCopies, hs]
@[simp] theorem State.cancelNow_hbm (s : State) (n : Nat) (e : Engine) (cause faddr : Nat) : (s.cancelNow n e cause faddr).hbm = s.hbm := by
  simp [State.cancelNow]
@[simp] theorem State.cancelTrap_wf {s : State} (hs : s.hbm.wf) (n : Nat) (e : Engine) (cause faddr clk : Nat) :
    (s.cancelTrap n e cause faddr clk).hbm.wf := by
  simp +contextual [State.cancelTrap, hs]
@[simp] theorem State.raise_wf {s : State} (hs : s.hbm.wf) (n : Nat) (e : Engine) (cause faddr : Nat) : (s.raise n e cause faddr).hbm.wf := by
  simp +contextual [State.raise, hs]
@[simp] theorem State.fetchFault_wf {s : State} (hs : s.hbm.wf) (ag : Agent) (c a : Nat) (r : Option FaultRec) : (s.fetchFault ag c a r).hbm.wf := by
  unfold State.fetchFault
  split <;> simp +contextual [hs]
@[simp] theorem State.raiseLanding_wf {s : State} (hs : s.hbm.wf) (n : Nat) (e : Engine) (cause faddr : Nat) :
    (s.raiseLanding n e cause faddr).hbm.wf := by
  simp +contextual [State.raiseLanding, hs]
@[simp] theorem State.restartJob_hbm (s : State) (n : Nat) : (s.restartJob n).hbm = s.hbm := by
  simp only [State.restartJob]
  (repeat' split) <;> simp
@[simp] theorem State.lateCause_wf {s : State} (hs : s.hbm.wf) (n tag : Nat) : (s.lateCause n tag).hbm.wf := by
  unfold State.lateCause
  (repeat' split) <;> simp +contextual [hs]
@[simp] theorem State.refetchOne_wf {s : State} (hs : s.hbm.wf) (n : Nat) (x : Copy) : (s.refetchOne n x).1.hbm.wf := by
  simp only [State.refetchOne]
  (repeat' split) <;> simp +contextual [hs]
@[simp] theorem State.refetchAll_wf {s : State} (hs : s.hbm.wf) (n : Nat) (l : List Copy) : (s.refetchAll n l).1.hbm.wf := by
  induction l generalizing s with
  | nil => exact hs
  | cons x xs ih =>
    have h1 := State.refetchOne_wf hs n x
    simp only [State.refetchAll]
    generalize s.refetchOne n x = r at h1 ⊢
    obtain ⟨s1, b⟩ := r
    cases b with
    | none => exact ih h1
    | some b => exact h1

/-! `Machine/VecOperands`. -/

@[simp] theorem State.putV_hbm (s : State) (n : Nat) (f : F6) (nb : Nat) (r : VVal) (lat : Nat) (ls : optParam Bool false) :
    (s.putV n f nb r lat ls).hbm = s.hbm := by
  simp [State.putV]
@[simp] theorem State.putVp_hbm (s : State) (n i : Nat) (bs : List (Bool × Bool)) : (s.putVp n i bs).hbm = s.hbm := by rfl

/-! `Machine/Issue`. -/

@[simp] theorem State.payloadFault_wf {s : State} (hs : s.hbm.wf) (ag : Agent) (g : Guard) (why : Fetched) : (s.payloadFault ag g why).hbm.wf := by
  unfold State.payloadFault
  split <;> simp +contextual [hs]

/-! `Machine/Status`. -/

@[simp] theorem State.awaitTags_wf {s : State} (hs : s.hbm.wf) (n : Nat) (mask : W64) : (s.awaitTags n mask).hbm.wf := by
  simp +contextual [State.awaitTags, hs]
@[simp] theorem State.observe_wf {s : State} (hs : s.hbm.wf) (n : Nat) (e : Engine) (sub : Nat) (mask : W64) {k : State → W64 → Bool → State}
    (hk : ∀ t v b, t.hbm.wf → (k t v b).hbm.wf) : (s.observe n e sub mask k).hbm.wf := by
  unfold State.observe
  split
  · exact hk _ _ _ hs
  · extract_lets r s1 now v
    clear_value r
    have h1 : s1.hbm.wf := by
      unfold s1
      split <;> simp [hs]
    clear_value s1
    split
    · simp [h1]
    · split
      next h => exact hk _ _ _ (State.of_gate_wf h h1)
      next h =>
        rw [State.pauseCore_hbm, State.standCore_hbm]
        exact State.of_gate_wf h h1
      next h =>
        rw [State.standCore_hbm]
        exact State.of_gate_wf h h1
@[simp] theorem State.writeRssp_hbm (s : State) (v : W64) : (s.writeRssp v).hbm = s.hbm := by simp [State.writeRssp]

/-! `Machine/Instances`. -/

@[simp] theorem State.genNotices_hbm (s : State) (cxn : Nat) (before : List Nat) : (s.genNotices cxn before).hbm = s.hbm := by simp [State.genNotices]
@[simp] theorem State.wake_hbm (s : State) (cxn : Nat) : (s.wake cxn).hbm = s.hbm := by
  refine State.foldl_hbm fun t q => ?_
  dsimp only
  split <;> simp
@[simp] theorem State.flushAgent_wf (ag : Agent) (k : Nat) {s : State} (hs : s.hbm.wf) : (State.flushAgent ag k s).hbm.wf := by
  induction k generalizing s with
  | zero => exact hs
  | succ k ih =>
    simp only [State.flushAgent]
    split
    · exact hs
    · exact ih (by simp [hs])
@[simp] theorem State.flushStrong_wf {s : State} (hs : s.hbm.wf) (n : Nat) : (s.flushStrong n).hbm.wf := by simp +contextual [State.flushStrong, hs]
@[simp] theorem State.haltJob_wf {s : State} (hs : s.hbm.wf) (n : Nat) : (s.haltJob n).hbm.wf := by simp +contextual [State.haltJob, hs]
@[simp] theorem State.faultInst_wf {s : State} (hs : s.hbm.wf) (cxn h cause : Nat) : (s.faultInst cxn h cause).hbm.wf := by
  simp only [State.faultInst]
  split
  · exact hs
  next i _ =>
    have h1 : (i.cores.foldl (fun t n => t.haltJob n) s).hbm.wf := by simp +contextual [hs]
    have h2 := State.closeSlots_wf h1 cxn h
    split
    · exact hs
    · rw [State.genNotices_hbm, State.wake_hbm]
      refine State.foldl_wf ?_ fun t q ht => ?_
      · simp [h2]
      · split <;> simp [ht]

/-! `Machine/Queues`. -/

@[simp] theorem State.qPut_hbm (s : State) (d : F6) (v : W64) (t : Bool) : (s.qPut d v t).hbm = s.hbm := by simp [State.qPut]
@[simp] theorem State.deviceRead_wf {s : State} (hs : s.hbm.wf) (va n : Nat) {go : State → List Byte → State}
    (hgo : ∀ t bs, t.hbm.wf → (go t bs).hbm.wf) : (s.deviceRead va n go).hbm.wf := by
  refine State.access_wf hs _ _ _ _ fun t ps ht => ?_
  split
  · simp [ht]
  · exact hgo _ _ ht
@[simp] theorem State.createInst_hbm (s : State) (cxn q : Nat) (r : LaunchRec) (ser : Bool) (list : List Nat) :
    (s.createInst cxn q r ser list).2.hbm = s.hbm := by rfl
theorem State.depListWith_wf {s : State} (hs : s.hbm.wf) {read : State → Nat → Nat → (State → List Byte → State) → State}
    (hread : ∀ t a n k, t.hbm.wf → (∀ u bs, u.hbm.wf → (k u bs).hbm.wf) → (read t a n k).hbm.wf) (code : Nat) {go : State → List Nat → State}
    (hgo : ∀ t l, t.hbm.wf → (go t l).hbm.wf) : (s.depListWith read code go).hbm.wf := by
  unfold State.depListWith
  split
  · exact hgo _ _ hs
  · refine hread _ _ _ _ hs fun t hd ht => ?_
    split
    · exact hread _ _ _ _ ht fun u bs hu => hgo _ _ hu
    · exact hgo _ _ ht
@[simp] theorem State.withDepList_wf {s : State} (hs : s.hbm.wf) (code : Nat) {go : State → List Nat → State}
    (hgo : ∀ t l, t.hbm.wf → (go t l).hbm.wf) : (s.withDepList code go).hbm.wf :=
  State.depListWith_wf hs (fun _ _ _ _ ht hk => State.deviceRead_wf ht _ _ hk) code hgo
@[simp] theorem State.launchSkew_wf {s : State} (hs : s.hbm.wf) (cxn va : Nat) : (s.launchSkew cxn va).hbm.wf := by
  refine State.access_wf hs _ _ _ _ fun t ps ht => State.check_wf ht _ fun u hu => ?_
  exact State.depListWith_wf hu (fun _ _ _ _ hv hk => State.access_wf hv _ _ _ _ fun _ _ hw => hk _ _ hw) _ fun v l hv => by simp [hv]
@[simp] theorem State.resumeAt_hbm (s : State) (n : Nat) (e : Engine) (a : W64) : (s.resumeAt n e a).hbm = s.hbm := by
  simp only [State.resumeAt]
  (repeat' split) <;> simp
@[simp] theorem State.setJobReg_hbm (s : State) (n m r : Nat) (v : W64) : (s.setJobReg n m r v).hbm = s.hbm := by simp [State.setJobReg]

/-! `Machine/Kernel`. -/

@[simp] theorem State.holdCores_wf {s : State} (hs : s.hbm.wf) (cxn h : Nat) (gs : List Group) : (s.holdCores cxn h gs).hbm.wf := by
  simp +contextual [State.holdCores, hs]
@[simp] theorem State.admissionFault_hbm (s : State) (cxn : Nat) (i : Inst) (r : FaultRec) : (s.admissionFault cxn i r).hbm = s.hbm := by
  simp [State.admissionFault]
@[simp] theorem State.readObject_wf {s : State} (hs : s.hbm.wf) (cxn h : Nat) : (s.readObject cxn h).hbm.wf := by
  simp only [State.readObject]
  (repeat' split) <;> simp +contextual [hs]
@[simp] theorem State.admitNext_wf {s : State} (hs : s.hbm.wf) (cxn : Nat) : (s.admitNext cxn).hbm.wf := by
  simp only [State.admitNext]
  split
  · exact hs
  · split
    next h => exact State.of_gate_wf h hs
    next h => exact State.of_gate_wf h hs
    next s1 _ h =>
      have h1 : s1.hbm.wf := State.of_gate_wf h hs
      simp [h1]
@[simp] theorem State.loadsDone_wf {s : State} (hs : s.hbm.wf) (cxn h : Nat) : (s.loadsDone cxn h).hbm.wf := by
  unfold State.loadsDone
  split <;> simp +contextual [hs]
@[simp] theorem State.settleInst_hbm (s : State) (cxn h g : Nat) : (s.settleInst cxn h g).hbm = s.hbm := by rfl
@[simp] theorem State.placeIter_wf {s : State} (hs : s.hbm.wf) (cxn h g o : Nat) : (s.placeIter cxn h g o).hbm.wf := by
  simp only [State.placeIter]
  split
  · split
    · exact hs
    · split
      · simp [hs]
      · split
        · simp [hs]
        · split
          next hg => simpa using State.of_gate_wf hg hs
          next hg => exact State.of_gate_wf hg hs
          next hg => exact State.of_gate_wf hg hs
  · exact hs
@[simp] theorem State.startJob_hbm (s : State) (n : Nat) : (s.startJob n).hbm = s.hbm := by
  simp only [State.startJob]
  (repeat' split) <;> simp
@[simp] theorem State.reloadCoef_wf {s : State} (hs : s.hbm.wf) (n : Nat) : (s.reloadCoef n).1.hbm.wf := by
  simp only [State.reloadCoef]
  (repeat' split) <;> simp +contextual [hs]
@[simp] theorem State.deliver_hbm (s : State) (n : Nat) (e : Engine) (f : Option (Nat × Nat × Option FaultRec)) : (s.deliver n e f).hbm = s.hbm := by
  unfold State.deliver
  split <;> simp
@[simp] theorem State.beginJob_wf {s : State} (hs : s.hbm.wf) (n : Nat) : (s.beginJob n).hbm.wf := by simp +contextual [State.beginJob, hs]
@[simp] theorem State.refetchJob_wf {s : State} (hs : s.hbm.wf) (n : Nat) : (s.refetchJob n).hbm.wf := by simp +contextual [State.refetchJob, hs]
@[simp] theorem State.lateMismatch_wf {s : State} (hs : s.hbm.wf) (n : Nat) : (s.lateMismatch n).hbm.wf := by
  unfold State.lateMismatch
  split <;> simp +contextual [hs]
@[simp] theorem State.eret_wf {s : State} (hs : s.hbm.wf) (target : Option W64) : (s.eret target).hbm.wf := by
  refine State.queueOnly_wf hs fun cxn q => State.notInSlot_wf hs fun t ht => ?_
  extract_lets k
  split
  · split
    · simp [ht]
    · extract_lets s1 s2 r1 s3
      have h1 : s1.hbm.wf := by
        unfold s1
        split <;> simp [ht]
      have h2 : s2.hbm.wf := by simp [s2, h1]
      have h3 : r1.1.hbm.wf := by
        unfold r1
        split <;> simp [h2]
      split <;> simp [s3, h3]
  · simp [ht]

/-! `Machine/Sync`. -/

@[simp] theorem State.fin1_hbm (s : State) : s.fin1.hbm = s.hbm := by simp [State.fin1]
@[simp] theorem State.resolve_hbm (s : State) (n : Nat) (e : Engine) (mask : BitVec 16) (res val : Bool) (delay : Nat) :
    (s.resolve n e mask res val delay).hbm = s.hbm := by rfl
@[simp] theorem State.putChan_hbm (s : State) (n : Nat) (c : BitVec 4) (x : Chan) : (s.putChan n c x).hbm = s.hbm := by simp [State.putChan]
@[simp] theorem State.serveWait_wf {s : State} (hs : s.hbm.wf) (n : Nat) (e : Engine) (k m : Nat) : (s.serveWait n e k m).hbm.wf := by
  simp only [State.serveWait]
  split
  · split
    next h => simpa using State.of_gate_wf h hs
    next h => simpa using State.of_gate_wf h hs
    next h => simpa using State.of_gate_wf h hs
  · simpa using hs
@[simp] theorem State.serveHeld_wf {s : State} (hs : s.hbm.wf) (n k : Nat) : (s.serveHeld n k).hbm.wf := by
  refine State.foldl_wf hs fun t e ht => ?_
  split
  · (repeat' split) <;> simp [ht]
  · exact ht
@[simp] theorem State.waitTags_hbm (s : State) (n : Nat) (mask : W64) : (s.waitTags n mask).hbm = s.hbm := by simp [State.waitTags]
@[simp] theorem State.fence_hbm (s : State) (l e : BitVec 4) : (s.fence l e).hbm = s.hbm := by
  unfold State.fence
  (repeat' split) <;> simp
@[simp] theorem State.arriveBar_hbm (s : State) (n : Nat) (kernel : Bool) (seq : Nat) : (s.arriveBar n kernel seq).hbm = s.hbm := by
  simp [State.arriveBar]
@[simp] theorem State.barrier_wf {s : State} (hs : s.hbm.wf) (g : Guard) (kernel : Bool) : (s.barrier g kernel).hbm.wf := by
  unfold State.barrier
  split <;> simp +contextual [hs]

/-! `Machine/Landing`. -/

@[simp] theorem State.land_wf {s : State} (hs : s.hbm.wf) (n sq : Nat) : (s.land n sq).hbm.wf := by
  simp only [State.land]
  (repeat' split) <;> simp +contextual [hs]
@[simp] theorem State.rendezvous_hbm (s : State) (n : Nat) : (s.rendezvous n).hbm = s.hbm := by
  unfold State.rendezvous
  (repeat' split) <;> simp

/-! `Machine/Matrix`. -/

/-- An M command's attempt to issue leaves memory as it was. -/
def MTry.Keeps (m : Mem) : MTry → Prop
  | .cause _ => True
  | .hold s => s.hbm = m
  | .done s _ => s.hbm = m
@[simp] theorem State.mWord_hbm (s : State) (len : Nat) {t : MTry} (ht : t.Keeps s.hbm) : (s.mWord len t).hbm = s.hbm := by
  cases t with
  | cause c => simp [State.mWord]
  | hold u => exact ht
  | done u i => exact (State.fin_hbm ..).trans ht
@[simp] theorem State.modM_hbm (s : State) (n : Nat) (f : MEng → MEng) : (s.modM n f).hbm = s.hbm := by rfl
theorem mCheck_keeps {m : Mem} {k : MTry} (l : List (Bool × Nat)) (hk : k.Keeps m) : (mCheck l k).Keeps m := by
  unfold mCheck
  split
  · exact hk
  · trivial
theorem State.preload_keeps (s : State) (n : Nat) (a : F6) (put : MEng → BitVec 32 → MEng) : (s.preload n a put).Keeps s.hbm := by
  refine mCheck_keeps _ ?_
  split
  · rfl
  · exact State.modM_hbm ..
@[simp] theorem State.tryMlda_keeps (s : State) (n : Nat) (a : F6) : (s.tryMlda n a).Keeps s.hbm := s.preload_keeps ..
@[simp] theorem State.tryMldb_keeps (s : State) (n : Nat) (a : F6) : (s.tryMldb n a).Keeps s.hbm := s.preload_keeps ..
@[simp] theorem State.tryMldas_keeps (s : State) (n : Nat) (a : F6) : (s.tryMldas n a).Keeps s.hbm := mCheck_keeps _ (State.modM_hbm ..)
@[simp] theorem State.tryMldbs_keeps (s : State) (n : Nat) (a : F6) : (s.tryMldbs n a).Keeps s.hbm := mCheck_keeps _ (State.modM_hbm ..)
@[simp] theorem State.tryMcfg_keeps (s : State) (n : Nat) (a : F6) : (s.tryMcfg n a).Keeps s.hbm := mCheck_keeps _ (State.modM_hbm ..)
@[simp] theorem State.tryMma_keeps (s : State) (n : Nat) (x : MmaWord) : (s.tryMma n x).Keeps s.hbm := by
  refine mCheck_keeps _ ?_
  split
  · exact State.setCore_hbm ..
  · rfl
theorem State.join_keeps (s : State) (n : Nat) (x y : W64) (causes : W64 → W64 → List (Bool × Nat)) {work : State → W64 → W64 → State × Nat}
    (hw : ∀ x y, (work s x y).1.hbm = s.hbm) : (s.join n x y causes work).Keeps s.hbm := by
  simp only [State.join]
  split
  · split
    · exact hw _ _
    · rfl
  · refine mCheck_keeps _ ?_
    split
    · exact hw _ _
    · exact State.modStream_hbm ..
@[simp] theorem State.tryMzero_keeps (s : State) (n : Nat) : (s.tryMzero n).Keeps s.hbm := s.join_keeps n _ _ _ fun _ _ => State.modM_hbm ..
@[simp] theorem State.tryMshift_keeps (s : State) (n : Nat) (d a : F6) : (s.tryMshift n d a).Keeps s.hbm := s.join_keeps n _ _ _ fun _ _ => State.modCore_hbm ..
@[simp] theorem State.tryMspill_keeps (s : State) (n : Nat) (d : F6) : (s.tryMspill n d).Keeps s.hbm := by
  unfold State.tryMspill
  exact s.join_keeps n _ _ _ fun _ _ => State.modCore_hbm ..
@[simp] theorem State.tryMfill_keeps (s : State) (n : Nat) (a : F6) : (s.tryMfill n a).Keeps s.hbm := by
  unfold State.tryMfill
  refine s.join_keeps n _ _ _ fun x y => ?_
  simp only [State.modM_hbm]
@[simp] theorem State.tryMstat_keeps (s : State) (n : Nat) (d : F6) : (s.tryMstat n d).Keeps s.hbm := s.join_keeps n _ _ _ fun _ _ => State.addPend_hbm ..
theorem State.followCmd_keeps (s : State) (n : Nat) (w p : W32) : (s.followCmd n w p).2.Keeps s.hbm := by
  unfold State.followCmd
  split
  · exact s.tryMlda_keeps ..
  · exact s.tryMldb_keeps ..
  · exact s.tryMldas_keeps ..
  · exact s.tryMldbs_keeps ..
  · exact s.tryMcfg_keeps ..
  · exact s.tryMzero_keeps ..
  · exact s.tryMma_keeps ..
  · trivial
  · trivial
@[simp] theorem State.popFollow_hbm (s : State) (n : Nat) : (s.popFollow n).hbm = s.hbm := by rfl
@[simp] theorem State.mwaitf_hbm (s : State) (n : Nat) : (s.mwaitf n).hbm = s.hbm := by
  simp only [State.mwaitf]
  split
  · rfl
  next w p posted l _ =>
    have hk := s.followCmd_keeps n w p
    generalize (s.followCmd n w p) = r at hk ⊢
    obtain ⟨g, t⟩ := r
    cases t with
    | cause c => dsimp only; (repeat' split) <;> simp
    | hold u => dsimp only [MTry.Keeps] at hk ⊢; (repeat' split) <;> simp [hk]
    | done u i => dsimp only [MTry.Keeps] at hk ⊢; (repeat' split) <;> simp [hk]
@[simp] theorem State.joinHead_hbm (s : State) (n : Nat) : (s.joinHead n).hbm = s.hbm := by
  simp only [State.joinHead]
  split
  · exact State.mWord_hbm _ _ (State.tryMzero_keeps ..)
  · exact State.mWord_hbm _ _ (State.tryMshift_keeps ..)
  · exact State.mWord_hbm _ _ (State.tryMspill_keeps ..)
  · exact State.mWord_hbm _ _ (State.tryMfill_keeps ..)
  · exact State.mWord_hbm _ _ (State.tryMstat_keeps ..)
  · exact State.mwaitf_hbm ..
  · rfl

/-! `Machine/Group`. -/

@[simp] theorem State.commitPart_wf {s : State} (hs : s.hbm.wf) (cxn h : Nat) (x : CommitLine) (k : Nat) : (s.commitPart cxn h x k).1.hbm.wf := by
  simp only [State.commitPart]
  (repeat' split) <;> simp +contextual [hs]
@[simp] theorem State.commitLine_wf {s : State} (hs : s.hbm.wf) (cxn h : Nat) (x : CommitLine) : (s.commitLine cxn h x).1.hbm.wf :=
  State.foldl_fst_wf hs fun _ _ hr => State.commitPart_wf hr ..
@[simp] theorem State.commitAll_wf {s : State} (hs : s.hbm.wf) (cxn h : Nat) (cores : List Nat) (far : Bool) :
    (s.commitAll cxn h cores far).1.hbm.wf := by
  refine State.foldl_fst_wf (State.foldl_wf ?_ fun t n ht => State.foldl_wf ht fun u l hu => State.requests_wf hu ..) fun _ _ hr => State.commitLine_wf hr ..
  refine State.foldl_wf hs fun t n ht => State.foldl_wf ht fun u l hu => ?_
  split <;> simp [hu]
@[simp] theorem State.clearPhase_hbm (s : State) (cxn : Nat) (far : Bool) (n : Nat) : (s.clearPhase cxn far n).hbm = s.hbm := by rfl
@[simp] theorem State.passGroup_hbm (s : State) (cxn h : Nat) (g : Group) : (s.passGroup cxn h g).hbm = s.hbm := by simp [State.passGroup]
@[simp] theorem State.releasePhase_wf {s : State} (hs : s.hbm.wf) (cxn h g : Nat) : (s.releasePhase cxn h g).hbm.wf := by
  unfold State.releasePhase
  (repeat' split) <;> simp +contextual [hs]
@[simp] theorem State.passBarriers_wf {s : State} (hs : s.hbm.wf) (cxn h : Nat) (gs : List Group) (cores : List Nat) :
    (s.passBarriers cxn h gs cores).hbm.wf := by
  simp +contextual [State.passBarriers, hs]
@[simp] theorem State.releaseBarrier_wf {s : State} (hs : s.hbm.wf) (cxn h g : Nat) : (s.releaseBarrier cxn h g).hbm.wf := by
  unfold State.releaseBarrier
  (repeat' split) <;> simp +contextual [hs]
@[simp] theorem State.noteKbar_hbm (s : State) (cxn h : Nat) (g : Group) : (s.noteKbar cxn h g).hbm = s.hbm := by simp [State.noteKbar]
@[simp] theorem State.fetchLines_wf {s : State} (hs : s.hbm.wf) (n : Nat) : (s.fetchLines n).hbm.wf := by simp +contextual [State.fetchLines, hs]
@[simp] theorem State.noteTries_wf {s : State} (hs : s.hbm.wf) (g : Group) (w : Nat) : (s.noteTries g w).hbm.wf :=
  State.foldl_wf hs fun _ _ ht => State.foldl_wf ht fun _ _ hu => State.noteTry_wf hu ..
@[simp] theorem State.virtualCycle_wf {s : State} (hs : s.hbm.wf) (cxn h g : Nat) : (s.virtualCycle cxn h g).hbm.wf := by
  simp only [State.virtualCycle]
  (repeat' split) <;> simp +contextual [hs]
@[simp] theorem State.unpauseGroup_hbm (s : State) (cxn h g : Nat) : (s.unpauseGroup cxn h g).hbm = s.hbm := by
  unfold State.unpauseGroup
  split <;> simp
@[simp] theorem State.completeInst_wf {s : State} (hs : s.hbm.wf) (cxn h : Nat) : (s.completeInst cxn h).hbm.wf := by
  simp only [State.completeInst]
  split
  · exact hs
  next i _ =>
    repeat' split
    · exact hs
    all_goals
      rw [State.genNotices_hbm, State.wake_hbm, State.modCtx_hbm, State.foldl_modCore_hbm]
      exact State.closeSlots_wf (by simp [State.commitAll_wf hs]) ..

/-! `Machine/TrailForms`. -/

@[simp] theorem State.hostError_hbm (s : State) (cxn ipa : Nat) : (s.hostError cxn ipa).hbm = s.hbm := by
  simp only [State.hostError]
  (repeat' split) <;> simp
@[simp] theorem State.hostPark_wf {s : State} (hs : s.hbm.wf) (cxn ipa : Nat) : (s.hostPark cxn ipa).hbm.wf := by
  unfold State.hostPark
  split <;> simp +contextual [hs]
@[simp] theorem State.hostFail_wf {s : State} (hs : s.hbm.wf) (cxn ipa : Nat) (x : HostReq) : (s.hostFail cxn ipa x).hbm.wf := by
  unfold State.hostFail
  split <;> simp +contextual [hs]
@[simp] theorem State.untaint_hbm (s : State) (dpa n : Nat) : (s.untaint dpa n).hbm = s.hbm := by simp [State.untaint]
@[simp] theorem State.hostAtomic_wf {s : State} (hs : s.hbm.wf) (cxn fn dpa leaf : Nat) (op : HostAtomic) (size : Nat) (x y : BitVec 128) :
    (s.hostAtomic cxn fn dpa leaf op size x y).hbm.wf := by
  have h0 := State.undefine_wf hs (s.outsideOpen dpa size)
  simp only [State.hostAtomic, State.send_hbm, State.outsideDone_hbm]
  refine State.undefine_wf ?_ _
  split <;> simp [h0]
@[simp] theorem State.hostDo_wf {s : State} (hs : s.hbm.wf) (cxn : Nat) (l : Leaf) (x : HostReq) : (s.hostDo cxn l x).hbm.wf := by
  unfold State.hostDo
  split <;> simp +contextual [hs]
@[simp] theorem State.flushHost_wf {s : State} (hs : s.hbm.wf) (cxn : Nat) : (s.flushHost cxn).hbm.wf := by
  rw [State.flushHost, State.modTrail_hbm]
  refine State.foldl_wf hs fun t x ht => ?_
  split <;> simp [ht]
@[simp] theorem State.setMode_wf {s : State} (hs : s.hbm.wf) (cxn mode : Nat) (t : Trail) {go : State → State} (hgo : ∀ u, u.hbm.wf → (go u).hbm.wf) :
    (s.setMode cxn mode t go).hbm.wf := by
  refine State.check_wf hs _ fun u hu => ?_
  by_cases hm : mode = 0
  · rw [if_pos hm]
    exact hgo _ (by simp [hu])
  · rw [if_neg hm]
    split
    · simp [hu]
    · simp [hu]
    · refine hgo _ ?_
      split <;> simp [hu]
@[simp] theorem State.recordMark_hbm (s : State) (cxn before : Nat) : (s.recordMark cxn before).hbm = s.hbm := by simp [State.recordMark]
@[simp] theorem State.handlerEntry_wf {s : State} (hs : s.hbm.wf) (cxn q : Nat) : (s.handlerEntry cxn q).hbm.wf := by
  simp only [State.handlerEntry]
  split
  · split <;> simp [hs]
  · split
    · simp [hs]
    · split
      next h => simpa using State.of_gate_wf h hs
      next h => exact State.of_gate_wf h hs
      next h => exact State.of_gate_wf h hs
@[simp] theorem State.writeHeld_wf {s : State} (hs : s.hbm.wf) (cxn : Nat) (l : List (W64 × W64)) : (s.writeHeld cxn l).hbm.wf := by
  induction l generalizing s with
  | nil => exact hs
  | cons x l ih =>
    simp only [State.writeHeld]
    split
    · exact hs
    · exact ih (State.writeRecord_wf hs ..)
@[simp] theorem State.hostQueue_hbm (s : State) (cxn slice ipa : Nat) (r : HostReq) : (s.hostQueue cxn slice ipa r).hbm = s.hbm := by rfl
theorem State.hostGate_wf {s : State} (hs : s.hbm.wf) (cxn slice q0 q1 : Nat) : (s.hostGate cxn slice q0 q1).state.hbm.wf := by
  simp only [State.hostGate]
  split
  · simp [Gate.state, hs]
  · exact State.gate_wf hs ..
theorem State.of_hostGate_wf {s : State} {cxn slice q0 q1 : Nat} {g : Gate} (h : s.hostGate cxn slice q0 q1 = g) (hs : s.hbm.wf) : g.state.hbm.wf :=
  h ▸ State.hostGate_wf hs cxn slice q0 q1
@[simp] theorem State.hostPart_wf {s : State} (hs : s.hbm.wf) (cxn ipa : Nat) (r : HostReq) : (s.hostPart cxn ipa r).hbm.wf := by
  simp only [State.hostPart]
  split
  · simp [hs]
  · split
    · simp [hs]
    · split
      · simp [hs]
      · split
        next h => exact State.hostDo_wf (State.of_hostGate_wf h hs) ..
        next h => simpa using State.of_hostGate_wf h hs
        next h => simpa using State.of_hostGate_wf h hs
@[simp] theorem State.retryHost_wf {s : State} (hs : s.hbm.wf) (cxn : Nat) : (s.retryHost cxn).hbm.wf := by simp +contextual [State.retryHost, hs]
@[simp] theorem State.retryCancel_wf {s : State} (hs : s.hbm.wf) (n : Nat) : (s.retryCancel n).hbm.wf := by
  unfold State.retryCancel
  split <;> simp +contextual [hs]
@[simp] theorem State.trailRelease_wf {s : State} (hs : s.hbm.wf) (cxn : Nat) : (s.trailRelease cxn).hbm.wf := by
  have h3 (l : List Nat) {t : State} (ht : t.hbm.wf) : (l.foldl (fun t n => t.retryCancel n) t).hbm.wf := State.foldl_wf ht fun _ _ hu => State.retryCancel_wf hu _
  simp only [State.trailRelease]
  refine State.foldl_wf (h3 _ (State.retryHost_wf ?_ _)) fun _ _ ht => State.atomicStep_wf ht _
  (repeat' split) <;> simp [hs]
@[simp] theorem State.clockPassed_hbm (s : State) (cxn : Nat) : (s.clockPassed cxn).hbm = s.hbm := by
  unfold State.clockPassed
  (repeat' split) <;> simp
@[simp] theorem State.stallTimeout_hbm (s : State) (cxn : Nat) : (s.stallTimeout cxn).hbm = s.hbm := by simp [State.stallTimeout]
@[simp] theorem State.phaseRestart_wf {s : State} (hs : s.hbm.wf) (n : Nat) : (s.phaseRestart n).hbm.wf := by
  unfold State.phaseRestart
  (repeat' split) <;> simp +contextual [hs]
@[simp] theorem State.classAJob_wf {s : State} (hs : s.hbm.wf) (n : Nat) : (s.classAJob n).hbm.wf := by simp +contextual [State.classAJob, hs]
@[simp] theorem State.classAPoint_wf {s : State} (hs : s.hbm.wf) (cxn h g : Nat) : (s.classAPoint cxn h g).hbm.wf := by
  unfold State.classAPoint
  (repeat' split) <;> simp +contextual [hs]

/-! `Machine/Shares`. -/

@[simp] theorem State.changeTable_hbm (s : State) : s.changeTable.hbm = s.hbm := by rfl
@[simp] theorem State.inject_hbm (s : State) (cxn core : Nat) : (s.inject cxn core).1.hbm = s.hbm := by
  simp only [State.inject]
  (repeat' split) <;> simp
@[simp] theorem State.slotCycle_hbm (s : State) : s.slotCycle.hbm = s.hbm := by
  unfold State.slotCycle
  extract_lets s1 own r
  have h1 : s1.hbm = s.hbm := State.foldl_hbm fun t n => by split <;> rfl
  split
  · exact h1
  · have hr : r.1.hbm = s1.hbm := State.foldl_fst_hbm fun _ _ => by simp
    rw [State.perf_hbm, hr, h1]
@[simp] theorem State.refillAll_wf {s : State} (hs : s.hbm.wf) : s.refillAll.hbm.wf := by simp +contextual [State.refillAll, hs]

/-! `Machine/Mailbox`. -/

@[simp] theorem State.mbEnd_hbm (s : State) (result reason : Nat) : (s.mbEnd result reason).hbm = s.hbm := by simp [State.mbEnd]
@[simp] theorem State.mbData_hbm (s : State) (v : Nat) : (s.mbData v).hbm = s.hbm := by rfl
@[simp] theorem State.attest_hbm (s : State) (cxn : Nat) : (s.attest cxn).hbm = s.hbm := by rfl

/-! `Machine/Paging`. -/

@[simp] theorem State.startS1Inv_hbm (s : State) (cxn : Nat) (k : InvScope) : (s.startS1Inv cxn k).hbm = s.hbm := by rfl
@[simp] theorem State.startS2Inv_hbm (s : State) (cxn : Nat) (k : InvScope) : (s.startS2Inv cxn k).hbm = s.hbm := by rfl
@[simp] theorem State.awaitInv_hbm (s : State) (cxn : Nat) (k : InvScope) : (s.awaitInv cxn k).hbm = s.hbm := by rfl
@[simp] theorem State.tierLand_wf {s : State} (hs : s.hbm.wf) (cxn ipa : Nat) : (s.tierLand cxn ipa).hbm.wf := by
  simp only [State.tierLand]
  split
  · exact hs
  · (repeat' split) <;> simp [hs]
@[simp] theorem State.tierFail_hbm (s : State) (cxn ipa : Nat) : (s.tierFail cxn ipa).hbm = s.hbm := by
  simp only [State.tierFail]
  split
  · rfl
  · refine (State.foldl_hbm fun t n => ?_).trans (State.modCtx_hbm ..)
    split
    · rfl
    · split <;> simp
@[simp] theorem State.raiseFailed_hbm (s : State) (cxn n : Nat) : (s.raiseFailed cxn n).hbm = s.hbm := by
  unfold State.raiseFailed
  split
  · rfl
  · refine State.foldl_hbm fun t x => State.foldl_hbm fun u k => ?_
    split <;> simp
@[simp] theorem State.answerPeer_hbm (s : State) (dcn kind : Nat) (bytes : List (Byte × Bool)) : (s.answerPeer dcn kind bytes).hbm = s.hbm := by rfl
@[simp] theorem State.peerAtomic_wf {s : State} (hs : s.hbm.wf) (dcn dpa opc : Nat) (bytes : List Byte) :
    (s.peerAtomic dcn dpa opc bytes).hbm.wf := by
  have h0 := State.undefine_wf hs
  simp only [State.peerAtomic, State.answerPeer_hbm]
  have h3 {u : State} (hu : u.hbm.wf) (p : Prop) [Decidable p] : (if p then (u.tick 1).lineAdded dpa else u).hbm.wf := by split <;> simp [hu]
  refine h3 ?_ _
  rw [State.outsideDone_hbm]
  refine State.undefine_wf ?_ _
  split <;> simp [h0]
@[simp] theorem State.fromPeer_wf {s : State} (hs : s.hbm.wf) (dcn off : Nat) (write : Bool) (bytes : List Byte) :
    (s.fromPeer dcn off write bytes).hbm.wf := by
  simp only [State.fromPeer]
  (repeat' split) <;> simp +contextual [hs]

/-! `Machine/HostPort`. -/

@[simp] theorem State.endInstances_wf {s : State} (hs : s.hbm.wf) (cxn q : Nat) : (s.endInstances cxn q).hbm.wf := by
  simp +contextual [State.endInstances, hs]
@[simp] theorem State.qstart_wf {s : State} (hs : s.hbm.wf) (cxn q : Nat) (v : W64) : (s.qstart cxn q v).hbm.wf := by
  simp +contextual [State.qstart, hs]

/-! `Machine/Links`. -/

@[simp] theorem State.setPort_hbm (s : State) (k : Nat) (p : Port) : (s.setPort k p).hbm = s.hbm := by rfl
@[simp] theorem State.portEvent_hbm (s : State) (k : Nat) : (s.portEvent k).hbm = s.hbm := by simp [State.portEvent]
@[simp] theorem State.portRow_hbm (s : State) (k : Nat) (l : List PortState) (f : Port → Port) : (s.portRow k l f).hbm = s.hbm := by
  simp [State.portRow]

/-! `Machine/Reliability`. -/

@[simp] theorem State.streamError_wf {s : State} (hs : s.hbm.wf) (n : Nat) (e : Engine) : (s.streamError n e).hbm.wf := by
  unfold State.streamError
  split <;> simp +contextual [hs]
@[simp] theorem State.jobError_wf {s : State} (hs : s.hbm.wf) (n : Nat) (e : Engine) : (s.jobError n e).hbm.wf := by
  simp +contextual [State.jobError, hs]
@[simp] theorem State.threadError_hbm (s : State) (cxn q : Nat) : (s.threadError cxn q).hbm = s.hbm := by simp [State.threadError]
@[simp] theorem State.atomicError_wf {s : State} (hs : s.hbm.wf) (ag : Agent) : (s.atomicError ag).hbm.wf := by
  unfold State.atomicError
  (repeat' split) <;> simp +contextual [hs]
@[simp] theorem State.closeError_wf {s : State} (hs : s.hbm.wf) (part : Nat) : (s.closeError part).hbm.wf := by
  simp +contextual [State.closeError, hs]
@[simp] theorem State.copyError_wf {s : State} (hs : s.hbm.wf) (n tag : Nat) : (s.copyError n tag).hbm.wf := by
  unfold State.copyError
  split <;> simp +contextual [hs]
@[simp] theorem State.hbmError_hbm (s : State) (part : Nat) (bad : Bool) : (s.hbmError part bad).hbm = s.hbm := by simp [State.hbmError]

/-! `Machine/Parking`. -/

@[simp] theorem State.reAsk_wf {s : State} (hs : s.hbm.wf) (n : Nat) : (s.reAsk n).hbm.wf := by simp +contextual [State.reAsk, hs]
@[simp] theorem State.restoreFault_hbm (s : State) (n : Nat) (e : Engine) (cause va : Nat) (r : Option FaultRec) :
    (s.restoreFault n e cause va r).hbm = s.hbm := by
  unfold State.restoreFault
  (repeat' split) <;> simp
@[simp] theorem State.settleCore_wf {s : State} (hs : s.hbm.wf) (n : Nat) : (s.settleCore n).hbm.wf := by
  simp only [State.settleCore]
  (repeat' split) <;> simp +contextual [hs]
@[simp] theorem State.settleSlot_wf {s : State} (hs : s.hbm.wf) (cxn h ea : Nat) : (s.settleSlot cxn h ea).hbm.wf := by
  unfold State.settleSlot
  (repeat' split) <;> simp +contextual [hs]
@[simp] theorem State.dropRecord_hbm (s : State) (cxn q id : Nat) : (s.dropRecord cxn q id).hbm = s.hbm := by
  simp only [State.dropRecord]
  (repeat' split) <;> simp
@[simp] theorem State.unpark_wf {s : State} (hs : s.hbm.wf) (cxn q : Nat) : (s.unpark cxn q).hbm.wf := by simp +contextual [State.unpark, hs]
@[simp] theorem State.retryAdmission_wf {s : State} (hs : s.hbm.wf) (cxn h : Nat) : (s.retryAdmission cxn h).hbm.wf := by
  unfold State.retryAdmission
  split <;> simp +contextual [hs]
@[simp] theorem State.reFetch_hbm (s : State) (n : Nat) : (s.reFetch n).hbm = s.hbm := by
  refine State.foldl_hbm fun t x => ?_
  dsimp only
  split <;> simp
@[simp] theorem State.settleJobs_wf {s : State} (hs : s.hbm.wf) (cxn h : Nat) : (s.settleJobs cxn h).hbm.wf := by
  unfold State.settleJobs
  split <;> simp +contextual [hs]
@[simp] theorem State.resolveRecord_wf {s : State} (hs : s.hbm.wf) (cxn q id : Nat) (r : FaultRec) : (s.resolveRecord cxn q id r).hbm.wf := by
  unfold State.resolveRecord
  extract_lets s1 s2
  have h1 : s1.hbm.wf := by simpa [s1] using hs
  clear_value s1
  refine State.unpark_wf ?_ ..
  unfold s2
  split
  · exact h1
  · split
    · exact State.retryAdmission_wf h1 ..
    · split
      · exact State.settleSlot_wf h1 ..
      · split
        next n _ =>
          extract_lets t t1
          have h2 : t.hbm.wf := h1
          have h3 : t1.hbm.wf := by
            unfold t1
            rw [State.reFetch_hbm]
            split
            · exact State.settleJobs_wf (State.settleCore_wf h2 _) ..
            · exact h2
          split
          · exact State.refetchJob_wf h3 _
          · exact h3
        · exact h1
@[simp] theorem State.denyRecord_wf {s : State} (hs : s.hbm.wf) (cxn q id : Nat) (r : FaultRec) : (s.denyRecord cxn q id r).hbm.wf := by
  unfold State.denyRecord
  extract_lets s1 s2
  have h1 : s1.hbm.wf := by simpa [s1] using hs
  clear_value s1
  split
  · simpa using h1
  · split
    · exact State.unpark_wf (State.faultInst_wf h1 ..) ..
    · refine State.unpark_wf ?_ ..
      unfold s2
      split
      · exact h1
      · split
        next n _ =>
          extract_lets t u
          have h2 : t.hbm.wf := by
            unfold t
            split
            · exact State.foldl_wf h1 fun _ _ ht => State.abandonCopy_wf ht ..
            · exact h1
          have h3 : u.hbm.wf := by
            unfold u
            split
            · split
              · exact (State.startTiers_hbm ..).symm ▸ State.reAsk_wf (s := t.setCore n _) h2 _
              · exact h2
            · exact h2
          exact h3
        · exact h1
@[simp] theorem State.endDivergence_wf {s : State} (hs : s.hbm.wf) (cxn : Nat) : (s.endDivergence cxn).hbm.wf := by
  simp +contextual [State.endDivergence, hs]
@[simp] theorem State.withholdJob_wf {s : State} (hs : s.hbm.wf) (n : Nat) (e : Engine) (q0 : Nat) : (s.withholdJob n e q0).hbm.wf := by
  unfold State.withholdJob
  (repeat' split) <;> simp +contextual [hs]
@[simp] theorem State.denyDivergence_wf {s : State} (hs : s.hbm.wf) (cxn : Nat) : (s.denyDivergence cxn).hbm.wf := by
  unfold State.denyDivergence
  split <;> simp +contextual [hs]

/-! `Machine/Contexts`. -/

@[simp] theorem State.freshCores_wf {s : State} (hs : s.hbm.wf) (owner : Option Nat) (l : List Nat) : (s.freshCores owner l).hbm.wf := by
  simp +contextual [State.freshCores, hs]
@[simp] theorem State.giveCtx_wf {s : State} (hs : s.hbm.wf) (cxn : Nat) (st : CxState) (vf dcn mask : Nat) (runs : List (Nat × Nat)) (quant pcal :
    Nat) (frames : Nat × Nat) : (s.giveCtx cxn st vf dcn mask runs quant pcal frames).hbm.wf := by
  unfold State.giveCtx
  split <;> simp +contextual [hs]
@[simp] theorem State.haltThread_wf {s : State} (hs : s.hbm.wf) (cxn q : Nat) : (s.haltThread cxn q).hbm.wf := by
  simp +contextual [State.haltThread, hs]
@[simp] theorem State.haltCtx_wf {s : State} (hs : s.hbm.wf) (cxn : Nat) : (s.haltCtx cxn).hbm.wf :=
  State.foldl_wf (State.foldl_wf hs fun _ _ ht => State.haltJob_wf ht _) fun _ _ ht => by simp [ht]
@[simp] theorem State.clearValid_wf {s : State} (hs : s.hbm.wf) (a : Nat) : (s.clearValid a).hbm.wf := by simp +contextual [State.clearValid, hs]
@[simp] theorem State.unbind_wf {s : State} (hs : s.hbm.wf) (cxn : Nat) : (s.unbind cxn).hbm.wf := by
  unfold State.unbind
  split <;> simp +contextual [hs]
@[simp] theorem State.guideSend_hbm (s : State) (cxn dev kind : Nat) (bytes : List Byte) : (s.guideSend cxn dev kind bytes).hbm = s.hbm := by rfl
@[simp] theorem State.sendAbort_hbm (s : State) (cxn : Nat) : (s.sendAbort cxn).hbm = s.hbm := by
  unfold State.sendAbort
  split <;> simp
@[simp] theorem State.resetCtx_wf {s : State} (hs : s.hbm.wf) (cxn : Nat) : (s.resetCtx cxn).hbm.wf := by
  unfold State.resetCtx
  split <;> simp +contextual [hs]
@[simp] theorem State.scrub_wf {s : State} (hs : s.hbm.wf) (cxn : Nat) : (s.scrub cxn).hbm.wf := by simp +contextual [State.scrub, hs]
@[simp] theorem State.zeroRegion_wf {s : State} (hs : s.hbm.wf) (c : Ctx) : (s.zeroRegion c).hbm.wf := by simp +contextual [State.zeroRegion, hs]
@[simp] theorem State.scrubDone_wf {s : State} (hs : s.hbm.wf) (cxn : Nat) : (s.scrubDone cxn).hbm.wf := by
  have h1 := State.zeroRegion_wf (State.scrub_wf hs cxn) (s.ctx cxn)
  simp only [State.scrubDone]
  split
  · simp [hs]
  · (repeat' split) <;> simp [h1]
  · exact hs

/-! `Machine/Stops`. -/

@[simp] theorem State.stopThread_wf {s : State} (hs : s.hbm.wf) (cxn q cls : Nat) : (s.stopThread cxn q cls).hbm.wf := by
  simp +contextual [State.stopThread, hs]
@[simp] theorem State.stopError_wf {s : State} (hs : s.hbm.wf) (n : Nat) : (s.stopError n).hbm.wf := by
  unfold State.stopError
  (repeat' split) <;> simp +contextual [hs]
@[simp] theorem State.haltColls_wf {s : State} (hs : s.hbm.wf) (n : Nat) : (s.haltColls n).hbm.wf := by simp +contextual [State.haltColls, hs]
@[simp] theorem State.stopJob_wf {s : State} (hs : s.hbm.wf) (n cls : Nat) : (s.stopJob n cls).hbm.wf := by
  have h1 := State.stopError_wf (State.flushStrong_wf hs n) n
  simp only [State.stopJob]
  (repeat' split) <;> simp [hs, h1]
@[simp] theorem State.pauseGroups_hbm (s : State) (cxn : Nat) (p : Group → Bool) : (s.pauseGroups cxn p).hbm = s.hbm := by rfl
@[simp] theorem State.settleStop_wf {s : State} (hs : s.hbm.wf) (cxn : Nat) : (s.settleStop cxn).hbm.wf := by
  have h1 : ((List.range 16).foldl (fun t q => t.stopThread cxn q (s.ctx cxn).stopCls) s).hbm.wf := by simp +contextual [hs]
  simp only [State.settleStop]
  split
  · exact hs
  · split
    · simp [h1]
    · rw [State.pauseGroups_hbm]
      exact State.foldl_wf h1 fun t n ht => by simp [ht]
@[simp] theorem State.pointRecord_wf {s : State} (hs : s.hbm.wf) (cxn : Nat) (r : Nat × Nat) : (s.pointRecord cxn r).hbm.wf := by
  simp +contextual [State.pointRecord, hs]
@[simp] theorem State.stopRecords_wf {s : State} (hs : s.hbm.wf) (cxn : Nat) : (s.stopRecords cxn).hbm.wf := by
  simp +contextual [State.stopRecords, hs]
@[simp] theorem State.enterSaved_hbm (s : State) (cxn : Nat) : (s.enterSaved cxn).hbm = s.hbm := by simp [State.enterSaved]
@[simp] theorem State.writeHamper_wf {s : State} (hs : s.hbm.wf) (cxn : Nat) : (s.writeHamper cxn).hbm.wf := by
  simp +contextual [State.writeHamper, hs]
@[simp] theorem State.save_wf {s : State} (hs : s.hbm.wf) (cxn : Nat) : (s.save cxn).hbm.wf := by
  unfold State.save
  extract_lets cls s0 cores s1 s2 s3
  have h0 : s0.hbm.wf := State.settleStop_wf hs cxn
  clear_value s0
  split
  · exact hs
  · have h1 : s1.hbm.wf := State.foldl_wf h0 fun t n ht => by simp [ht]
    have h2 : s2.hbm.wf := State.stopRecords_wf (by simp [h1]) cxn
    have h3 : s3.hbm.wf := State.flushHost_wf (by simp [State.writeHamper_wf h2]) cxn
    clear_value s3
    split
    · split <;> simp [h3]
    · simp [h3]
@[simp] theorem State.beginStop_wf {s : State} (hs : s.hbm.wf) (cxn cls hamper : Nat) : (s.beginStop cxn cls hamper).hbm.wf := by
  simp +contextual [State.beginStop, hs]
@[simp] theorem State.askStop_wf {s : State} (hs : s.hbm.wf) (cxn cls hamper : Nat) (force : Bool) : (s.askStop cxn cls hamper force).hbm.wf := by
  simp +contextual [State.askStop, hs]

/-! `Machine/Restore`. -/

@[simp] theorem State.linkHandler_hbm (s : State) (cxn q : Nat) : (s.linkHandler cxn q).hbm = s.hbm := by
  unfold State.linkHandler
  split <;> simp
@[simp] theorem State.reraise_hbm (s : State) (cxn q : Nat) : (s.reraise cxn q).hbm = s.hbm := by simp [State.reraise]
@[simp] theorem State.rediverge_hbm (s : State) (cxn : Nat) : (s.rediverge cxn).hbm = s.hbm := by simp [State.rediverge]
@[simp] theorem State.reheader_wf {s : State} (hs : s.hbm.wf) (cxn h : Nat) (known : Bool) : (s.reheader cxn h known).hbm.wf := by
  unfold State.reheader
  (repeat' split) <;> simp +contextual [hs]
@[simp] theorem State.putTail_wf {s : State} (hs : s.hbm.wf) (cxn : Nat) : (s.putTail cxn).hbm.wf := by simp +contextual [State.putTail, hs]
@[simp] theorem State.retakeRing_wf {s : State} (hs : s.hbm.wf) (cxn : Nat) : (s.retakeRing cxn).hbm.wf := by
  simp only [State.retakeRing]
  (repeat' split) <;> simp +contextual [hs]
@[simp] theorem State.settleRestore_wf {s : State} (hs : s.hbm.wf) (cxn : Nat) (known : Bool) : (s.settleRestore cxn known).hbm.wf := by
  simp only [State.settleRestore, State.wake_hbm]
  refine State.retakeRing_wf (State.foldl_wf ?_ fun t i ht => ?_) _
  · refine State.foldl_wf (State.foldl_wf ?_ fun t i ht => ?_) fun t n ht => State.settleCore_wf ht _
    · refine State.foldl_wf ?_ fun t i ht => State.foldl_wf ht fun u z hu => State.settleSlot_wf hu ..
      simpa using hs
    · split <;> simp [ht]
  · (repeat' split) <;> simp [ht]
@[simp] theorem State.restoreCtx_wf {s : State} (hs : s.hbm.wf) (cxn mask : Nat) (hd body : List Byte) : (s.restoreCtx cxn mask hd body).hbm.wf := by
  simp only [State.restoreCtx, State.attest_hbm, State.cxGoto_hbm]
  refine State.settleRestore_wf ?_ ..
  rw [State.setCtx_hbm]
  refine State.foldl_wf hs fun t x ht => ?_
  split <;> simp [ht]

/-! `Machine/Migrate`. -/

@[simp] theorem State.clearDirty_wf {s : State} (hs : s.hbm.wf) (cxn : Nat) : (s.clearDirty cxn).hbm.wf := by simp +contextual [State.clearDirty, hs]
@[simp] theorem State.sendPage_hbm (s : State) (cxn dev p : Nat) : (s.sendPage cxn dev p).hbm = s.hbm := by rfl
@[simp] theorem State.sendPages_hbm (s : State) (cxn dev : Nat) (l : List Nat) : (s.sendPages cxn dev l).hbm = s.hbm := by simp [State.sendPages]
@[simp] theorem State.modMig_hbm (s : State) (cxn : Nat) (f : Mig → Mig) : (s.modMig cxn f).hbm = s.hbm := by rfl
@[simp] theorem State.stepEvent_hbm (s : State) (cxn step : Nat) (bad : Bool) : (s.stepEvent cxn step bad).hbm = s.hbm := by simp [State.stepEvent]
@[simp] theorem State.precopy_wf {s : State} (hs : s.hbm.wf) (cxn : Nat) : (s.precopy cxn).hbm.wf := by
  simp only [State.precopy]
  (repeat' split) <;> simp +contextual [hs]
@[simp] theorem State.sendHamper_hbm (s : State) (cxn : Nat) (m : Mig) : (s.sendHamper cxn m).hbm = s.hbm := by simp [State.sendHamper]
@[simp] theorem State.sendTail_hbm (s : State) (cxn : Nat) (m : Mig) : (s.sendTail cxn m).hbm = s.hbm := by simp [State.sendTail]
@[simp] theorem State.sendTables_hbm (s : State) (cxn : Nat) (m : Mig) : (s.sendTables cxn m).hbm = s.hbm := by simp [State.sendTables]
@[simp] theorem State.abortSource_hbm (s : State) (cxn : Nat) : (s.abortSource cxn).hbm = s.hbm := by
  unfold State.abortSource
  split <;> simp
@[simp] theorem State.migFabric_hbm (s : State) (cxn : Nat) : (s.migFabric cxn).hbm = s.hbm := by
  unfold State.migFabric
  split <;> simp
@[simp] theorem State.migStep_wf {s : State} (hs : s.hbm.wf) (cxn : Nat) : (s.migStep cxn).hbm.wf := by
  simp only [State.migStep]
  (repeat' split) <;> simp +contextual [hs]
@[simp] theorem State.writeTables_wf {s : State} (hs : s.hbm.wf) (cxn : Nat) (l : List (Nat × Nat)) : (s.writeTables cxn l).hbm.wf := by
  simp +contextual [State.writeTables, hs]

/-! `Machine/Spdm`. -/

@[simp] theorem State.setDoe_hbm (s : State) (fn : Nat) (d : Doe) : (s.setDoe fn d).hbm = s.hbm := by rfl
@[simp] theorem State.answerDoe_hbm (s : State) (fn : Nat) (req res : List Byte) (f : Doe → Doe) : (s.answerDoe fn req res f).hbm = s.hbm := by
  simp [State.answerDoe]
@[simp] theorem State.refuseDoe_hbm (s : State) (fn code data : Nat) : (s.refuseDoe fn code data).hbm = s.hbm := by simp [State.refuseDoe]
@[simp] theorem State.signedDoe_hbm (s : State) (fn : Nat) (req res : List Byte) : (s.signedDoe fn req res).hbm = s.hbm := by simp [State.signedDoe]

/-! `Machine/Boot`. -/

@[simp] theorem State.bootFail_hbm (s : State) (k : Nat) : (s.bootFail k).hbm = s.hbm := by rfl
@[simp] theorem State.bootNext_hbm (s : State) : s.bootNext.hbm = s.hbm := by rfl
@[simp] theorem State.bootFirmware_hbm (s : State) : s.bootFirmware.hbm = s.hbm := by simp [State.bootFirmware]
@[simp] theorem State.bootMemory_wf {s : State} (hs : s.hbm.wf) : s.bootMemory.hbm.wf := by simp +contextual [State.bootMemory, hs]
@[simp] theorem State.bootStep_wf {s : State} (hs : s.hbm.wf) : s.bootStep.hbm.wf := by
  unfold State.bootStep
  split <;> simp +contextual [hs]
@[simp] theorem State.warmReset_wf {s : State} (hs : s.hbm.wf) : s.warmReset.hbm.wf := by simp +contextual [State.warmReset, hs]

/-! `Machine/Commands`. -/

@[simp] theorem State.writeMbcmd_hbm (s : State) (off : Nat) (bytes : List Byte) : (s.writeMbcmd off bytes).hbm = s.hbm := by simp [State.writeMbcmd]
@[simp] theorem State.unmask_wf {s : State} (hs : s.hbm.wf) (vf : Nat) : (s.unmask vf).hbm.wf := by simp +contextual [State.unmask, hs]
@[simp] theorem State.writeMsix_wf {s : State} (hs : s.hbm.wf) (fn n off : Nat) (bytes : List Byte) : (s.writeMsix fn n off bytes).hbm.wf := by
  simp +contextual [State.writeMsix, hs]

/-! `Machine/Cycle`. -/

@[simp] theorem State.settleGroups_hbm (s : State) (cxn : Nat) : (s.settleGroups cxn).hbm = s.hbm := by simp [State.settleGroups]
@[simp] theorem State.settleCtx_wf {s : State} (hs : s.hbm.wf) (cxn : Nat) : (s.settleCtx cxn).hbm.wf := by
  unfold State.settleCtx
  extract_lets s0 s1 s1' c s2
  have h0 : s0.hbm.wf := by simp [s0, hs]
  have h1 : s1.hbm.wf := by
    dsimp only [s1]
    split <;> simp [h0]
  have h1' : s1'.hbm.wf := by
    dsimp only [s1']
    split <;> simp [h1]
  have h2 : s2.hbm.wf := by
    dsimp only [s2]
    split <;> simp [h1']
  split
  · exact State.retakeRing_wf h2 _
  · exact h2
@[simp] theorem State.tickTrail_hbm (s : State) (cxn : Nat) : (s.tickTrail cxn).hbm = s.hbm := by rfl
@[simp] theorem State.tickClock_hbm (s : State) : s.tickClock.hbm = s.hbm := by simp [State.tickClock]
@[simp] theorem State.planCycle_wf {s : State} (hs : s.hbm.wf) : s.planCycle.hbm.wf := by
  simp only [State.planCycle]
  (repeat' split) <;> simp +contextual [hs]

/-! `Machine/Control`. -/

@[simp] theorem State.transfer_hbm (s : State) (taken : Bool) (target : W64) : (s.transfer taken target).hbm = s.hbm := by simp [State.transfer]
@[simp] theorem State.jump_wf {s : State} (hs : s.hbm.wf) (t : BitVec 3) (taken : Bool) : (s.jump t taken).hbm.wf := by
  simp +contextual [State.jump, hs]
@[simp] theorem State.callGo_hbm (s : State) (t : BitVec 3) : (s.callGo t).hbm = s.hbm := by simp [State.callGo]
@[simp] theorem State.stackAccess_wf {s : State} (hs : s.hbm.wf) (va : W64) (k : Access) (op : StrongOp) (x : W64) (opc : Nat) :
    (s.stackAccess va k op x opc).hbm.wf := by
  refine State.access_wf hs _ _ _ _ fun t ps ht => ?_
  split
  · simp [ht]
  · exact ht
@[simp] theorem State.call_wf {s : State} (hs : s.hbm.wf) (t : BitVec 3) : (s.call t).hbm.wf := by
  refine State.notInSlot_wf hs fun u hu => ?_
  dsimp only
  split
  · simp [hu]
  · split
    · split <;> simp [hu]
    · refine State.check_wf hu _ fun v hv => ?_
      split <;> simp [hv]
@[simp] theorem State.ret_wf {s : State} (hs : s.hbm.wf) : s.ret.hbm.wf := by
  refine State.notInSlot_wf hs fun u hu => ?_
  extract_lets x held
  clear_value held
  split
  · exact hu
  · split
    · simp [hu]
    · split
      · simp [hu]
      · split <;> simp [hu]
@[simp] theorem State.loop_wf {s : State} (hs : s.hbm.wf) (n : BitVec 32) (len : Nat) : (s.loop n len).hbm.wf := by
  refine State.notInSlot_wf hs fun t ht => State.check_wf ht _ fun u hu => ?_
  dsimp only
  split
  · simp [hu]
  · rw [State.parkContext_hbm]
    exact hu
  · split <;> simp [hu]
@[simp] theorem State.endLoop_wf {s : State} (hs : s.hbm.wf) (rot : Bool) : (s.endLoop rot).hbm.wf := by
  refine State.notInSlot_wf hs fun t ht => ?_
  dsimp only
  split
  · simp [ht]
  · split
    · simp [ht]
    · rw [State.modStream_hbm, State.fin_hbm]
      split <;> simp [ht]
@[simp] theorem State.trap_hbm (s : State) (imm : BitVec 3) : (s.trap imm).hbm = s.hbm := by
  unfold State.trap
  split <;> simp

/-! `Machine/Directional`. -/

@[simp] theorem State.putD_hbm (s : State) (n : Nat) (d : F6) (v : DVal) (t : Bool) (lat : Nat) : (s.putD n d v t lat).hbm = s.hbm := by rfl

/-! `Machine/Scalar`. -/

@[simp] theorem State.alu_hbm (s : State) (f : W64 → W64 → W64) (lat : Nat) (d a b : F6) : (s.alu f lat d a b).hbm = s.hbm := by simp [State.alu]
@[simp] theorem State.aluImm_hbm (s : State) (f : W64 → W64) (lat : Nat) (d a : F6) : (s.aluImm f lat d a).hbm = s.hbm := by simp [State.aluImm]
@[simp] theorem State.pred_hbm (s : State) (f : Bool → Bool → Bool) (d a b : BitVec 4) : (s.pred f d a b).hbm = s.hbm := by simp [State.pred]

/-! `Machine/Vector`. -/

@[simp] theorem State.vmove_hbm (s : State) (n : Nat) (c : Core) (d : F6) (v : VVal) (t : Bool) (lat : Nat) (src : Shape → Nat → Nat) :
    (s.vmove n c d v t lat src).hbm = s.hbm := by
  simp [State.vmove]

/-! `Machine/Order`. -/

@[simp] theorem State.noteOrder_hbm (s t : State) (a : Act) (i : Option Instr) : (s.noteOrder t a i).hbm = t.hbm := by
  rcases s.noteOrder_only_order t a i with h | ⟨n, o, -, p, q, h⟩
  · rw [h]
  · rw [h, State.modCore_hbm]
end Sys2Proof.Machine
end

section
/-! Every instruction, event and input keeps local HBM in canonical form. -/
namespace Sys2Proof.Machine
/-- The next state of an outcome keeps local HBM in canonical form. -/
def OutWf : Out → Prop
  | .next t => t.hbm.wf = true
  | _ => True
@[simp] theorem outWf_next (t : State) : OutWf (.next t) ↔ t.hbm.wf = true := Iff.rfl
@[simp] theorem outWf_ite (p : Prop) [Decidable p] (x y : Out) : OutWf (if p then x else y) ↔ if p then OutWf x else OutWf y := by split <;> rfl
theorem State.accessStop_some_wf {s u : State} {ag : Agent} {va n : Nat} {k : Access} (hs : s.hbm.wf) (h : s.accessStop ag va n k = some u) : u.hbm.wf := by
  unfold State.accessStop at h
  split at h
  · obtain ⟨x, -, rfl⟩ := Option.map_eq_some_iff.1 h
    simp [hs]
  all_goals
    obtain rfl := Option.some.inj h
    simp [hs]
/-- The state in which a turn leaves the machine. -/
@[simp] def Turn.state : Turn → State
  | .run _ s => s
  | .illegal _ _ s => s
  | .done s => s
theorem State.turn_wf {s : State} (hs : s.hbm.wf) (ag : Agent) : (s.turn ag).state.hbm.wf := by
  simp only [State.turn]
  (repeat' split) <;> simp [hs]

/-! `Machine/MemScalar`. -/

section
variable {s : State} (hs : s.hbm.wf)
include hs
@[simp] theorem execLd_wf (sr a z o) : OutWf (execLd sr a z o s) := by simp +contextual [execLd, hs]
@[simp] theorem execLdu_wf (sr a z o) : OutWf (execLdu sr a z o s) := by simp +contextual [execLdu, hs]
@[simp] theorem execSt_wf (sr a z o) : OutWf (execSt sr a z o s) := by
  unfold execSt
  split <;> simp +contextual [hs]
@[simp] theorem execLdsp_wf (sr a z o) : OutWf (execLdsp sr a z o s) := by simp +contextual [execLdsp, hs]
@[simp] theorem execLdspu_wf (sr a z o) : OutWf (execLdspu sr a z o s) := by simp +contextual [execLdspu, hs]
@[simp] theorem execStsp_wf (sr a z o) : OutWf (execStsp sr a z o s) := by
  refine State.check_wf hs _ fun t ht => ?_
  split
  · split <;> simp [ht]
  · simp [ht]
end
@[simp] theorem State.sysWord_wf {s : State} (hs : s.hbm.wf) (g : Guard) {k} (hk : ∀ y0, y0.hbm.wf → (k y0).hbm.wf) : OutWf (s.sysWord g k) := by
  simp +contextual [State.sysWord, hs, hk]
@[simp] theorem State.intAtomic_wf {s : State} (hs : s.hbm.wf) (opc : Nat) (carried : Bool) (g : Guard) (d a b : F6) (w : BitVec 1) :
    OutWf (s.intAtomic opc carried g d a b w) :=
  State.sysWord_wf hs _ fun _ ht => State.check_wf ht _ fun _ hu => State.atomic_wf hu ..
section
variable {s : State} (hs : s.hbm.wf)
include hs
@[simp] theorem execAtadd_wf (g d a b w) : OutWf (execAtadd g d a b w s) := by simp +contextual [execAtadd, hs]
@[simp] theorem execAtand_wf (g d a b w) : OutWf (execAtand g d a b w s) := by simp +contextual [execAtand, hs]
@[simp] theorem execAtor_wf (g d a b w) : OutWf (execAtor g d a b w s) := by simp +contextual [execAtor, hs]
@[simp] theorem execAtxor_wf (g d a b w) : OutWf (execAtxor g d a b w s) := by simp +contextual [execAtxor, hs]
@[simp] theorem execAtmin_wf (g d a b w) : OutWf (execAtmin g d a b w s) := by simp +contextual [execAtmin, hs]
@[simp] theorem execAtmax_wf (g d a b w) : OutWf (execAtmax g d a b w s) := by simp +contextual [execAtmax, hs]
@[simp] theorem execAtminu_wf (g d a b w) : OutWf (execAtminu g d a b w s) := by simp +contextual [execAtminu, hs]
@[simp] theorem execAtmaxu_wf (g d a b w) : OutWf (execAtmaxu g d a b w s) := by simp +contextual [execAtmaxu, hs]
@[simp] theorem execAtswp_wf (g d a b w) : OutWf (execAtswp g d a b w s) := by simp +contextual [execAtswp, hs]
@[simp] theorem execAtcas_wf (g d a b w) : OutWf (execAtcas g d a b w s) := by simp +contextual [execAtcas, hs]
@[simp] theorem execAtcas16_wf (g d a b) : OutWf (execAtcas16 g d a b s) :=
  State.sysWord_wf hs _ fun _ ht => State.check_wf ht _ fun _ hu => State.atomic_wf hu ..
@[simp] theorem execAtfadd_wf (g d a b) : OutWf (execAtfadd g d a b s) :=
  State.sysWord_wf hs _ fun _ ht => State.check_wf ht _ fun _ hu => State.atomic_wf hu ..
@[simp] theorem execLdS_wf (g d a z x) : OutWf (execLdS g d a z x s) :=
  State.sysWord_wf hs _ fun _ ht => State.check_wf ht _ fun _ hu => State.atomic_wf hu ..
@[simp] theorem execStS_wf (g d a z) : OutWf (execStS g d a z s) :=
  State.sysWord_wf hs _ fun _ ht => State.check_wf ht _ fun _ hu => State.atomic_wf hu ..
@[simp] theorem execAredOrd_wf (g a b) : OutWf (execAredOrd g a b s) := by
  refine State.sysWord_wf hs _ fun t ht => State.jobOnly_wf ht fun n e => State.check_wf ht _ fun u hu => ?_
  dsimp only
  split
  · simp [hu]
  · exact State.strong_wf hu _ _ _ _ _ fun v a p det hv => by simp [hv]
@[simp] theorem execAtomicPerformed_wf (ag) : OutWf (execAtomicPerformed ag s) := by simp +contextual [execAtomicPerformed, hs]
@[simp] theorem execAredContributionAck_wf (ag) : OutWf (execAredContributionAck ag s) := by simp +contextual [execAredContributionAck, hs]
end
@[simp] theorem State.xExec_wf {s : State} (hs : s.hbm.wf) (g : Guard) (len : Nat) {f : State → Nat → State} (hf : ∀ t n, t.hbm.wf → (f t n).hbm.wf) :
    OutWf (s.xExec g len f) := State.engineOnly_wf hs fun _ _ => State.guarded_wf hs _ _ fun _ ht => hf _ _ ht
section
variable {s : State} (hs : s.hbm.wf)
include hs
@[simp] theorem execXcopy_wf (g d a b tag ndm1 es f due) : OutWf (execXcopy g d a b tag ndm1 es f due s) := by simp +contextual [execXcopy, hs]
@[simp] theorem execXfill_wf (g d a b tag ndm1 es f due) : OutWf (execXfill g d a b tag ndm1 es f due s) := by simp +contextual [execXfill, hs]
@[simp] theorem execXdrain_wf (g d a b tag ndm1 es f due) : OutWf (execXdrain g d a b tag ndm1 es f due s) := by simp +contextual [execXdrain, hs]
@[simp] theorem execXgath_wf (g d a b) : OutWf (execXgath g d a b s) := by simp +contextual [execXgath, hs]
@[simp] theorem execXscat_wf (g d a b) : OutWf (execXscat g d a b s) := by simp +contextual [execXscat, hs]
@[simp] theorem execXallred_wf (g d a b tag ty rop duex) : OutWf (execXallred g d a b tag ty rop duex s) := by simp +contextual [execXallred, hs]
@[simp] theorem execXallgath_wf (g d a b tag ty rop duex) : OutWf (execXallgath g d a b tag ty rop duex s) := by simp +contextual [execXallgath, hs]
@[simp] theorem execXredscat_wf (g d a b tag ty rop duex) : OutWf (execXredscat g d a b tag ty rop duex s) := by simp +contextual [execXredscat, hs]
@[simp] theorem execXall2all_wf (g d a b tag ty rop duex) : OutWf (execXall2all g d a b tag ty rop duex s) := by simp +contextual [execXall2all, hs]
@[simp] theorem execXfetch_wf (g d a b tag due) : OutWf (execXfetch g d a b tag due s) := by simp +contextual [execXfetch, hs]
@[simp] theorem execXfetchTry_wf (g d a b tag due) : OutWf (execXfetchTry g d a b tag due s) := by simp +contextual [execXfetchTry, hs]
@[simp] theorem execXpref_wf (g a b) : OutWf (execXpref g a b s) :=
  State.xExec_wf hs _ _ fun _ _ ht => State.check_wf ht _ fun _ hu => by simp [hu]
@[simp] theorem execCopyWritePerformed_wf (core tag n) : OutWf (execCopyWritePerformed core tag n s) := by
  simp +contextual [execCopyWritePerformed, hs]
@[simp] theorem execCopyComplete_wf (core tag) : OutWf (execCopyComplete core tag s) := by simp +contextual [execCopyComplete, hs]
@[simp] theorem execXfillSlotReserve_wf (core tag) : OutWf (execXfillSlotReserve core tag s) := by simp +contextual [execXfillSlotReserve, hs]
@[simp] theorem execXfillSlotFilled_wf (core tag) : OutWf (execXfillSlotFilled core tag s) := by simp +contextual [execXfillSlotFilled, hs]
@[simp] theorem execXdrainSlotTake_wf (core tag) : OutWf (execXdrainSlotTake core tag s) := by simp +contextual [execXdrainSlotTake, hs]
@[simp] theorem execXdrainSlotRelease_wf (core tag) : OutWf (execXdrainSlotRelease core tag s) := by simp +contextual [execXdrainSlotRelease, hs]
@[simp] theorem execXfetchTryFallback_wf (core tag) : OutWf (execXfetchTryFallback core tag s) := by simp +contextual [execXfetchTryFallback, hs]
@[simp] theorem execCopyLateCause_wf (core tag) : OutWf (execCopyLateCause core tag s) := by simp +contextual [execCopyLateCause, hs]
end
/-- A V word keeps the form of memory where its results, what it does before and what it does with a misaligned address do. -/
theorem State.vword_wf {s : State} (hs : s.hbm.wf) (g : Guard) (peek : BitVec 1) (spec : State → Core → VSpec)
    {k : State → Nat → Core → List VVal → State} {pre : State → Nat → (State → State) → State} {lower : State → Nat → Option State}
    (hk : ∀ t n c vs, t.hbm.wf → (k t n c vs).hbm.wf)
    (hpre : ∀ t n go, t.hbm.wf → (∀ u : State, u.hbm.wf → (go u).hbm.wf) → (pre t n go).hbm.wf)
    (hlower : ∀ t n u, t.hbm.wf → lower t n = some u → u.hbm.wf) : OutWf (s.vword g peek spec k pre lower) := by
  refine State.engineOnly_wf hs fun n _ => State.guarded_wf hs _ _ fun t ht => ?_
  dsimp only
  split
  next u hu =>
    split at hu
    · exact hlower _ _ _ ht hu
    · cases hu
  · refine State.check_wf ht _ fun u hu => ?_
    split
    · exact hu
    · refine hpre _ _ _ hu fun v hv => ?_
      rw [State.fin_hbm, State.perf_hbm]
      refine hk _ _ _ _ ?_
      split <;> simp [hv]
/-- A V word that does no more than put its results. -/
theorem State.vword_wf_of_put {s : State} (hs : s.hbm.wf) (g : Guard) (peek : BitVec 1) (spec : State → Core → VSpec)
    {k : State → Nat → Core → List VVal → State} (hk : ∀ t n c vs, (k t n c vs).hbm = t.hbm) : OutWf (s.vword g peek spec k) :=
  State.vword_wf hs _ _ _ (fun t n c vs ht => by rw [hk]; exact ht) (fun _ _ _ ht hgo => hgo _ ht) fun _ _ _ _ h => (Option.some_ne_none _ h.symm).elim

/-! `Machine/Issue`. -/

section
variable {s : State} (hs : s.hbm.wf)
include hs
@[simp] theorem execIllegalInstruction_wf (g cause) : OutWf (execIllegalInstruction g cause s) := by simp +contextual [execIllegalInstruction, hs]
@[simp] theorem execRdst_wf (d sr) : OutWf (execRdst d sr s) := by
  unfold execRdst
  (repeat' split) <;> simp +contextual [hs]
@[simp] theorem execWrst_wf (a sr) : OutWf (execWrst a sr s) := by
  simp only [execWrst]
  (repeat' split) <;> simp +contextual [hs]
@[simp] theorem execVshape_wf (g a) : OutWf (execVshape g a s) :=
  State.engineOnly_wf hs fun _ _ => State.guarded_wf hs _ _ fun _ ht => State.check_wf ht _ fun _ hu => State.check_wf hu _ fun _ hv => by simp [hv]
@[simp] theorem execVld_wf (g d a) : OutWf (execVld g d a s) := State.vword_wf_of_put hs _ _ _ fun _ _ _ _ => by dsimp only; split <;> simp
@[simp] theorem execVst_wf (g a b p) : OutWf (execVst g a b p s) := State.vword_wf_of_put hs _ _ _ fun _ _ _ _ => by simp
@[simp] theorem execVldm_wf (g d a) : OutWf (execVldm g d a s) := by
  refine State.vword_wf hs _ _ _ (fun _ _ _ _ ht => ht) (fun t n go ht hgo => State.access_wf ht _ _ _ _ fun u ps hu => ?_) fun t n u ht hu => ?_
  · split
    · simp [hu]
    · refine hgo _ ?_
      split <;> simp [hu]
  · exact State.accessStop_some_wf ht hu
@[simp] theorem execVstm_wf (g a b p) : OutWf (execVstm g a b p s) :=
  State.vword_wf hs _ _ _ (fun _ _ _ _ ht => ht) (fun _ _ _ ht hgo => State.plainStore_wf ht _ _ _ _ _ hgo) fun _ _ _ ht hu => State.accessStop_some_wf ht hu
@[simp] theorem execVgath_wf (g d a b p) : OutWf (execVgath g d a b p s) := State.vword_wf_of_put hs _ _ _ fun _ _ _ _ => by simp
@[simp] theorem execVscat_wf (g d a b p) :
    OutWf (execVscat g d a b p s) := State.vword_wf_of_put hs _ _ _ fun _ _ _ _ => State.foldl_hbm fun _ _ => by simp
end
@[simp] theorem State.vsf_wf {s : State} (hs : s.hbm.wf) (fn : SfFn) (g : Guard) (d a : F6) (p : BitVec 1) : OutWf (s.vsf fn g d a p) :=
  State.vword_wf_of_put hs _ _ _ fun _ _ _ _ => by simp
section
variable {s : State} (hs : s.hbm.wf)
include hs
@[simp] theorem execVexp2_wf (g d a p) : OutWf (execVexp2 g d a p s) := by simp +contextual [execVexp2, hs]
@[simp] theorem execVlog2_wf (g d a p) : OutWf (execVlog2 g d a p s) := by simp +contextual [execVlog2, hs]
@[simp] theorem execVrcp_wf (g d a p) : OutWf (execVrcp g d a p s) := by simp +contextual [execVrcp, hs]
@[simp] theorem execVrsq_wf (g d a p) : OutWf (execVrsq g d a p s) := by simp +contextual [execVrsq, hs]
@[simp] theorem execVsinpi_wf (g d a p) : OutWf (execVsinpi g d a p s) := by simp +contextual [execVsinpi, hs]
@[simp] theorem execVcospi_wf (g d a p) : OutWf (execVcospi g d a p s) := by simp +contextual [execVcospi, hs]
@[simp] theorem execVtanh_wf (g d a p) : OutWf (execVtanh g d a p s) := by simp +contextual [execVtanh, hs]
@[simp] theorem execVrand_wf (g d a b) : OutWf (execVrand g d a b s) := State.vword_wf_of_put hs _ _ _ fun _ _ _ _ => by simp
@[simp] theorem execVbucket_wf (g d a b p) : OutWf (execVbucket g d a b p s) := State.vword_wf_of_put hs _ _ _ fun _ _ _ _ => by simp
@[simp] theorem execEcnt_wf (g d a) : OutWf (execEcnt g d a s) := State.vword_wf_of_put hs _ _ _ fun _ _ _ _ => by simp
end
@[simp] theorem State.qWord_wf {s : State} (hs : s.hbm.wf) (g : Guard) (conds : List (Bool × Nat)) {k : State → Nat → Nat → State}
    (hk : ∀ t cxn q, t.hbm.wf → (k t cxn q).hbm.wf) : OutWf (s.qWord g conds k) :=
  State.guarded_wf hs _ _ fun _ ht => State.queueOnly_wf ht fun _ _ => State.check_wf ht _ fun _ hu => hk _ _ _ hu
section
variable {s : State} (hs : s.hbm.wf)
include hs
@[simp] theorem execLaunch_wf (g d a b) : OutWf (execLaunch g d a b s) := by
  refine State.qWord_wf hs _ _ fun t cxn q ht => ?_
  split
  · exact ht
  · dsimp only
    split
    · exact State.launchSkew_wf ht ..
    · refine State.deviceRead_wf ht _ _ fun u bs hu => State.check_wf hu _ fun v hv => State.withDepList_wf hv _ fun w l hw => ?_
      simp [hw]
@[simp] theorem execKwait_wf (g d a) : OutWf (execKwait g d a s) := by simp +contextual [execKwait, hs]
@[simp] theorem execKstat_wf (g d a) : OutWf (execKstat g d a s) := by simp +contextual [execKstat, hs]
@[simp] theorem execQrd_wf (g d a) : OutWf (execQrd g d a s) := by
  refine State.qWord_wf hs _ _ fun t cxn q ht => ?_
  dsimp only
  split
  · simp [ht]
  · split <;> simp [ht]
@[simp] theorem execQrsmRead_wf (cxn q) : OutWf (execQrsmRead cxn q s) := by simp +contextual [execQrsmRead, hs]
@[simp] theorem execQwr_wf (g a b) : OutWf (execQwr g a b s) := by
  refine State.qWord_wf hs _ _ fun t cxn q ht => ?_
  dsimp only
  split
  · simp [ht]
  · split
    · split <;> simp [ht]
    · split <;> simp [ht]
@[simp] theorem execQctlHalt_wf (cxn q) : OutWf (execQctlHalt cxn q s) := by
  simp only [execQctlHalt]
  (repeat' split) <;> simp +contextual [hs]
@[simp] theorem execNpbeg_wf (g a) : OutWf (execNpbeg g a s) := by simp +contextual [execNpbeg, hs]
@[simp] theorem execNpend_wf (g) : OutWf (execNpend g s) := by simp +contextual [execNpend, hs]
@[simp] theorem execQsig_wf (g a) : OutWf (execQsig g a s) := by simp +contextual [execQsig, hs]
@[simp] theorem execCxrd_wf (g d a) : OutWf (execCxrd g d a s) := by
  refine State.qWord_wf hs _ _ fun t cxn q ht => ?_
  split <;> simp [ht]
@[simp] theorem execCxwr_wf (g a b) : OutWf (execCxwr g a b s) := by simp +contextual [execCxwr, hs]
@[simp] theorem execPcrd_wf (g d a) : OutWf (execPcrd g d a s) :=
  State.guarded_wf hs _ _ fun _ ht => State.check_wf ht _ fun _ hu => State.check_wf hu _ fun _ hv => by simp [hv]
@[simp] theorem execEclr_wf (g a b) : OutWf (execEclr g a b s) := by simp +contextual [execEclr, hs]
@[simp] theorem execAdmission_wf (cxn) : OutWf (execAdmission cxn s) := by simp +contextual [execAdmission, hs]
@[simp] theorem execAdmissionLoadsDone_wf (cxn h) : OutWf (execAdmissionLoadsDone cxn h s) := by simp +contextual [execAdmissionLoadsDone, hs]
@[simp] theorem execIterationPlaced_wf (cxn h g ord) : OutWf (execIterationPlaced cxn h g ord s) := by simp +contextual [execIterationPlaced, hs]
@[simp] theorem execJobStart_wf (core) : OutWf (execJobStart core s) := by simp +contextual [execJobStart, hs]
@[simp] theorem execEret_wf : OutWf (execEret s) := by simp +contextual [execEret, hs]
@[simp] theorem execEretAt_wf (a) : OutWf (execEretAt a s) := by simp +contextual [execEretAt, hs]
end
@[simp] theorem State.jobWord_wf {s : State} (hs : s.hbm.wf) {f} (hf : ∀ y0 y1 y2, y0.hbm.wf → (f y0 y1 y2).hbm.wf) : OutWf (s.jobWord f) := by
  simp +contextual [State.jobWord, hs, hf]
section
variable {s : State} (hs : s.hbm.wf)
include hs
@[simp] theorem execGres_wf (g p) : OutWf (execGres g p s) := by simp +contextual [execGres, hs]
@[simp] theorem execGset_wf (g v) : OutWf (execGset g v s) := by simp +contextual [execGset, hs]
@[simp] theorem execGmaskT_wf (m) : OutWf (execGmaskT m s) := by simp +contextual [execGmaskT, hs]
@[simp] theorem execGmaskF_wf (m) : OutWf (execGmaskF m s) := by simp +contextual [execGmaskF, hs]
@[simp] theorem execGclr_wf (m) : OutWf (execGclr m s) := by simp +contextual [execGclr, hs]
@[simp] theorem execGuardResolutionEffect_wf (core) : OutWf (execGuardResolutionEffect core s) := by simp +contextual [execGuardResolutionEffect, hs]
@[simp] theorem execChcfg_wf (c a b) : OutWf (execChcfg c a b s) := by simp +contextual [execChcfg, hs]
end
@[simp] theorem State.chanWord_wf {s : State} (hs : s.hbm.wf) (c : BitVec 4) {f} (hf : ∀ y0 y1 y2, y0.hbm.wf → (f y0 y1 y2).hbm.wf) :
    OutWf (s.chanWord c f) := by
  simp +contextual [State.chanWord, hs, hf]
section
variable {s : State} (hs : s.hbm.wf)
include hs
@[simp] theorem execChwaitFull_wf (c n) : OutWf (execChwaitFull c n s) := by simp +contextual [execChwaitFull, hs]
@[simp] theorem execChwaitFree_wf (c n) : OutWf (execChwaitFree c n s) := by simp +contextual [execChwaitFree, hs]
@[simp] theorem execChadvCons_wf (c n) : OutWf (execChadvCons c n s) := by simp +contextual [execChadvCons, hs]
@[simp] theorem execChadvProd_wf (c n) : OutWf (execChadvProd c n s) := by simp +contextual [execChadvProd, hs]
@[simp] theorem execChrst_wf (c) : OutWf (execChrst c s) := by simp +contextual [execChrst, hs]
@[simp] theorem execSemsig_wf (sr n) : OutWf (execSemsig sr n s) :=
  State.jobWord_wf hs fun t k _ ht => State.check_wf ht _ fun u hu => State.serveHeld_wf (by simp [hu]) ..
@[simp] theorem execSemwait_wf (sr n) : OutWf (execSemwait sr n s) := by
  refine State.jobWord_wf hs fun t k e ht => ?_
  split
  · exact State.serveHeld_wf (State.serveWait_wf ht ..) ..
  · exact ht
  · split <;> simp [ht]
@[simp] theorem execTwait_wf (t) : OutWf (execTwait t s) := by simp +contextual [execTwait, hs]
@[simp] theorem execCbwait_wf (a) : OutWf (execCbwait a s) := by simp +contextual [execCbwait, hs]
@[simp] theorem execTtest_wf (p t) : OutWf (execTtest p t s) := by simp +contextual [execTtest, hs]
@[simp] theorem execCbtest_wf (p a) : OutWf (execCbtest p a s) := by simp +contextual [execCbtest, hs]
@[simp] theorem execTffr_wf (d a) : OutWf (execTffr d a s) := by simp +contextual [execTffr, hs]
@[simp] theorem execXtst_wf (g d a) : OutWf (execXtst g d a s) :=
  State.engineOnly_wf hs fun _ _ => State.guarded_wf hs _ _ fun _ ht => State.check_wf ht _ fun _ hu => State.observe_wf hu _ _ _ _ fun _ _ _ hv => by simp [hv]
@[simp] theorem execXtclr_wf (g a) : OutWf (execXtclr g a s) :=
  State.engineOnly_wf hs fun _ _ => State.guarded_wf hs _ _ fun _ ht => State.check_wf ht _ fun _ hu => by simp [hu]
@[simp] theorem execVcwait_wf (a imm) : OutWf (execVcwait a imm s) := by simp +contextual [execVcwait, hs]
end
@[simp] theorem State.phase_wf {s : State} (hs : s.hbm.wf) (scope : Nat) : OutWf (s.phase scope) := by
  refine State.jobWord_wf hs fun t n e ht => ?_
  split <;> simp [ht]
section
variable {s : State} (hs : s.hbm.wf)
include hs
@[simp] theorem execPhaseG_wf : OutWf (execPhaseG s) := by simp +contextual [execPhaseG, hs]
@[simp] theorem execPhaseK_wf : OutWf (execPhaseK s) := by simp +contextual [execPhaseK, hs]
@[simp] theorem execPhaseX_wf : OutWf (execPhaseX s) := by simp +contextual [execPhaseX, hs]
@[simp] theorem execFence_wf (l e) : OutWf (execFence l e s) := by simp +contextual [execFence, hs]
@[simp] theorem execRdv_wf : OutWf (execRdv s) := by simp +contextual [execRdv, hs]
@[simp] theorem execIflush_wf : OutWf (execIflush s) := by simp +contextual [execIflush, hs]
@[simp] theorem execNop_wf : OutWf (execNop s) := by simp +contextual [execNop, hs]
@[simp] theorem execHint_wf (x y) : OutWf (execHint x y s) := by simp +contextual [execHint, hs]
@[simp] theorem execBar_wf (g) : OutWf (execBar g s) := by simp +contextual [execBar, hs]
@[simp] theorem execKbar_wf (g) : OutWf (execKbar g s) := by simp +contextual [execKbar, hs]
@[simp] theorem execPendingWriteLand_wf (core sq) : OutWf (execPendingWriteLand core sq s) := by simp +contextual [execPendingWriteLand, hs]
@[simp] theorem execRendezvous_wf (core) : OutWf (execRendezvous core s) := by simp +contextual [execRendezvous, hs]
end
@[simp] theorem State.mExec_wf {s : State} (hs : s.hbm.wf) (g : Guard) (len : Nat) {t : State → Nat → MTry} (ht : ∀ u n, (t u n).Keeps u.hbm) :
    OutWf (s.mExec g len t) :=
  State.engineOnly_wf hs fun n _ => State.guarded_wf hs _ _ fun u hu => by rw [State.mWord_hbm _ _ (ht u n)]; exact hu
section
variable {s : State} (hs : s.hbm.wf)
include hs
@[simp] theorem execMlda_wf (g a x) : OutWf (execMlda g a x s) := by simp +contextual [execMlda, hs]
@[simp] theorem execMldb_wf (g a x) : OutWf (execMldb g a x s) := by simp +contextual [execMldb, hs]
@[simp] theorem execMldas_wf (g a) : OutWf (execMldas g a s) := by simp +contextual [execMldas, hs]
@[simp] theorem execMldbs_wf (g a) : OutWf (execMldbs g a s) := by simp +contextual [execMldbs, hs]
@[simp] theorem execMma_wf (g a b p z prof fa fb km1) : OutWf (execMma g a b p z prof fa fb km1 s) := by simp +contextual [execMma, hs]
@[simp] theorem execMzero_wf (g) : OutWf (execMzero g s) := by simp +contextual [execMzero, hs]
@[simp] theorem execMshift_wf (g d a) : OutWf (execMshift g d a s) := by simp +contextual [execMshift, hs]
@[simp] theorem execMspill_wf (g d) : OutWf (execMspill g d s) := by simp +contextual [execMspill, hs]
@[simp] theorem execMfill_wf (g a) : OutWf (execMfill g a s) := by simp +contextual [execMfill, hs]
@[simp] theorem execMcfg_wf (g a) : OutWf (execMcfg g a s) := by simp +contextual [execMcfg, hs]
@[simp] theorem execMstat_wf (g d) : OutWf (execMstat g d s) := by simp +contextual [execMstat, hs]
@[simp] theorem execMwaitf_wf (g) : OutWf (execMwaitf g s) := by simp +contextual [execMwaitf, hs]
@[simp] theorem execMmaStart_wf (core) : OutWf (execMmaStart core s) := by simp +contextual [execMmaStart, hs]
@[simp] theorem execArrayStep_wf (core) : OutWf (execArrayStep core s) := by simp +contextual [execArrayStep, hs]
@[simp] theorem execMmaFin_wf (core) : OutWf (execMmaFin core s) := by simp +contextual [execMmaFin, hs]
@[simp] theorem execJoinStart_wf (core) : OutWf (execJoinStart core s) := by
  unfold execJoinStart
  split <;> simp +contextual [hs]
@[simp] theorem execPhaseRelease_wf (cxn h g) : OutWf (execPhaseRelease cxn h g s) := by simp +contextual [execPhaseRelease, hs]
@[simp] theorem execBarrierRelease_wf (cxn h g) : OutWf (execBarrierRelease cxn h g s) := by simp +contextual [execBarrierRelease, hs]
@[simp] theorem execVirtualCycle_wf (cxn h g) : OutWf (execVirtualCycle cxn h g s) := by simp +contextual [execVirtualCycle, hs]
@[simp] theorem execGroupUnpause_wf (cxn h g) : OutWf (execGroupUnpause cxn h g s) := by simp +contextual [execGroupUnpause, hs]
@[simp] theorem execInstanceComplete_wf (cxn h) : OutWf (execInstanceComplete cxn h s) := by simp +contextual [execInstanceComplete, hs]
@[simp] theorem execTrailModeChange_wf (cxn q mode) : OutWf (execTrailModeChange cxn q mode s) := by simp +contextual [execTrailModeChange, hs]
@[simp] theorem execTrrd_wf (g d a) : OutWf (execTrrd g d a s) := by
  refine State.qWord_wf hs _ _ fun t cxn q ht => ?_
  split <;> simp [ht]
@[simp] theorem execTrwr_wf (g a b) : OutWf (execTrwr g a b s) := by
  refine State.qWord_wf hs _ _ fun t cxn q ht => ?_
  dsimp only
  split
  · simp [ht]
  · refine State.check_wf ht _ fun u hu => ?_
    split
    · exact State.setMode_wf hu _ _ _ fun v hv => by simp [hv]
    · rw [State.fin_hbm]
      split
      · simp [hu]
      · split <;> simp [hu]
@[simp] theorem execHandlerEntry_wf (cxn q) : OutWf (execHandlerEntry cxn q s) := by simp +contextual [execHandlerEntry, hs]
@[simp] theorem execTrailWaitRelease_wf (cxn) : OutWf (execTrailWaitRelease cxn s) := by simp +contextual [execTrailWaitRelease, hs]
@[simp] theorem execReplayClockPassed_wf (cxn) : OutWf (execReplayClockPassed cxn s) := by simp +contextual [execReplayClockPassed, hs]
@[simp] theorem execReplayStallTimeout_wf (cxn) : OutWf (execReplayStallTimeout cxn s) := by simp +contextual [execReplayStallTimeout, hs]
@[simp] theorem execReplayPhaseRestart_wf (core) : OutWf (execReplayPhaseRestart core s) := by simp +contextual [execReplayPhaseRestart, hs]
@[simp] theorem execReplayClassAPoint_wf (cxn h g) : OutWf (execReplayClassAPoint cxn h g s) := by simp +contextual [execReplayClassAPoint, hs]
@[simp] theorem execTimetableChange_wf : OutWf (execTimetableChange s) := by simp +contextual [execTimetableChange, hs]
@[simp] theorem execTimetableSlot_wf : OutWf (execTimetableSlot s) := by simp +contextual [execTimetableSlot, hs]
@[simp] theorem execTokenRefill_wf : OutWf (execTokenRefill s) := by simp +contextual [execTokenRefill, hs]
@[simp] theorem execCongestionMark_wf (cxn fabric) : OutWf (execCongestionMark cxn fabric s) := by simp +contextual [execCongestionMark, hs]
@[simp] theorem execNpBoundExpired_wf (cxn q) : OutWf (execNpBoundExpired cxn q s) := by simp +contextual [execNpBoundExpired, hs]
@[simp] theorem execWatchdog_wf (cxn q) : OutWf (execWatchdog cxn q s) := by simp +contextual [execWatchdog, hs]
@[simp] theorem execQuantumExpiry_wf (cxn) : OutWf (execQuantumExpiry cxn s) := by simp +contextual [execQuantumExpiry, hs]
end
@[simp] theorem State.commandBy_wf {s : State} (hs : s.hbm.wf) (conds : List (Bool × Nat)) {k} (hk : ∀ y0, y0.hbm.wf → (k y0).hbm.wf) :
    OutWf (s.commandBy conds k) := by
  unfold State.commandBy
  (repeat' split) <;> simp +contextual [hs, hk]
@[simp] theorem State.command_wf {s : State} (hs : s.hbm.wf) (conds : List (Bool × Nat)) {k} (hk : ∀ y0, y0.hbm.wf → (k y0).hbm.wf) :
    OutWf (s.command conds k) := by
  simp +contextual [State.command, hs, hk]
section
variable {s : State} (hs : s.hbm.wf)
include hs
@[simp] theorem execUnknownCommand_wf (x) : OutWf (execUnknownCommand x s) := by simp +contextual [execUnknownCommand, hs]
@[simp] theorem execSetquant_wf (op) : OutWf (execSetquant op s) := by simp +contextual [execSetquant, hs]
@[simp] theorem execSetpcal_wf (op) : OutWf (execSetpcal op s) := by simp +contextual [execSetpcal, hs]
@[simp] theorem execPcread_wf (op) : OutWf (execPcread op s) := by simp +contextual [execPcread, hs]
@[simp] theorem execDevnum_wf (op) : OutWf (execDevnum op s) := by simp +contextual [execDevnum, hs]
@[simp] theorem execShares_wf (op) : OutWf (execShares op s) := by simp +contextual [execShares, hs]
@[simp] theorem execEvread_wf (op) : OutWf (execEvread op s) := by
  refine State.command_wf hs _ fun t ht => ?_
  split <;> simp [ht]
@[simp] theorem execS1invComplete_wf (cxn) : OutWf (execS1invComplete cxn s) := by
  unfold execS1invComplete
  split <;> simp +contextual [hs]
@[simp] theorem execInvalidationComplete_wf (cxn) : OutWf (execInvalidationComplete cxn s) := by
  unfold execInvalidationComplete
  split <;> simp +contextual [hs]
@[simp] theorem execTranslationComplete_wf (cxn) : OutWf (execTranslationComplete cxn s) := by simp +contextual [execTranslationComplete, hs]
@[simp] theorem execS2root_wf (op) : OutWf (execS2root op s) := by simp +contextual [execS2root, hs]
@[simp] theorem execS2inv_wf (op) : OutWf (execS2inv op s) := by simp +contextual [execS2inv, hs]
@[simp] theorem execWinset_wf (op) : OutWf (execWinset op s) := by simp +contextual [execWinset, hs]
@[simp] theorem execTrack_wf (op) : OutWf (execTrack op s) := by simp +contextual [execTrack, hs]
@[simp] theorem execSetgen_wf (op) : OutWf (execSetgen op s) := by simp +contextual [execSetgen, hs]
@[simp] theorem execFrset_wf (op) : OutWf (execFrset op s) := by simp +contextual [execFrset, hs]
@[simp] theorem execFrclr_wf (op) : OutWf (execFrclr op s) := by simp +contextual [execFrclr, hs]
@[simp] theorem execTierFetchComplete_wf (cxn ipa) : OutWf (execTierFetchComplete cxn ipa s) := by simp +contextual [execTierFetchComplete, hs]
@[simp] theorem execTierFetchFailed_wf (cxn ipa) : OutWf (execTierFetchFailed cxn ipa s) := by simp +contextual [execTierFetchFailed, hs]
@[simp] theorem execPeerRequest_wf (dcn off write bytes) : OutWf (execPeerRequest dcn off write bytes s) := by simp +contextual [execPeerRequest, hs]
@[simp] theorem execQstartWrite_wf (vf q val) : OutWf (execQstartWrite vf q val s) := by
  unfold execQstartWrite
  split <;> simp +contextual [hs]
@[simp] theorem execS1rootWrite_wf (vf val) : OutWf (execS1rootWrite vf val s) := by
  unfold execS1rootWrite
  split <;> simp +contextual [hs]
@[simp] theorem execS1invWrite_wf (vf val) : OutWf (execS1invWrite vf val s) := by
  unfold execS1invWrite
  split <;> simp +contextual [hs]
@[simp] theorem execHostWrite_wf (vf off bytes) : OutWf (execHostWrite vf off bytes s) := by
  unfold execHostWrite
  split <;> simp +contextual [hs]
@[simp] theorem execHostRead_wf (vf off len) : OutWf (execHostRead vf off len s) := by
  unfold execHostRead
  (repeat' split) <;> simp +contextual [hs]
@[simp] theorem execHostAtomicop_wf (vf off op size x y) : OutWf (execHostAtomicop vf off op size x y s) := by
  unfold execHostAtomicop
  split <;> simp +contextual [hs]
@[simp] theorem execPfBar2Access_wf (off acc) : OutWf (execPfBar2Access off acc s) := by
  unfold execPfBar2Access
  split <;> simp +contextual [hs]
@[simp] theorem execTrainingComplete_wf (port width full) : OutWf (execTrainingComplete port width full s) := by
  simp +contextual [execTrainingComplete, hs]
@[simp] theorem execTrainingFailed_wf (port) : OutWf (execTrainingFailed port s) := by simp +contextual [execTrainingFailed, hs]
@[simp] theorem execLanesLost_wf (port width) : OutWf (execLanesLost port width s) := by simp +contextual [execLanesLost, hs]
@[simp] theorem execLinkLevelReplay_wf (port) : OutWf (execLinkLevelReplay port s) := by simp +contextual [execLinkLevelReplay, hs]
@[simp] theorem execDrainComplete_wf (port) : OutWf (execDrainComplete port s) := by simp +contextual [execDrainComplete, hs]
@[simp] theorem execLinkReplayExhausted_wf (port) : OutWf (execLinkReplayExhausted port s) := by simp +contextual [execLinkReplayExhausted, hs]
@[simp] theorem execPortup_wf (op) : OutWf (execPortup op s) := by simp +contextual [execPortup, hs]
@[simp] theorem execPortdrain_wf (op) : OutWf (execPortdrain op s) := by simp +contextual [execPortdrain, hs]
@[simp] theorem execPortdown_wf (op) : OutWf (execPortdown op s) := by simp +contextual [execPortdown, hs]
@[simp] theorem execPortsts_wf (op) : OutWf (execPortsts op s) := by simp +contextual [execPortsts, hs]
@[simp] theorem execRouteset_wf (op) : OutWf (execRouteset op s) := by simp +contextual [execRouteset, hs]
@[simp] theorem execPipelineError_wf (site) : OutWf (execPipelineError site s) := by
  unfold execPipelineError
  split <;> simp +contextual [hs]
@[simp] theorem execSramEccError_wf (core e double) : OutWf (execSramEccError core e double s) := by simp +contextual [execSramEccError, hs]
@[simp] theorem execLlcEccError_wf (part double dirty) : OutWf (execLlcEccError part double dirty s) := by simp +contextual [execLlcEccError, hs]
@[simp] theorem execHbmEccError_wf (part uncorrectable) : OutWf (execHbmEccError part uncorrectable s) := by simp +contextual [execHbmEccError, hs]
@[simp] theorem execPatrolScrub_wf (part uncorrectable) : OutWf (execPatrolScrub part uncorrectable s) := by simp +contextual [execPatrolScrub, hs]
@[simp] theorem execRailBelowThreshold_wf (die) : OutWf (execRailBelowThreshold die s) := by simp +contextual [execRailBelowThreshold, hs]
@[simp] theorem execDectedSwitchComplete_wf (die) : OutWf (execDectedSwitchComplete die s) := by simp +contextual [execDectedSwitchComplete, hs]
@[simp] theorem execThermalWarning_wf (die) : OutWf (execThermalWarning die s) := by simp +contextual [execThermalWarning, hs]
@[simp] theorem execThermalShutdown_wf (x) : OutWf (execThermalShutdown x s) := by simp +contextual [execThermalShutdown, hs]
@[simp] theorem execEbread_wf (op) : OutWf (execEbread op s) :=
  State.command_wf hs _ fun _ ht => by
    rw [State.modGuide_hbm, State.mbData_hbm]
    exact ht
@[simp] theorem execEccnorm_wf (op) : OutWf (execEccnorm op s) := by simp +contextual [execEccnorm, hs]
@[simp] theorem execScrubper_wf (op) : OutWf (execScrubper op s) := by simp +contextual [execScrubper, hs]
@[simp] theorem execMext_wf (op) : OutWf (execMext op s) := by simp +contextual [execMext, hs]
end
@[simp] theorem State.answerTo_wf {s : State} (hs : s.hbm.wf) (op : BitVec 496) {rec} (hrec :
    ∀ y0 y1 y2 y3, y0.hbm.wf → (rec y0 y1 y2 y3).hbm.wf) {div} (hdiv : ∀ y0, y0.hbm.wf → (div y0).hbm.wf) : OutWf (s.answerTo op rec div) := by
  simp only [State.answerTo]
  (repeat' split) <;> simp +contextual [hs, hrec, hdiv]
section
variable {s : State} (hs : s.hbm.wf)
include hs
@[simp] theorem execResolve_wf (op) : OutWf (execResolve op s) := by simp +contextual [execResolve, hs]
@[simp] theorem execDeny_wf (op) : OutWf (execDeny op s) := by simp +contextual [execDeny, hs]
@[simp] theorem execBind_wf (op) : OutWf (execBind op s) := by simp +contextual [execBind, hs]
@[simp] theorem execUnbind_wf (op) : OutWf (execUnbind op s) := by simp +contextual [execUnbind, hs]
@[simp] theorem execVfFlr_wf (vf) : OutWf (execVfFlr vf s) := by
  unfold execVfFlr
  (repeat' split) <;> simp +contextual [hs]
@[simp] theorem execScrubComplete_wf (cxn) : OutWf (execScrubComplete cxn s) := by simp +contextual [execScrubComplete, hs]
@[simp] theorem execHamperValid_wf (cxn) : OutWf (execHamperValid cxn s) := by simp +contextual [execHamperValid, hs]
@[simp] theorem execPreempt_wf (op) : OutWf (execPreempt op s) := by simp +contextual [execPreempt, hs]
@[simp] theorem execDeferredPreemptStart_wf (cxn) : OutWf (execDeferredPreemptStart cxn s) := by
  unfold execDeferredPreemptStart
  split <;> simp +contextual [hs]
@[simp] theorem execResume_wf (op) : OutWf (execResume op s) := by simp +contextual [execResume, hs]
@[simp] theorem execMigrationPrecopyRound_wf (cxn) : OutWf (execMigrationPrecopyRound cxn s) := by simp +contextual [execMigrationPrecopyRound, hs]
@[simp] theorem execMigrationStep_wf (cxn) : OutWf (execMigrationStep cxn s) := by simp +contextual [execMigrationStep, hs]
@[simp] theorem execMigrationResumeAck_wf (cxn) : OutWf (execMigrationResumeAck cxn s) := by
  unfold execMigrationResumeAck
  split <;> simp +contextual [hs]
@[simp] theorem execMigout_wf (op) : OutWf (execMigout op s) := by simp +contextual [execMigout, hs]
@[simp] theorem execStop_wf (op) : OutWf (execStop op s) := by simp +contextual [execStop, hs]
@[simp] theorem execAbort_wf (op) : OutWf (execAbort op s) := by simp +contextual [execAbort, hs]
@[simp] theorem execMigrationAbortReceived_wf (cxn) : OutWf (execMigrationAbortReceived cxn s) := by
  unfold execMigrationAbortReceived
  split <;> simp +contextual [hs]
@[simp] theorem execMigin_wf (op) : OutWf (execMigin op s) := by simp +contextual [execMigin, hs]
@[simp] theorem execRebind_wf (op) : OutWf (execRebind op s) := by
  refine State.command_wf hs _ fun t ht => ?_
  rw [State.guideSend_hbm, State.stepEvent_hbm, State.stepEvent_hbm]
  exact State.restoreCtx_wf (by simp [ht]) ..
@[simp] theorem execGetVersion_wf (fn) : OutWf (execGetVersion fn s) := by simp +contextual [execGetVersion, hs]
@[simp] theorem execGetCapabilities_wf (fn) : OutWf (execGetCapabilities fn s) := by simp +contextual [execGetCapabilities, hs]
@[simp] theorem execNegotiateAlgorithms_wf (fn asym hash) : OutWf (execNegotiateAlgorithms fn asym hash s) := by
  simp +contextual [execNegotiateAlgorithms, hs]
@[simp] theorem execGetDigests_wf (fn) : OutWf (execGetDigests fn s) := by simp +contextual [execGetDigests, hs]
@[simp] theorem execGetCertificate_wf (fn slot off len) : OutWf (execGetCertificate fn slot off len s) := by simp +contextual [execGetCertificate, hs]
@[simp] theorem execChallenge_wf (fn slot nonce) : OutWf (execChallenge fn slot nonce s) := by simp +contextual [execChallenge, hs]
@[simp] theorem execGetMeasurements_wf (fn index sign nonce) : OutWf (execGetMeasurements fn index sign nonce s) := by
  simp only [execGetMeasurements]
  (repeat' split) <;> simp +contextual [hs]
@[simp] theorem execSpdmUnsupportedRequest_wf (fn code) : OutWf (execSpdmUnsupportedRequest fn code s) := by
  simp +contextual [execSpdmUnsupportedRequest, hs]
@[simp] theorem execDoeDiscovery_wf (fn index) : OutWf (execDoeDiscovery fn index s) := by simp +contextual [execDoeDiscovery, hs]
end
@[simp] theorem execColdReset_wf {s : State} : OutWf (execColdReset s) := by
  rw [execColdReset, outWf_next]
  exact Mem.wf_nil
section
variable {s : State} (hs : s.hbm.wf)
include hs
@[simp] theorem execPfFlr_wf : OutWf (execPfFlr s) := by simp +contextual [execPfFlr, hs]
@[simp] theorem execReset_wf (x) : OutWf (execReset x s) := by simp +contextual [execReset, hs]
end
@[simp] theorem runCommand_wf (code : Nat) (op : BitVec 496) {s : State} (hs : s.hbm.wf) : OutWf (runCommand code op s) := by
  unfold runCommand
  split <;> simp +contextual [hs]
@[simp] theorem State.go_wf {s : State} (hs : s.hbm.wf) : OutWf s.go := by simp +contextual [State.go, hs]
@[simp] theorem State.writePf_wf {s : State} (hs : s.hbm.wf) (off : Nat) (bytes : List Byte) : OutWf (s.writePf off bytes) := by
  simp +contextual [State.writePf, hs]
@[simp] theorem State.writeVf_wf {s : State} (hs : s.hbm.wf) (vf off : Nat) (bytes : List Byte) : OutWf (s.writeVf vf off bytes) := by
  simp +contextual [State.writeVf, hs]
section
variable {s : State} (hs : s.hbm.wf)
include hs
@[simp] theorem execRegisterWrite_wf (fn off bytes) : OutWf (execRegisterWrite fn off bytes s) := by simp +contextual [execRegisterWrite, hs]
end
@[simp] theorem runAuto_wf (a : Auto) {s : State} (hs : s.hbm.wf) : OutWf (runAuto a s) := by
  unfold runAuto
  split <;> simp +contextual [hs]

/-! `Machine/Control`. -/

section
variable {s : State} (hs : s.hbm.wf)
include hs
@[simp] theorem execPtgt_wf (t imm) : OutWf (execPtgt t imm s) := by simp +contextual [execPtgt, hs]
@[simp] theorem execPtgtr_wf (t a) : OutWf (execPtgtr t a s) := by simp +contextual [execPtgtr, hs]
@[simp] theorem execJ_wf (t) : OutWf (execJ t s) := by simp +contextual [execJ, hs]
@[simp] theorem execJt_wf (t p) : OutWf (execJt t p s) := by simp +contextual [execJt, hs]
@[simp] theorem execJf_wf (t p) : OutWf (execJf t p s) := by simp +contextual [execJf, hs]
@[simp] theorem execCall_wf (t) : OutWf (execCall t s) := by simp +contextual [execCall, hs]
@[simp] theorem execRet_wf : OutWf (execRet s) := by simp +contextual [execRet, hs]
@[simp] theorem execLoop_wf (d l) : OutWf (execLoop d l s) := by simp +contextual [execLoop, hs]
@[simp] theorem execLoopi_wf (l n) : OutWf (execLoopi l n s) := by simp +contextual [execLoopi, hs]
@[simp] theorem execEndl_wf : OutWf (execEndl s) := by simp +contextual [execEndl, hs]
@[simp] theorem execEndlRot_wf : OutWf (execEndlRot s) := by simp +contextual [execEndlRot, hs]
@[simp] theorem execTrap_wf (imm) : OutWf (execTrap imm s) := by simp +contextual [execTrap, hs]
end
@[simp] theorem State.dword_wf {s : State} (hs : s.hbm.wf) (g : Guard) (peek : BitVec 1) (fields : Bool) (srcs : Shape → List (F6 × Nat))
    (dst : Shape → Option (F6 × Nat)) (conds : Shape → List (Bool × Nat)) (interval : Shape → Nat) {k : State → Nat → Core → Nat → List VVal → State}
    (hk : ∀ t n c j vs, (k t n c j vs).hbm = t.hbm) : OutWf (s.dword g peek fields srcs dst conds interval k) :=
  State.vword_wf_of_put hs _ _ _ fun _ _ _ _ => hk ..
section
variable {s : State} (hs : s.hbm.wf)
include hs
@[simp] theorem execDnorm_wf (g d a p) : OutWf (execDnorm g d a p s) := by simp +contextual [execDnorm, hs]
@[simp] theorem execDexp_wf (g d a m) : OutWf (execDexp g d a m s) := by simp +contextual [execDexp, hs]
@[simp] theorem execDdot_wf (g d a b m) : OutWf (execDdot g d a b m s) := by simp +contextual [execDdot, hs]
@[simp] theorem execDdotm_wf (g d a b) : OutWf (execDdotm g d a b s) := by simp +contextual [execDdotm, hs]
@[simp] theorem execDscale_wf (g d a b) : OutWf (execDscale g d a b s) := by simp +contextual [execDscale, hs]
end
@[simp] theorem State.dirSum_wf {s : State} (hs : s.hbm.wf) (sb : Int) (g : Guard) (d a b : F6) : OutWf (s.dirSum sb g d a b) := by
  simp +contextual [State.dirSum, hs]
section
variable {s : State} (hs : s.hbm.wf)
include hs
@[simp] theorem execDadd_wf (g d a b) : OutWf (execDadd g d a b s) := by simp +contextual [execDadd, hs]
@[simp] theorem execDsub_wf (g d a b) : OutWf (execDsub g d a b s) := by simp +contextual [execDsub, hs]
@[simp] theorem execDneg_wf (g d a) : OutWf (execDneg g d a s) := by simp +contextual [execDneg, hs]
@[simp] theorem execDmovn_wf (g d a) : OutWf (execDmovn g d a s) := State.vword_wf_of_put hs _ _ _ fun _ _ _ _ => by simp
@[simp] theorem execDsetn_wf (g d a) : OutWf (execDsetn g d a s) := State.vword_wf_of_put hs _ _ _ fun _ _ _ _ => by dsimp only; split <;> simp
@[simp] theorem execDtest_wf (g d a) : OutWf (execDtest g d a s) := by simp +contextual [execDtest, hs]
@[simp] theorem execAdd_wf (d a b) : OutWf (execAdd d a b s) := by simp +contextual [execAdd, hs]
@[simp] theorem execSub_wf (d a b) : OutWf (execSub d a b s) := by simp +contextual [execSub, hs]
@[simp] theorem execMul_wf (d a b) : OutWf (execMul d a b s) := by simp +contextual [execMul, hs]
@[simp] theorem execMulh_wf (d a b) : OutWf (execMulh d a b s) := by simp +contextual [execMulh, hs]
@[simp] theorem execMulhu_wf (d a b) : OutWf (execMulhu d a b s) := by simp +contextual [execMulhu, hs]
@[simp] theorem execDiv_wf (d a b) : OutWf (execDiv d a b s) := by simp +contextual [execDiv, hs]
@[simp] theorem execDivu_wf (d a b) : OutWf (execDivu d a b s) := by simp +contextual [execDivu, hs]
@[simp] theorem execRem_wf (d a b) : OutWf (execRem d a b s) := by simp +contextual [execRem, hs]
@[simp] theorem execRemu_wf (d a b) : OutWf (execRemu d a b s) := by simp +contextual [execRemu, hs]
@[simp] theorem execAnd_wf (d a b) : OutWf (execAnd d a b s) := by simp +contextual [execAnd, hs]
@[simp] theorem execOr_wf (d a b) : OutWf (execOr d a b s) := by simp +contextual [execOr, hs]
@[simp] theorem execXor_wf (d a b) : OutWf (execXor d a b s) := by simp +contextual [execXor, hs]
@[simp] theorem execShl_wf (d a b) : OutWf (execShl d a b s) := by simp +contextual [execShl, hs]
@[simp] theorem execShr_wf (d a b) : OutWf (execShr d a b s) := by simp +contextual [execShr, hs]
@[simp] theorem execSra_wf (d a b) : OutWf (execSra d a b s) := by simp +contextual [execSra, hs]
@[simp] theorem execMin_wf (d a b) : OutWf (execMin d a b s) := by simp +contextual [execMin, hs]
@[simp] theorem execMinu_wf (d a b) : OutWf (execMinu d a b s) := by simp +contextual [execMinu, hs]
@[simp] theorem execMax_wf (d a b) : OutWf (execMax d a b s) := by simp +contextual [execMax, hs]
@[simp] theorem execMaxu_wf (d a b) : OutWf (execMaxu d a b s) := by simp +contextual [execMaxu, hs]
@[simp] theorem execSel_wf (d a b p) : OutWf (execSel d a b p s) := by simp +contextual [execSel, hs]
@[simp] theorem execAddi_wf (d a imm) : OutWf (execAddi d a imm s) := by simp +contextual [execAddi, hs]
@[simp] theorem execAndi_wf (d a imm) : OutWf (execAndi d a imm s) := by simp +contextual [execAndi, hs]
@[simp] theorem execOri_wf (d a imm) : OutWf (execOri d a imm s) := by simp +contextual [execOri, hs]
@[simp] theorem execXori_wf (d a imm) : OutWf (execXori d a imm s) := by simp +contextual [execXori, hs]
@[simp] theorem execShli_wf (d a imm) : OutWf (execShli d a imm s) := by simp +contextual [execShli, hs]
@[simp] theorem execShri_wf (d a imm) : OutWf (execShri d a imm s) := by simp +contextual [execShri, hs]
@[simp] theorem execSrai_wf (d a imm) : OutWf (execSrai d a imm s) := by simp +contextual [execSrai, hs]
@[simp] theorem execMuli_wf (d a imm) : OutWf (execMuli d a imm s) := by simp +contextual [execMuli, hs]
@[simp] theorem execLi_wf (d imm) : OutWf (execLi d imm s) := by simp +contextual [execLi, hs]
@[simp] theorem execLih_wf (d imm) : OutWf (execLih d imm s) := by simp +contextual [execLih, hs]
@[simp] theorem execAdda_wf (d a b) : OutWf (execAdda d a b s) := by simp +contextual [execAdda, hs]
@[simp] theorem execAddai_wf (d a imm) : OutWf (execAddai d a imm s) := by simp +contextual [execAddai, hs]
@[simp] theorem execMova_wf (d a) : OutWf (execMova d a s) := by simp +contextual [execMova, hs]
@[simp] theorem execMovs_wf (d a) : OutWf (execMovs d a s) := by simp +contextual [execMovs, hs]
@[simp] theorem execCmp_wf (c p a b) : OutWf (execCmp c p a b s) := by simp +contextual [execCmp, hs]
@[simp] theorem execCmpi_wf (c p a imm) : OutWf (execCmpi c p a imm s) := by simp +contextual [execCmpi, hs]
@[simp] theorem execPand_wf (d a b) : OutWf (execPand d a b s) := by simp +contextual [execPand, hs]
@[simp] theorem execPor_wf (d a b) : OutWf (execPor d a b s) := by simp +contextual [execPor, hs]
@[simp] theorem execPxor_wf (d a b) : OutWf (execPxor d a b s) := by simp +contextual [execPxor, hs]
@[simp] theorem execPandn_wf (d a b) : OutWf (execPandn d a b s) := by simp +contextual [execPandn, hs]
end
@[simp] theorem State.elementwise_wf {s : State} (hs : s.hbm.wf) (op : VOp) (g : Guard) (d a b : F6) (p : BitVec 1) :
    OutWf (s.elementwise op g d a b p) :=
  State.vword_wf_of_put hs _ _ _ fun _ _ _ _ => by simp
section
variable {s : State} (hs : s.hbm.wf)
include hs
@[simp] theorem execVadd_wf (g d a b p) : OutWf (execVadd g d a b p s) := by simp +contextual [execVadd, hs]
@[simp] theorem execVsub_wf (g d a b p) : OutWf (execVsub g d a b p s) := by simp +contextual [execVsub, hs]
@[simp] theorem execVmul_wf (g d a b p) : OutWf (execVmul g d a b p s) := by simp +contextual [execVmul, hs]
@[simp] theorem execVfma_wf (g d a b p) : OutWf (execVfma g d a b p s) := by simp +contextual [execVfma, hs]
@[simp] theorem execVfms_wf (g d a b p) : OutWf (execVfms g d a b p s) := by simp +contextual [execVfms, hs]
@[simp] theorem execVmin_wf (g d a b p) : OutWf (execVmin g d a b p s) := by simp +contextual [execVmin, hs]
@[simp] theorem execVmax_wf (g d a b p) : OutWf (execVmax g d a b p s) := by simp +contextual [execVmax, hs]
@[simp] theorem execVabs_wf (g d a p) : OutWf (execVabs g d a p s) := by simp +contextual [execVabs, hs]
@[simp] theorem execVneg_wf (g d a p) : OutWf (execVneg g d a p s) := by simp +contextual [execVneg, hs]
@[simp] theorem execVand_wf (g d a b p) : OutWf (execVand g d a b p s) := by simp +contextual [execVand, hs]
@[simp] theorem execVor_wf (g d a b p) : OutWf (execVor g d a b p s) := by simp +contextual [execVor, hs]
@[simp] theorem execVxor_wf (g d a b p) : OutWf (execVxor g d a b p s) := by simp +contextual [execVxor, hs]
@[simp] theorem execVshl_wf (g d a b p) : OutWf (execVshl g d a b p s) := by simp +contextual [execVshl, hs]
@[simp] theorem execVshr_wf (g d a b p) : OutWf (execVshr g d a b p s) := by simp +contextual [execVshr, hs]
@[simp] theorem execVsra_wf (g d a b p) : OutWf (execVsra g d a b p s) := by simp +contextual [execVsra, hs]
@[simp] theorem execVmulh_wf (g d a b p) : OutWf (execVmulh g d a b p s) := by simp +contextual [execVmulh, hs]
@[simp] theorem execVadds_wf (g d a b p) : OutWf (execVadds g d a b p s) := by simp +contextual [execVadds, hs]
@[simp] theorem execVsubs_wf (g d a b p) : OutWf (execVsubs g d a b p s) := by simp +contextual [execVsubs, hs]
@[simp] theorem execVcmp_wf (g c v a b p h) : OutWf (execVcmp g c v a b p h s) := by
  unfold execVcmp
  exact State.vword_wf_of_put hs _ _ _ fun _ _ _ _ => by simp
@[simp] theorem execVsel_wf (g d a b p) : OutWf (execVsel g d a b p s) := State.vword_wf_of_put hs _ _ _ fun _ _ _ _ => by simp
end
@[simp] theorem State.vpOp_wf {s : State} (hs : s.hbm.wf) (f : Bool → Bool → Bool) (g : Guard) (d a b : F6) (x : BitVec 1) :
    OutWf (s.vpOp f g d a b x) :=
  State.vword_wf_of_put hs _ _ _ fun _ _ _ _ => by simp
section
variable {s : State} (hs : s.hbm.wf)
include hs
@[simp] theorem execVpand_wf (g d a b n) : OutWf (execVpand g d a b n s) := by simp +contextual [execVpand, hs]
@[simp] theorem execVpor_wf (g d a b n) : OutWf (execVpor g d a b n s) := by simp +contextual [execVpor, hs]
@[simp] theorem execVpxor_wf (g d a b n) : OutWf (execVpxor g d a b n s) := by simp +contextual [execVpxor, hs]
end
@[simp] theorem State.vpReduce_wf {s : State} (hs : s.hbm.wf) (all : Bool) (g : Guard) (d : BitVec 4) (a : F6) (m : BitVec 1) :
    OutWf (s.vpReduce all g d a m) :=
  State.vword_wf_of_put hs _ _ _ fun _ _ _ _ => by dsimp only; split <;> simp
section
variable {s : State} (hs : s.hbm.wf)
include hs
@[simp] theorem execVany_wf (g d a m) : OutWf (execVany g d a m s) := by simp +contextual [execVany, hs]
@[simp] theorem execVall_wf (g d a m) : OutWf (execVall g d a m s) := by simp +contextual [execVall, hs]
@[simp] theorem execVpmov_wf (g d a m) : OutWf (execVpmov g d a m s) := by
  unfold execVpmov
  split <;> exact State.vword_wf_of_put hs _ _ _ fun _ _ _ _ => by simp
@[simp] theorem execVcvt_wf (g d a t p) : OutWf (execVcvt g d a t p s) := by
  unfold execVcvt
  exact State.vword_wf_of_put hs _ _ _ fun _ _ _ _ => by simp
@[simp] theorem execVcvts_wf (g d a t p) : OutWf (execVcvts g d a t p s) := by
  unfold execVcvts
  exact State.vword_wf_of_put hs _ _ _ fun _ _ _ _ => by simp
@[simp] theorem execVquant_wf (g d a t p) : OutWf (execVquant g d a t p s) := by
  unfold execVquant
  exact State.vword_wf_of_put hs _ _ _ fun _ _ _ _ => by simp
end
@[simp] theorem State.vred_wf {s : State} (hs : s.hbm.wf) (op : RedOp) (row : Bool) (g : Guard) (d a : F6) (p : BitVec 1) :
    OutWf (s.vred op row g d a p) :=
  State.vword_wf_of_put hs _ _ _ fun _ _ _ _ => by simp
section
variable {s : State} (hs : s.hbm.wf)
include hs
@[simp] theorem execVrsum_wf (g d a p) : OutWf (execVrsum g d a p s) := by simp +contextual [execVrsum, hs]
@[simp] theorem execVcsum_wf (g d a p) : OutWf (execVcsum g d a p s) := by simp +contextual [execVcsum, hs]
@[simp] theorem execVrmax_wf (g d a p) : OutWf (execVrmax g d a p s) := by simp +contextual [execVrmax, hs]
@[simp] theorem execVcmax_wf (g d a p) : OutWf (execVcmax g d a p s) := by simp +contextual [execVcmax, hs]
@[simp] theorem execVrmin_wf (g d a p) : OutWf (execVrmin g d a p s) := by simp +contextual [execVrmin, hs]
@[simp] theorem execVcmin_wf (g d a p) : OutWf (execVcmin g d a p s) := by simp +contextual [execVcmin, hs]
@[simp] theorem execVperm_wf (g d a b p) : OutWf (execVperm g d a b p s) := State.vword_wf_of_put hs _ _ _ fun _ _ _ _ => by simp
@[simp] theorem execVbcr_wf (g d a b p) : OutWf (execVbcr g d a b p s) := State.vword_wf_of_put hs _ _ _ fun _ _ _ _ => by simp
@[simp] theorem execVbcc_wf (g d a b p) : OutWf (execVbcc g d a b p s) := State.vword_wf_of_put hs _ _ _ fun _ _ _ _ => by simp
@[simp] theorem execVtrn_wf (g d a p) : OutWf (execVtrn g d a p s) := State.vword_wf_of_put hs _ _ _ fun _ _ _ _ => by simp
@[simp] theorem execVmov_wf (g d a p) : OutWf (execVmov g d a p s) := State.vword_wf_of_put hs _ _ _ fun _ _ _ _ => by simp
@[simp] theorem execVbcs_wf (g d a) : OutWf (execVbcs g d a s) := State.vword_wf_of_put hs _ _ _ fun _ _ _ _ => by simp
@[simp] theorem exec_wf (i) : OutWf (exec i s) := by
  unfold exec
  split <;> simp +contextual [hs]
end
theorem State.ordered_wf (s : State) (a : Act) (i : Option Instr) {x : Out} (hx : OutWf x) : OutWf (s.ordered a i x) := by
  cases x with
  | next t =>
    rw [State.ordered, outWf_next, State.noteOrder_hbm]
    exact hx
  | fault _ => trivial
  | refused _ => trivial

/-! `Machine/Step`. -/

theorem issueStep_wf {s : State} (hs : s.hbm.wf) (ag : Agent) : OutWf (issueStep s ag) := by
  have ht := s.turn_wf hs ag
  unfold issueStep
  split
  next i t h => exact State.ordered_wf _ _ _ (exec_wf (by simpa [h] using ht) i)
  next g c t h => exact execIllegalInstruction_wf (by simpa [h] using ht) g c
  next t h => simpa [h] using ht
theorem actStep_wf {s : State} (hs : s.hbm.wf) (a : Act) : OutWf (actStep s a) := by
  cases a with
  | ev i => exact State.ordered_wf _ _ _ (exec_wf hs i)
  | auto a => exact runAuto_wf a hs
  | issue ag => exact issueStep_wf hs ag
theorem darkStep_wf {s : State} (hs : s.hbm.wf) : OutWf (darkStep s) := by
  unfold darkStep
  split
  · trivial
  · split
    · exact execColdReset_wf
    · exact hs
theorem step_wf {s : State} (hs : s.hbm.wf) : OutWf (step s) := by
  unfold step
  split
  · exact darkStep_wf hs
  · split
    · exact State.bootStep_wf hs
    · split
      · exact actStep_wf (by exact hs) _
      · exact exec_wf (by exact hs) _
      · exact State.planCycle_wf hs
end Sys2Proof.Machine
end

section
open Sys2Proof Sys2Proof.Machine
/-- Settles O59: what a step runs writes memory through the operations above alone, each of which keeps its form. -/
theorem stepKeepsForm : Obligations.StepKeepsForm := by
  unfold Obligations.StepKeepsForm
  intro s t hs h
  have hw := step_wf hs
  rw [h] at hw
  exact hw
end

section
/-! Transfers, calls, loops, traps and guard slots: what each control instruction comes to (R136 to R145, R149, R150, R168). -/
namespace Sys2Proof.Machine

/-! Delay slots (R138). -/

theorem State.notInSlot_free {s : State} (h : (s.stream s.cur).inSlot = false) (k : State → State) : s.notInSlot k = k s := by
  simp [State.notInSlot, h]
theorem State.notInSlot_slot {s : State} (h : (s.stream s.cur).inSlot = true) (k : State → State) : s.notInSlot k = s.cause 10 := by
  simp [State.notInSlot, h]
theorem State.stream_of_job {s : State} {n : Nat} {e : Engine} (h : s.cur = .job n e) : s.stream s.cur = (s.core n).str e := by
  rw [h, State.stream_job]

/-- With two slots left to run a redirect takes effect past the second instruction. -/
theorem Stream.advance_redirect_two {x : Stream} {target : W64} (h : x.redirect = some (target, 2)) (len : Nat) :
    x.advance len = { x with pc := x.pc + BitVec.ofNat 64 len, redirect := some (target, 1) } := by
  simp only [Stream.advance, h]
theorem Stream.advance_redirect_one {x : Stream} {target : W64} (h : x.redirect = some (target, 1)) (len : Nat) :
    x.advance len = { x with pc := target, redirect := none, loops := endLoops target x.loops } := by
  simp only [Stream.advance, h]

/-- The offset of a target is a number of words (R136). -/
theorem signExtend_words {w : Nat} (imm : BitVec w) : imm.signExtend 64 * 4 = BitVec.ofInt 64 (4 * imm.toInt) := by
  rw [Int.mul_comm, BitVec.ofInt_mul]
  rfl

/-! Transfers outside a delay slot. -/

section
variable {s : State} {n : Nat} {e : Engine} (h : s.cur = .job n e)
include h

theorem State.jump_free (hx : ((s.core n).str e).inSlot = false) (t : BitVec 3) (b : Bool) :
    s.jump t b = s.transfer b (((s.core n).str e).rt t.toNat) := by
  rw [State.jump, State.notInSlot_free (by rwa [State.stream_of_job h]), State.stream_of_job h]

/-- A target written by a job pends one cycle. -/
theorem exec_putT (t : BitVec 3) (v : W64) : (s.putT s.cur t.toNat v 1).fin 4 1 = s.jobPut n e (.t e t.toNat v) 1 := by
  have hc : (s.putT (.job n e) t.toNat v 1).cur = .job n e := h
  rw [h, State.fin, hc, State.putT_job, Nat.mod_eq_of_lt t.isLt, State.jobPut]

/-- CALL with room in the return stack: the redirect, and the return address pushed (R140). -/
theorem State.call_room (hx : ((s.core n).str e).inSlot = false) (hr : ((s.core n).str e).rs.length < 16) (t : BitVec 3) :
    s.call t = (s.jumped n e (((s.core n).str e).rt t.toNat)).modCore n fun c =>
      c.setStr e { c.str e with rs := s.returnAddr :: ((s.core n).str e).rs } := by
  have hs := State.stream_of_job h
  rw [State.call, State.notInSlot_free (by rwa [hs])]
  dsimp only
  rw [hs, if_pos hr, State.callGo, hs, State.transfer_taken h, h, State.modStream_job]
  apply State.modCore_congr
  simp only [State.jumped, State.core_modCore_same, State.core_jobDid, Core.past, Core.str_setStr, id]
  rw [Stream.advance.eq_def]
  split <;> rfl

/-- RET with an entry in the return stack, none of it on its way out: the redirect, and the entry popped (R141). -/
theorem State.ret_entry (hx : ((s.core n).str e).inSlot = false) {r : W64} {rest : List W64} (hr : ((s.core n).str e).rs = r :: rest)
    (hd : ∀ d, ((s.core n).str e).hold ≠ .spill d) :
    s.ret = (s.jumped n e r).modCore n fun c => c.setStr e { c.str e with rs := rest } := by
  have hs := State.stream_of_job h
  rw [State.ret, State.notInSlot_free (by rwa [hs])]
  simp only [hs, hr, Bool.false_eq_true, if_false, State.transfer_taken h]
  rw [h, State.modStream_job]

end

/-! Forms that may not stand in a delay slot (R138). -/

/-- A transfer, a loop form or RDV in a delay slot raises cause 10. -/
theorem exec_inSlot {s : State} {n : Nat} {e : Engine} (h : s.cur = .job n e) (hx : ((s.core n).str e).inSlot = true) {i : Instr} {t : BitVec 3}
    {p : BitVec 4} {d l : F6} {k : BitVec 18} (hi : i = .j t ∨ i = .jt t p ∨ i = .jf t p ∨ i = .call t ∨ i = .ret ∨ i = .loop d l ∨ i = .loopi l k ∨
      i = .endl ∨ i = .endlRot ∨ i = .rdv) : exec i s = .next (s.cause 10) := by
  have hs := fun k => State.notInSlot_slot (s := s) (by rwa [State.stream_of_job h]) k
  rcases hi with rfl | rfl | rfl | rfl | rfl | rfl | rfl | rfl | rfl | rfl
  case inr.inr.inr.inr.inr.inr.inr.inr.inr =>
    show execRdv s = _
    rw [execRdv, State.jobWord_job h, hs]
  all_goals exact congrArg _ (hs _)

/-! Loops (R142 to R145). -/

/-- A stream that stands in no delay slot goes on to the next word. -/
theorem Stream.advance_free {x : Stream} (h : x.inSlot = false) (len : Nat) : x.advance len = { x with pc := x.pc + BitVec.ofNat 64 len } := by
  simp only [Stream.inSlot, Bool.or_eq_false_iff, Option.isSome_eq_false_iff, Option.isNone_iff_eq_none, decide_eq_false_iff_not, Nat.not_lt,
    Nat.le_zero] at h
  obtain ⟨hr, hs⟩ := h
  simp only [Stream.advance, hr, hs, Nat.zero_sub]

section
variable {s : State} {n : Nat} {e : Engine} (h : s.cur = .job n e) (hx : ((s.core n).str e).inSlot = false)
include h hx

/-- A loop whose body ends at an ENDL starts, or is passed over for no iteration (R142). -/
theorem State.loop_started {w : W32} {m : BitVec 32} {len : Nat} (hl : ((s.core n).str e).loops.length < 4)
    (hw : s.fetchWord s.cur (((s.core n).str e).pc + BitVec.ofNat 64 (4 * len)).toNat = .word w)
    (hd : decodeWord e w 0 = .ok .endl ∨ decodeWord e w 0 = .ok .endlRot) :
    let x := (s.core n).str e
    let stop := x.pc + BitVec.ofNat 64 (4 * len)
    s.loop m len = (s.jobDid n e 4 1 id).modCore n fun c => c.setStr e
       (if m = 0 then { c.str e with pc := stop + 4 }
        else { c.str e with loops := { start := x.pc + 4, stop := stop, remaining := m } :: x.loops, lbuf := if x.loops = [] then [] else x.lbuf }) := by
  intro x stop
  have hs := State.stream_of_job h
  rw [State.loop, State.notInSlot_free (by rwa [hs]), State.check_one_ok (by rw [hs]; exact decide_eq_true hl)]
  dsimp only
  rw [hs, hw]
  have he : agentEngine s.cur = e := by rw [h]; rfl
  simp only [he, State.fin_job h]
  have hgo : ∀ z : Stream → Stream, (s.jobDid n e 4 1 id).modStream s.cur z = (s.jobDid n e 4 1 id).modCore n fun c => c.setStr e (z (c.str e)) := by
    intro z
    rw [h, State.modStream_job]
  rcases hd with hd | hd <;>
  · rw [hd]
    dsimp only
    rw [hgo]
    apply State.modCore_congr
    simp only [State.core_jobDid, Core.past, Core.str_setStr, id, Stream.advance_free hx]
    rfl

/-- A step of the stream of a job back to the start of its innermost loop, or out of it (R143). -/
theorem State.endLoop_ends {lp : Loop} {ls : List Loop} (hl : ((s.core n).str e).loops = lp :: ls) (hp : lp.stop = ((s.core n).str e).pc)
    (rot : Bool) :
    s.endLoop rot = (s.jobDid n e 4 1 fun c => if rot = true ∧ e = .V then { c with shape := rotate c.shape } else c).modCore n fun c => c.setStr e
       (if lp.remaining = 1 then { c.str e with loops := ls }
        else { c.str e with pc := lp.start, loops := { lp with remaining := lp.remaining - 1 } :: ls }) := by
  have hs := State.stream_of_job h
  rw [State.endLoop, State.notInSlot_free (by rwa [hs])]
  dsimp only
  rw [hs, hl]
  simp only [hp, ne_eq, not_true_eq_false, if_false, h]
  have plain : ∀ e', s.cur = .job n e' → s.fin 4 1 = s.jobDid n e' 4 1 fun c => c := fun e' h' => State.fin_job h' 4 1
  split
  · rename_i hj
    cases hj
    rw [State.fin_modCore h 4 1 (fun c => { c with shape := rotate c.shape }) rfl]
    simp only [State.modStream_job, and_self, if_true]
  · rename_i r _ _ hne
    have hf : ¬ (r = true ∧ e = .V) := by
      rintro ⟨rfl, rfl⟩
      exact hne n rfl rfl
    simp only [hf, if_false, plain e h, State.modStream_job]

end

/-! TRAP (R168). -/

@[simp] theorem Core.setStr_str (c : Core) (e : Engine) : c.setStr e (c.str e) = c := by cases e <;> rfl

/-- The entry of a trap of a job whose cycle does not stand. -/
theorem State.trapsTo_trapJob_alone (s : State) (n : Nat) (e : Engine) (c a : Nat) (hs : (s.core n).stop = none) :
    s.trapsTo (s.trapJob n e c a) n e c a := by
  simp only [State.trapJob, hs, Option.isSome_none, Bool.false_eq_true, if_false]
  generalize hg : (s.modCore n fun x => { x with stop := some { cause := c, strm := e, faddr := a, held := false, parked := false, cycle := s.now n } }) = s1
  obtain ⟨hctx, hrest⟩ := State.pauseCore_frame s1 n 2
  have hc : ∀ m, (s1.pauseCore n 2).core m = s1.core m := fun m => by
    rw [hrest]
    rfl
  subst hg
  refine ⟨?_, fun m hm => ?_, fun k => by rw [hctx]; simp, by rw [hrest]; rfl⟩
  · rw [hc]
    simp
  · rw [hc]
    simp [State.core_modCore, hm]

/-- A change that leaves the core of an instruction that issued as it is. -/
theorem State.modCore_jobDid_self (s : State) (n : Nat) (e : Engine) (len k : Nat) (f g : Core → Core)
    (hg : g ((s.jobDid n e len k f).core n) = (s.jobDid n e len k f).core n) : (s.jobDid n e len k f).modCore n g = s.jobDid n e len k f := by
  rw [State.modCore, hg, State.core_jobDid]
  simp only [State.jobDid, State.setCore, aset_aset]

theorem State.trap_job {s : State} {n : Nat} {e : Engine} (h : s.cur = .job n e) (hs : (s.core n).stop = none)
    (imm : BitVec 3) :
    s.trap imm = ((s.jobDid n e 4 1 id).modCore n fun c => c.setStr e (((s.core n).str e).pastTrap (c.str e))).trapJob n e (56 + imm.toNat) 0 := by
  simp only [State.trap, h, hs, Option.isSome_none, Bool.false_eq_true, if_false, State.fin_job h, State.modStream_job, State.stream_job]

/-! Guard slots (R149, R150). -/

/-- A word that notes a resolution for the next cycle and goes on. -/
theorem State.resolve_fin1 {s : State} {n : Nat} {e : Engine} (h : s.cur = .job n e) (m : BitVec 16) (res val : Bool) :
    (s.resolve n e m res val 1).fin1 = s.jobDid n e 4 1 fun c => c.noteGuard (s.now n + 1) e m res val :=
  State.fin_modCore h 4 1 _ rfl

theorem Core.applyGuards_due {c : Core} {v k now : Nat} {m : BitVec 16} {res val : Bool} (h : c.gpend = [⟨v, k, m, res, val⟩]) (hv : v ≤ now) :
    c.applyGuards now = { c with
      gpend := []
      gres := if res then c.gres ||| m else c.gres &&& ~~~ m
      gval := if res && val then c.gval ||| m else c.gval &&& ~~~ m } := by
  have due : c.gpend.filter (fun x => decide (x.cycle ≤ now)) = [⟨v, k, m, res, val⟩] := by simp [h, hv]
  have rest : c.gpend.filter (fun x => !decide (x.cycle ≤ now)) = [] := by simp [h, hv]
  simp only [Core.applyGuards, due, rest, List.foldl_cons, List.foldl_nil, Core.applyGuard]
  cases res <;> rfl
theorem Core.applyGuards_early {c : Core} {v k now : Nat} {m : BitVec 16} {res val : Bool} (h : c.gpend = [⟨v, k, m, res, val⟩]) (hv : now < v) :
    c.applyGuards now = c := by
  have due : c.gpend.filter (fun x => decide (x.cycle ≤ now)) = [] := by simp [h, hv]
  have rest : c.gpend.filter (fun x => !decide (x.cycle ≤ now)) = c.gpend := by simp [h, hv]
  simp only [Core.applyGuards, due, rest, List.foldl_nil]

end Sys2Proof.Machine
end

section
/-! The statements about transfers, loops, traps and guard slots. -/
open Sys2Proof Sys2Proof.Machine

/-- Settles O5: each form outside a delay slot is a transfer, taken or not; CALL and RET also change the return stack. -/
theorem transferResults : Obligations.TransferResults := by
  refine ⟨fun s n e t p a imm h => ?_, fun s n e t p h hx => ⟨fun hp => ?_, fun hp => ?_⟩⟩
  · refine ⟨?_, congrArg _ (exec_putT h t _), fun hx => ⟨?_, fun hp => ?_, fun hp => ?_, fun hr => ?_, fun r rest hr hd => ?_⟩⟩
    · show Host.Outcome.next _ = _
      rw [exec_putT h, State.stream_of_job h, signExtend_words]
    · show Host.Outcome.next _ = _
      rw [State.jump_free h hx, State.transfer_taken h]
    · show Host.Outcome.next _ = _
      rw [State.jump_free h hx, hp, State.transfer_taken h]
    · show Host.Outcome.next _ = _
      rw [State.jump_free h hx, hp, Bool.not_false, State.transfer_taken h]
    · exact congrArg _ (State.call_room h hx hr t)
    · exact congrArg _ (State.ret_entry h hx hr hd)
  · show Host.Outcome.next _ = _
    rw [State.jump_free h hx, hp, State.transfer_untaken h]
  · show Host.Outcome.next _ = _
    rw [State.jump_free h hx, hp, Bool.not_true, State.transfer_untaken h]

/-- Settles O6: a redirect counts its two slots down; the listed forms ask first whether they stand in one. -/
theorem delaySlots : Obligations.DelaySlots := by
  refine ⟨fun x target len hr => ?_, fun s n e i t p d l k h hx hs hi => trapsTo_of_exec_cause h hs (exec_inSlot h hx hi)⟩
  rw [Stream.advance_redirect_two hr, Stream.advance_redirect_one rfl]
  exact ⟨rfl, rfl, rfl⟩

/-- Settles O7: LOOP and LOOPI by the start of a loop, ENDL and ENDL.rot by its end. -/
theorem loopResults : Obligations.LoopResults := by
  refine ⟨?_, ?_⟩ <;> intro s n e
  · intro d l k w h x stop hx hl hw hd on
    exact ⟨congrArg _ (State.loop_started h hx hl hw hd), congrArg _ (State.loop_started h hx hl hw hd)⟩
  · intro lp ls h x hx hl hp on
    refine ⟨congrArg _ ((State.endLoop_ends h hx hl hp false).trans ?_), congrArg _ ((State.endLoop_ends h hx hl hp true).trans ?_)⟩
    · simp only [Bool.false_eq_true, false_and, if_false]
      rfl
    · simp only [true_and]
      rfl

/-- Settles O8: TRAP goes past itself; what it then takes is the job's trap, or the end of the queue. -/
theorem softwareTraps : Obligations.SoftwareTraps := by
  refine fun s imm => ⟨fun n e h hs => ⟨_, rfl, fun hr => ?_, fun t hr => ?_⟩, fun c q h => ?_⟩
  · rw [State.trap_job h hs]
    have hp : ∀ y, ((s.core n).str e).pastTrap y = y := fun y => by
      unfold Stream.pastTrap
      split
      · exact absurd ‹_› (hr _)
      · rfl
    simp only [hp]
    rw [State.modCore_jobDid_self _ _ _ _ _ _ _ (Core.setStr_str _ _)]
    exact State.trapsTo_trapJob_alone _ _ _ _ _ (by simp [State.core_jobDid, Core.past, hs])
  · rw [State.trap_job h hs]
    simp only [Stream.pastTrap, hr]
    exact State.trapsTo_trapJob_alone _ _ _ _ _ (by simp [State.core_jobDid, Core.past, hs])
  · show Host.Outcome.next (s.trap imm) = _
    simp only [State.trap, State.fin, h, State.finish_thread]

/-- Settles O9: each form notes one resolution; the event applies those whose cycle has come. -/
theorem guardSlots : Obligations.GuardSlots := by
  refine ⟨?_, fun c w e m res val hc => by simp [Core.noteGuard, hc], fun s n v k m res val hp => ?_⟩
  · intro s n e g p v m h put
    have noted : ∀ m res val, s.jobWord (fun s n e => (s.resolve n e m res val 1).fin1) = .next (s.jobDid n e 4 1 fun c => c.noteGuard (s.now n + 1) e m res val) :=
      fun m res val => (State.jobWord_job h _).trans (congrArg _ (State.resolve_fin1 h m res val))
    exact ⟨noted _ _ _, noted _ _ _, noted _ _ _, noted _ _ _, noted _ _ _⟩
  · refine ⟨_, rfl, rfl, fun k hk => by simp [State.core_modCore, hk], fun hv => ?_, fun hv => ?_⟩
    · rw [State.core_modCore_same, Core.applyGuards_early hp hv]
    · rw [State.core_modCore_same, Core.applyGuards_due hp hv]
end

section
/-! Words with a guard: what a shut, an unresolved and an open guard make of them, and words in places where they may not stand (R98, R101,
R105, R106, R118). -/
namespace Sys2Proof.Machine

/-- What an instruction that asks its guard before all else answers (R101). -/
def State.AsksGuard (s : State) (o : Out) (g : Guard) (len : Nat) : Prop := ∃ k, o = .next (s.guarded g len k)

theorem State.guarded_unresolved {s : State} {n : Nat} {e : Engine} (h : s.cur = .job n e) {g : Guard} (h0 : g ≠ 0) (h16 : g ≠ 16)
    (hg : (s.core n).gres.getLsbD (g.toNat % 16) = false) (len : Nat) (k : State → State) : s.guarded g len k = s := by
  simp only [State.guarded, h, h0, h16, hg, or_self, if_false, Bool.not_false, if_true]

/-- A word of an engine's table asks its guard, in a job. -/
theorem State.asksGuard_engine {s : State} {n : Nat} {e : Engine} (h : s.cur = .job n e) {o : Out} {g : Guard} {len : Nat}
    (k : Nat → Engine → State → State) (ho : o = .next (s.engineOnly fun n e => s.guarded g len (k n e))) : s.AsksGuard o g len :=
  ⟨k n e, ho.trans (congrArg _ (State.engineOnly_job h _))⟩
/-- BAR and KBAR ask their guard as they issue (R150). -/
theorem State.asksGuard_barrier {s : State} {g : Guard} {kernel : Bool} (hb : ∀ b q, (s.stream s.cur).hold ≠ .bar b q) (hd : ∀ q, (s.stream s.cur).hold ≠ .barDue q) :
    s.AsksGuard (.next (s.barrier g kernel)) g 4 := by
  refine ⟨fun s => s.jobOnly fun n _ =>
    let c := s.core n
    if 0 < c.rb then (s.setCore n { c with rb := c.rb - 1, rbDone := c.rbDone + 1 }).fin1 else s.arriveBar n kernel c.seq, congrArg _ ?_⟩
  unfold State.barrier
  split
  · exact absurd ‹_› (hb _ _)
  · exact absurd ‹_› (hd _)
  · rfl
/-- A barrier that its member has reached stays as it is. -/
theorem State.barrier_held {s : State} {g : Guard} {kernel b : Bool} {q : Nat} (h : (s.stream s.cur).hold = .bar b q) : s.barrier g kernel = s := by
  simp only [State.barrier, h]

/-- Each word with a guard asks it first, a BAR or KBAR as it issues. -/
theorem State.asksGuard_of_guardedWord {s : State} {n : Nat} {e : Engine} (h : s.cur = .job n e) {i : Instr} {g : Guard} {len : Nat}
    (hi : guardedWord i = some (g, len)) (hbar : (i = .bar g ∨ i = .kbar g) → ∀ b q, (s.stream s.cur).hold ≠ .bar b q ∧ (s.stream s.cur).hold ≠ .barDue q) :
    s.AsksGuard (exec i s) g len := by
  cases i <;> cases hi
  case atadd | atand | ator | atxor | atmin | atmax | atminu | atmaxu | atswp | atcas | atcas16 | atfadd | aredOrd | ldS | stS | launch | kwait | kstat | qrd |
      qwr | cxrd | cxwr | trrd | trwr | pcrd | eclr | npbeg | npend | qsig => exact ⟨_, rfl⟩
  case bar => exact State.asksGuard_barrier (fun b q => (hbar (.inl rfl) b q).1) fun q => (hbar (.inl rfl) true q).2
  case kbar => exact State.asksGuard_barrier (fun b q => (hbar (.inr rfl) b q).1) fun q => (hbar (.inr rfl) true q).2
  case vpmov d a m =>
    show s.AsksGuard (execVpmov g d a m s) g 4
    unfold execVpmov
    split
    · exact State.asksGuard_engine h _ rfl
    · exact State.asksGuard_engine h _ rfl
  all_goals exact State.asksGuard_engine h _ rfl

section
variable {s : State} {n : Nat} {e : Engine} {o : Out} {g : Guard} {len : Nat} (h : s.cur = .job n e) (ho : s.AsksGuard o g len)
include h ho

/-- A word whose guard is shut is discarded, all of it. -/
theorem State.AsksGuard.shut (hg : (s.core n).guardShut g) : o = .next (s.jobDid n e len 1 id) := by
  obtain ⟨k, rfl⟩ := ho
  rw [State.guarded_shut h hg]
/-- A word whose guard is unresolved changes nothing. -/
theorem State.AsksGuard.held (h0 : g ≠ 0) (h16 : g ≠ 16) (hg : (s.core n).gres.getLsbD (g.toNat % 16) = false) : o = .next s := by
  obtain ⟨k, rfl⟩ := ho
  rw [State.guarded_unresolved h h0 h16 hg]

end

/-- A word that decodes to nothing and whose guard is open raises its cause (R105, R106). -/
theorem exec_illegalInstruction_open {s : State} {n : Nat} {e : Engine} (h : s.cur = .job n e) {g : Guard} (hg : (s.core n).guardOpen g)
    (cause : Nat) : exec (.illegalInstruction g cause) s = .next (s.cause cause) :=
  congrArg _ (State.guarded_open h hg _ _)

/-- A form of queue threads alone raises cause 3 in a job once its guard is open (R118). -/
theorem exec_queueForm_job {s : State} {n : Nat} {e : Engine} (h : s.cur = .job n e) {g : Guard} (hg : (s.core n).guardOpen g) {i : Instr}
    {d a b : F6} (hi : i = .launch g d a b ∨ i = .kwait g d a ∨ i = .kstat g d a ∨ i = .qrd g d a ∨ i = .qwr g a b ∨ i = .cxrd g d a ∨
      i = .cxwr g a b ∨ i = .trrd g d a ∨ i = .trwr g a b ∨ i = .eclr g a b ∨ i = .npbeg g a ∨ i = .npend g ∨ i = .qsig g a ∨ i = .eret ∨
      i = .eretAt a) : exec i s = .next (s.cause 3) := by
  have word : ∀ conds k, s.qWord g conds k = .next (s.cause 3) := fun conds k => by
    rw [State.qWord, State.guarded_open h hg, State.queueOnly_job h]
  have ret : ∀ k, (Host.Outcome.next (s.queueOnly k) : Out) = .next (s.cause 3) := fun k => by rw [State.queueOnly_job h]
  rcases hi with rfl | rfl | rfl | rfl | rfl | rfl | rfl | rfl | rfl | rfl | rfl | rfl | rfl | hi
  case inr.inr.inr.inr.inr.inr.inr.inr.inr.inr.inr.inr.inr => rcases hi with rfl | rfl <;> exact ret _
  all_goals exact word _ _

/-! On a queue thread. -/

theorem State.guarded_zero {s : State} {g : Guard} (hg : g = 0 ∨ g = 16) (len : Nat) (k : State → State) : s.guarded g len k = k s := by
  rw [State.guarded, if_pos hg]

section
variable {s : State} {c q : Nat} (h : s.cur = .thread c q)
include h

theorem State.cause_thread (k : Nat) : s.cause k = s.endQueue c q .faulted k := by
  simp only [State.cause, h, State.take, State.trapThread]
theorem State.jobOnly_ended (k : Nat → Engine → State) : s.jobOnly k = s.endQueue c q .faulted 3 := by
  rw [State.jobOnly_thread h, State.cause_thread h]
/-- A word of an engine's table is none on a thread (R95). -/
theorem State.engineOnly_ended (k : Nat → Engine → State) : s.engineOnly k = s.endQueue c q .faulted 2 := by
  rw [← State.cause_thread h, State.engineOnly, h]

end

end Sys2Proof.Machine
end

section
/-! The statements about guarded words and about words in wrong places. -/
open Sys2Proof Sys2Proof.Machine

/-- Settles O10: every guarded word asks its guard first. -/
theorem guardedWords : Obligations.GuardedWords := by
  have illegal : ∀ (s : State) g cause, s.AsksGuard (exec (.illegalInstruction g cause) s) g (if cause = 4 then 8 else 4) := fun s g cause => ⟨_, rfl⟩
  refine ⟨fun s n e g d a b p h hg => ?_, fun s n e g d a b p h h0 h16 hg => ?_, fun s n e g cause h hg hs => ?_⟩
  · have shut : ∀ i len, guardedWord i = some (g, len) → ((i = .bar g ∨ i = .kbar g) → (s.stream s.cur).hold = .none) →
        exec i s = .next (s.jobDid n e len 1 id) := fun i len hi hb =>
      (State.asksGuard_of_guardedWord h hi fun hbar b q => by simp [hb hbar]).shut h hg
    exact ⟨shut, shut _ _ rfl (by simp), shut _ _ rfl (by simp), shut _ _ rfl (by simp), shut _ _ rfl (by simp), shut _ _ rfl (by simp),
      shut _ _ rfl (by simp), shut _ _ rfl (by simp), shut _ _ rfl (by simp), fun cause => (illegal s g cause).shut h hg⟩
  · have held : ∀ i len, guardedWord i = some (g, len) → (∀ b q, (i = .bar g ∨ i = .kbar g) → (s.stream s.cur).hold ≠ .bar b q ∧ (s.stream s.cur).hold ≠ .barDue q) →
        exec i s = .next s := fun i len hi hb => (State.asksGuard_of_guardedWord h hi fun hbar b q => hb b q hbar).held h h0 h16 hg
    refine ⟨fun i len hi hd => ?_, held _ _ rfl (by simp), held _ _ rfl (by simp), held _ _ rfl (by simp), held _ _ rfl (by simp),
      held _ _ rfl (by simp), fun cause => (illegal s g cause).held h h0 h16 hg⟩
    by_cases hb : ∃ b q, (i = .bar g ∨ i = .kbar g) ∧ (s.stream s.cur).hold = .bar b q
    · obtain ⟨b, q, rfl | rfl, hq⟩ := hb
      · exact congrArg _ (State.barrier_held hq)
      · exact congrArg _ (State.barrier_held hq)
    · exact held i len hi fun b q hbar => ⟨fun hq => hb ⟨b, q, hbar, hq⟩, hd q⟩
  · have hi := exec_illegalInstruction_open h hg cause
    have hc : s.cause cause = (s.trapJob n e cause 0).standCore n := by simp [State.cause, h, State.take, hs]
    exact ⟨hi.trans (congrArg _ hc), State.trapsTo_trapJob _ _ _ _ _ hs⟩

/-- Settles O42: in a job by the cause that the form raises; on a thread each wrong word ends its queue. -/
theorem wrongPlacesTrap : Obligations.WrongPlacesTrap := by
  refine fun s g d a b p i => ⟨fun n e h hs hg => ⟨fun hi => trapsTo_of_exec_cause h hs (exec_queueForm_job h hg hi), fun cause =>
    trapsTo_of_exec_cause h hs (exec_illegalInstruction_open h hg cause)⟩, fun c q h => ⟨fun k m hi => ?_, fun hi => ?_, fun cause hg => ?_⟩⟩
  · rcases hi with rfl | rfl | rfl | rfl | rfl | rfl <;> exact congrArg _ (State.jobOnly_ended h _)
  · rcases hi with rfl | rfl | rfl | rfl | rfl | rfl <;> exact congrArg _ (State.engineOnly_ended h _)
  · exact congrArg _ ((State.guarded_zero hg _ _).trans (State.cause_thread h cause))
end

section
/-! Semaphores: what SEMSIG and SEMWAIT come to (R157, Table 14-2). -/
namespace Sys2Proof.Machine

theorem Core.sem_setSem (c : Core) (k : Nat) {v : Nat} (hv : v ≤ 4095) : (c.setSem k v).sem k = v := by
  simp only [Core.sem, Core.setSem, vget_setIfInBounds, Nat.mod_lt k (by decide : 0 < 32), and_true, if_true, BitVec.toNat_ofNat]
  exact Nat.mod_eq_of_lt (by omega)
@[simp] theorem Core.sem_setStr (c : Core) (e : Engine) (x : Stream) (k : Nat) : (c.setStr e x).sem k = c.sem k := by cases e <;> rfl
@[simp] theorem Core.str_setSem (c : Core) (e : Engine) (k v : Nat) : (c.setSem k v).str e = c.str e := by cases e <;> rfl

/-- A stream that waits for no increment of a semaphore, whether its wait has been served or not. -/
def Core.clearOf (c : Core) (k : Nat) (f : Engine) : Prop := ∀ w, (c.str f).hold ≠ .sem k w ∧ (c.str f).hold ≠ .semDue k w

theorem Core.contended_eq_false {c : Core} {e : Engine} {k : Nat} (h : ∀ f, f ≠ e → c.clearOf k f) : c.contended e k = false := by
  simp only [Core.contended, List.any_eq_false, Bool.and_eq_true, bne_iff_ne, not_and]
  intro f _ hf
  split
  · rintro hj
    obtain rfl := LawfulBEq.eq_of_beq hj
    exact (h f hf _).1 ‹_›
  · rintro hj
    obtain rfl := LawfulBEq.eq_of_beq hj
    exact (h f hf _).2 ‹_›
  · simp
theorem Core.contended_of_wait {c : Core} {e f : Engine} {k w : Nat} (hf : f ≠ e) (h : (c.str f).hold = .sem k w) : c.contended e k = true := by
  simp only [Core.contended, List.any_eq_true, Bool.and_eq_true, bne_iff_ne]
  exact ⟨f, by cases f <;> simp [engines], hf, by simp [h]⟩
theorem Core.semPending_eq_false {c : Core} {k : Nat} (h : ∀ f w, (c.str f).hold ≠ .semDue k w) : c.semPending k = false := by
  simp only [Core.semPending, List.any_eq_false]
  intro f _
  split
  · rintro hj
    obtain rfl := LawfulBEq.eq_of_beq hj
    exact h f _ ‹_›
  · simp

/-- A wait that no other stream contends for is served at once. -/
theorem State.serveWait_uncontended {s : State} {n : Nat} {e : Engine} {k m : Nat} (h : (s.core n).contended e k = false) :
    s.serveWait n e k m = s.jobDid n e 4 1 fun c => c.setSem k (c.sem k - m) := by
  simp only [State.serveWait, h, Bool.false_eq_true, false_and, if_false]
  exact State.finish_modCore s n e 4 1 _ rfl

/-- What a fold over the streams comes to when one of them changes the state and no other does. -/
theorem foldl_engines_one {α : Type} {f : α → Engine → α} {a b : α} (e : Engine) (before : ∀ x, x ≠ e → f a x = a) (at_ : f a e = b)
    (after : ∀ x, x ≠ e → f b x = b) : engines.foldl f a = b := by
  cases e <;> simp [engines, before, at_, after]
theorem foldl_engines_none {α : Type} {f : α → Engine → α} {a : α} (h : ∀ x, f a x = a) : engines.foldl f a = a := by
  simp [engines, h]

/-- No held wait is served where no stream waits. -/
theorem State.serveHeld_none {s : State} {n k : Nat} (h : ∀ f j w, ((s.core n).str f).hold ≠ .sem j w) : s.serveHeld n k = s := by
  apply foldl_engines_none
  intro f
  split
  · exact absurd ‹_› (h f _ _)
  · rfl
/-- The one held wait of a semaphore whose count suffices is served. -/
theorem State.serveHeld_one {s : State} {n k w : Nat} {f : Engine} (hf : ((s.core n).str f).hold = .sem k w)
    (hc : ∀ x, x ≠ f → (s.core n).clearOf k x) (hw : w ≤ (s.core n).sem k) :
    s.serveHeld n k = s.jobDid n f 4 1 fun c => c.setSem k (c.sem k - w) := by
  have idle : ∀ (t : State) x, (t.core n).clearOf k x → (match ((t.core n).str x).hold with
      | .sem j m => if j = k ∧ m ≤ (t.core n).sem k ∧ (!(t.core n).semPending k ∨ (t.ctx (t.cxnOf (.job n x))).trail.mode = 2) then t.serveWait n x k m else t
      | _ => t) = t := by
    intro t x hx
    split
    · rename_i j m hj
      rw [if_neg]
      rintro ⟨rfl, -⟩
      exact (hx m).1 hj
    · rfl
  refine foldl_engines_one f (fun x hx => idle s x (hc x hx)) ?_ (fun x hx => idle _ x ?_)
  · have hp : (s.core n).semPending k = false := Core.semPending_eq_false fun x v => by
      by_cases hx : x = f
      · subst hx
        simp [hf]
      · exact (hc x hx v).2
    rw [hf]
    simp only [hw, hp, Bool.not_false, true_or, and_self, if_true]
    exact State.serveWait_uncontended (Core.contended_eq_false hc)
  · intro v
    rw [State.core_jobDid]
    simp only [Core.past, Core.str_setStr_ne _ _ _ _ hx, Core.str_setSem]
    exact hc x hx v

section
variable {s : State} {n : Nat} {e : Engine} (h : s.cur = .job n e)
include h

theorem exec_semsig_within {k : BitVec 5} {m : BitVec 12} (hm : (s.core n).sem k.toNat + m.toNat ≤ 4095) :
    exec (.semsig k m) s = .next ((s.jobDid n e 4 1 fun c => c.setSem k.toNat ((s.core n).sem k.toNat + m.toNat)).serveHeld n k.toNat) := by
  show execSemsig k m s = _
  rw [execSemsig, State.jobWord_job h, State.check_one_ok (decide_eq_true hm), State.fin1, State.fin_setCore h 4 1 _ (by rfl)]
  rfl
theorem exec_semsig_beyond {k : BitVec 5} {m : BitVec 12} (hm : 4095 < (s.core n).sem k.toNat + m.toNat) :
    exec (.semsig k m) s = .next (s.cause 44) := by
  show execSemsig k m s = _
  rw [execSemsig, State.jobWord_job h, State.check_one_fail (decide_eq_false (Nat.not_le.2 hm)) (by decide)]
/-- A SEMWAIT as its stream comes to it. -/
theorem exec_semwait_fresh {k : BitVec 5} {m : BitVec 12} (hh : ∀ j w, ((s.core n).str e).hold ≠ .sem j w ∧ ((s.core n).str e).hold ≠ .semDue j w) :
    exec (.semwait k m) s = .next (if m.toNat ≤ (s.core n).sem k.toNat ∧ !(s.core n).contended e k.toNat then s.serveWait n e k.toNat m.toNat
      else s.modCore n fun c => c.setStr e { c.str e with hold := .sem k.toNat m.toNat }) := by
  show execSemwait k m s = _
  rw [execSemwait, State.jobWord_job h]
  dsimp only
  rw [h, State.stream_job]
  split
  · exact absurd ‹_› (hh _ _).2
  · exact absurd ‹_› (hh _ _).1
  · rfl

end

end Sys2Proof.Machine
end

section
/-! The statement about semaphores. -/
open Sys2Proof Sys2Proof.Machine

/-- Settles O12: SEMSIG by the held waits that it serves, SEMWAIT by the count and by who else waits. -/
theorem semaphoreResults : Obligations.SemaphoreResults := by
  intro s n e k m h c cnt
  refine ⟨fun hf hm => ?_, fun hm hs => trapsTo_of_exec_cause h hs (exec_semsig_beyond h hm), ?_⟩
  · rw [exec_semsig_within h hm, State.serveHeld_none]
    intro f j w
    rw [State.core_jobDid]
    by_cases hfe : f = e
    · subst hfe
      simp [Core.past]
    · simp only [Core.past, Core.str_setStr_ne _ _ _ _ hfe, Core.str_setSem]
      exact hf f j w
  intro clear
  refine ⟨fun f w hfe hf hx hm hw => ?_, fun hh => ⟨fun hc hm => ?_, fun hc => ?_⟩⟩
  · have hsem : (((s.jobDid n e 4 1 fun c => c.setSem k.toNat (cnt + m.toNat)).core n).sem k.toNat) = cnt + m.toNat := by
      rw [State.core_jobDid]
      simp [Core.past, Core.sem_setSem _ _ hm]
    rw [exec_semsig_within h hm, State.serveHeld_one (f := f) (w := w)]
    · exact congrArg _ (State.jobDid_congr _ _ _ _ _ _ _ (congrArg (fun v => Core.setSem _ k.toNat (v - w)) hsem))
    · rw [State.core_jobDid]
      simp only [Core.past, Core.str_setStr_ne _ _ _ _ hfe, Core.str_setSem]
      exact hf
    · intro x hxf v
      rw [State.core_jobDid]
      by_cases hxe : x = e
      · subst hxe
        simp [Core.past]
      · simp only [Core.past, Core.str_setStr_ne _ _ _ _ hxe, Core.str_setSem]
        exact hx x hxe hxf v
    · rw [hsem]
      exact hw
  · rw [exec_semwait_fresh h hh, if_pos ⟨hm, by rw [Core.contended_eq_false hc]; rfl⟩, State.serveWait_uncontended (Core.contended_eq_false hc)]
    rfl
  · rw [exec_semwait_fresh h hh, if_neg]
    rintro ⟨hm, hn⟩
    rcases hc with hc | ⟨f, w, hf, hw⟩
    · exact absurd hm (Nat.not_le.2 hc)
    · have hw' : (s.core n).contended e k.toNat = true := Core.contended_of_wait hf hw
      simp [hw'] at hn
end

section
/-! Copy tags: waits, tests and XTCLR (R159 to R161, R270, R271). -/
namespace Sys2Proof.Machine

/-! TDONE as a set of tags. -/

/-- A number put together from the bits of a predicate has those bits. -/
theorem testBit_foldl_bitAt (f : Nat → Bool) (m k : Nat) :
    ((List.range m).foldl (fun a t => a + bitAt (f t) t) 0).testBit k = (decide (k < m) && f k) ∧
      (List.range m).foldl (fun a t => a + bitAt (f t) t) 0 < 2 ^ m := by
  induction m with
  | zero => simp
  | succ m ih =>
    obtain ⟨hbit, hlt⟩ := ih
    rw [List.range_succ, List.foldl_append]
    simp only [List.foldl_cons, List.foldl_nil]
    generalize (List.range m).foldl (fun a t => a + bitAt (f t) t) 0 = x at hbit hlt
    cases hf : f m with
    | false =>
      refine ⟨?_, by simp only [bitAt, Bool.false_eq_true, if_false]; omega⟩
      simp only [bitAt, Bool.false_eq_true, if_false, Nat.add_zero, hbit]
      by_cases hk : k = m
      · subst hk
        simp [hf]
      · rw [show decide (k < m + 1) = decide (k < m) from decide_eq_decide.2 (by omega)]
    | true =>
      refine ⟨?_, by simp only [bitAt, if_true]; omega⟩
      simp only [bitAt, if_true]
      rcases Nat.lt_trichotomy k m with hk | rfl | hk
      · rw [Nat.add_comm, Nat.testBit_two_pow_add_gt hk, hbit]
        simp [hk, Nat.lt_succ_of_lt hk]
      · rw [Nat.add_comm, Nat.testBit_two_pow_add_eq, Nat.testBit_lt_two_pow hlt]
        simp [hf]
      · rw [Nat.testBit_lt_two_pow (Nat.lt_of_lt_of_le (by omega : x + 2 ^ m < 2 ^ (m + 1)) (Nat.pow_le_pow_right (by decide) hk))]
        simp [show ¬ k < m + 1 by omega]
theorem Core.getLsbD_tdone (c : Core) (det : Bool) {k : Nat} (hk : k < 64) : (c.tdone det).getLsbD k = c.tagReady det k := by
  rw [Core.tdone, BitVec.getLsbD_ofNat, (testBit_foldl_bitAt _ 64 k).1]
  simp [hk]
theorem Core.tagReady_true (c : Core) (k : Nat) : c.tagReady true k = !(c.tag k).infl := by simp [Core.tagReady]

/-- A mask names no tag outside a set. -/
theorem and_not_eq_zero_iff {m v : W64} : m &&& ~~~ v = 0 ↔ ∀ k, k < 64 → m.getLsbD k = true → v.getLsbD k = true := by
  constructor
  · intro h k hk hm
    have := congrArg (fun x : W64 => x.getLsbD k) h
    simpa [hm, hk] using this
  · intro h
    apply BitVec.eq_of_getLsbD_eq
    intro k hk
    have := h k hk
    cases hm : m.getLsbD k <;> simp_all
theorem getLsbD_one_shiftLeft {t k : Nat} (hk : k < 64) : (1#64 <<< t).getLsbD k = decide (k = t) := by
  simp only [BitVec.getLsbD_shiftLeft, hk, decide_true, Bool.true_and, BitVec.getLsbD_one]
  rw [Bool.eq_iff_iff]
  simp
  omega

/-- The lowest bit of a mask. -/
theorem lowestBit_eq {x : W64} {k : Nat} (hk : k < 64) (hx : x.getLsbD k = true) (hlow : ∀ j, j < k → x.getLsbD j = false) : lowestBit x = k := by
  have : (List.range 64).find? (fun k => x.getLsbD k) = some k := by
    rw [List.find?_range_eq_some]
    exact ⟨hx, by simpa using hk, fun j hj => by simp [hlow j hj]⟩
  rw [lowestBit, this]
  rfl
theorem lowestBit_none {x : W64} (hx : ∀ k, k < 64 → x.getLsbD k = false) : lowestBit x = 64 := by
  have : (List.range 64).find? (fun k => x.getLsbD k) = none := by
    rw [List.find?_eq_none]
    intro k hk
    simp [hx k (by simpa using hk)]
  rw [lowestBit, this]
  rfl

/-! Waits. -/

section
variable {s : State} {n : Nat} {e : Engine} (h : s.cur = .job n e)
include h

/-- A wait goes on where no tag of its mask is in flight. -/
theorem State.waitTags_ready {mask : W64} (hm : ∀ k, k < 64 → mask.getLsbD k = true → ((s.core n).tag k).infl = false) :
    s.waitTags n mask = s.jobDid n e 4 1 id := by
  rw [State.waitTags, if_pos, State.fin1_job h]
  rw [and_not_eq_zero_iff]
  intro k hk hmk
  rw [Core.getLsbD_tdone _ _ hk, Core.tagReady_true, hm k hk hmk]
  rfl
omit h in
theorem State.waitTags_held {mask : W64} {k : Nat} (hk : k < 64) (hmk : mask.getLsbD k = true) (hf : ((s.core n).tag k).infl = true) :
    s.waitTags n mask = s := by
  rw [State.waitTags, if_neg]
  rw [and_not_eq_zero_iff]
  intro hall
  have := hall k hk hmk
  rw [Core.getLsbD_tdone _ _ hk, Core.tagReady_true, hf] at this
  cases this

theorem exec_twait (t : F6) : exec (.twait t) s = .next (s.waitTags n (1#64 <<< t.toNat)) := by
  show execTwait t s = _
  rw [execTwait, State.jobWord_job h]
theorem exec_cbwait (a : F6) : exec (.cbwait a) s = .next (s.waitTags n (s.rs a)) := by
  show execCbwait a s = _
  rw [execCbwait, State.jobWord_job h]

/-! Tests. -/

/-- A test that no record governs is answered at once: by the virtual schedule in a kernel with the deterministic flag, else as the wall
clock has the tags, tainted. -/
theorem State.observe_free (hr : s.detCore n = true ∨ (s.ctx (s.cxnOf s.cur)).trail.mode = 0) (sub : Nat) (mask : W64)
    (k : State → W64 → Bool → State) : s.observe n e sub mask k = k s ((s.core n).tdone (s.detCore n)) (!s.detCore n) := by
  unfold State.observe
  cases hd : s.detCore n with
  | true => rfl
  | false =>
    have hm : (s.ctx (s.cxnOf (.job n e))).trail.mode = 0 := by
      rw [← h]
      exact hr.resolve_left (by simp [hd])
    have hrec : s.recordedTest n e sub = none := by simp [State.recordedTest, hm]
    have hgate : ∀ q0 q1, s.gate (s.cxnOf (.job n e)) (some (.job n e)) q0 q1 = .go s none := fun q0 q1 => by simp [State.gate, hm]
    simp only [hrec, hgate, Bool.false_eq_true, if_false, Option.isSome_none, false_and, Option.getD_none, Bool.not_false]

theorem State.fin1_putP (p : BitVec 4) (v t : Bool) : (s.putP s.cur p.toNat v t 1).fin1 = s.jobPut n e (.p e p.toNat v t) 1 := by
  have hc : (s.putP (.job n e) p.toNat v t 1).cur = .job n e := h
  rw [h, State.fin1, State.fin, hc, State.putP_job, Nat.mod_eq_of_lt p.isLt, State.jobPut]
theorem State.fin1_putS (d : F6) (v : W64) (t : Bool) (lat : Nat) :
    (s.putS s.cur d.toNat v t lat).fin1 = s.jobDid n e 4 1 (·.addPend (s.now n + lat) false (.s e d.toNat v t)) :=
  State.scalar_job h d v t lat

end

end Sys2Proof.Machine
end

section
/-! The statement about copy tags. -/
open Sys2Proof Sys2Proof.Machine

/-- Settles O13: waits by the tags in flight of their mask, tests by TDONE as it is answered, XTCLR by the tags it clears. -/
theorem tagResults : Obligations.TagResults := by
  intro s n e t p d a g h c infl on seen wall
  have hseen : ∀ k, k < 64 → (c.tdone (s.detCore n)).getLsbD k = seen k := fun k hk => Core.getLsbD_tdone c _ hk
  have ht : t.toNat < 64 := t.isLt
  refine ⟨Core.tagReady_true c, fun k hk => by simp [Core.tagReady, show (c.tag k).infl = false from hk], fun hf => ?_, fun hf => ?_, fun hm => ?_,
    fun k hk hmk hf => ?_, fun hr => ?_, fun hg ha => ⟨?_, fun k => ?_⟩⟩
  · refine (exec_twait h t).trans (congrArg _ (State.waitTags_ready h fun k hk hmk => ?_))
    rw [getLsbD_one_shiftLeft hk, decide_eq_true_eq] at hmk
    exact hmk ▸ hf
  · exact (exec_twait h t).trans (congrArg _ (State.waitTags_held ht ((getLsbD_one_shiftLeft ht).trans (decide_eq_true rfl)) hf))
  · exact (exec_cbwait h a).trans (congrArg _ (State.waitTags_ready h hm))
  · exact (exec_cbwait h a).trans (congrArg _ (State.waitTags_held hk hmk hf))
  · have observed := fun sub mask k => State.observe_free (s := s) h hr sub mask k
    refine ⟨?_, fun hm => ?_, fun k hk hmk hs => ?_, fun k hk hmk hs hlow => ?_, fun hm => ?_, ?_⟩
    · show execTtest p t s = _
      rw [execTtest, State.jobWord_job h, observed, State.fin1_putP h, hseen _ ht]
    · show execCbtest p a s = _
      rw [execCbtest, State.jobWord_job h, observed, State.fin1_putP h, beq_iff_eq.2]
      exact and_not_eq_zero_iff.2 fun k hk hmk => (hseen k hk).trans (hm k hk hmk)
    · show execCbtest p a s = _
      rw [execCbtest, State.jobWord_job h, observed, State.fin1_putP h, beq_eq_false_iff_ne.2]
      intro hz
      have := and_not_eq_zero_iff.1 hz k hk hmk
      rw [hseen k hk, hs] at this
      cases this
    · show execTffr d a s = _
      rw [execTffr, State.jobWord_job h, observed, State.scalar_job h, lowestBit_eq hk]
      · rw [BitVec.getLsbD_and, hmk, hseen k hk, hs]
        rfl
      · intro j hj
        rw [BitVec.getLsbD_and, hseen j (by omega)]
        cases hmj : (s.rs a).getLsbD j
        · rfl
        · rw [hlow j hj hmj]
          rfl
    · show execTffr d a s = _
      rw [execTffr, State.jobWord_job h, observed, State.scalar_job h, lowestBit_none]
      · rfl
      intro j hj
      rw [BitVec.getLsbD_and, hseen j hj]
      cases hmj : (s.rs a).getLsbD j
      · rfl
      · rw [hm j hj hmj]
        rfl
    · intro hg hd ha k tag
      show execXtst g d a s = _
      have hk : k < 64 := Nat.mod_lt _ (by decide)
      rw [execXtst, State.engineOnly_job h, State.guarded_open h hg, State.check_one_ok (by rw [hd, ha]; rfl), observed]
      dsimp only
      rw [State.fin1_putS h, hseen k hk]
      cases seen k
      · simp [bitAt, wall]
      · cases hfb : tag.fb <;> cases hab : tag.abs <;> simp [bitAt, wall, tag, c, k] at hfb hab ⊢
  · show execXtclr g a s = _
    rw [execXtclr, State.engineOnly_job h, State.guarded_open h hg, State.check_one_ok ha]
    exact congrArg _ (State.fin_modCore h 4 1 _ rfl)
  · simp only [clearedTag]
    cases hm : (s.rs a).getLsbD k.val <;> cases hf : infl k.val <;> simp_all [infl]
end

section
/-! Waits, phases, barriers, status registers, landing writes and scratchpad accesses (R98, R129, R148, R162 to R170, R357). -/
namespace Sys2Proof.Machine

/-! Waits, phases and barriers. -/

/-- Only the number of barriers to pass again and the membership of a barrier's core change on the way past one; a member that arrives holds its stream. -/
theorem State.arriveBar_job {s : State} {n : Nat} {e : Engine} (h : s.cur = .job n e) (kernel : Bool) (q : Nat) :
    s.arriveBar n kernel q = s.modCore n fun c =>
      c.setStr e { c.str e with hold := if (s.core n).strongDone (s.now n) q then .bar kernel (s.now n) else .barDue q } := by
  rw [State.arriveBar, h, State.modStream_job]

section
variable {s : State} {n : Nat} {e : Engine} (h : s.cur = .job n e)
include h

theorem State.barrier_due {g : Guard} {kernel : Bool} {q : Nat} (hq : ((s.core n).str e).hold = .barDue q) : s.barrier g kernel = s.arriveBar n kernel q := by
  simp only [State.barrier, State.stream_of_job h, hq, State.jobOnly_job h]
theorem State.barrier_issues {g : Guard} {kernel : Bool} (hg : (s.core n).guardOpen g) (hb : ∀ b q, ((s.core n).str e).hold ≠ .bar b q)
    (hd : ∀ q, ((s.core n).str e).hold ≠ .barDue q) (hr : (s.core n).rb = 0) : s.barrier g kernel = s.arriveBar n kernel (s.core n).seq := by
  have hs := State.stream_of_job h
  unfold State.barrier
  split
  · rename_i hq
    exact absurd (hs ▸ hq) (hb _ _)
  · rename_i hq
    exact absurd (hs ▸ hq) (hd _)
  · rw [State.guarded_open h hg, State.jobOnly_job h]
    simp only [hr, Nat.lt_irrefl, if_false]

/-- A stream reaches a PHASE. -/
theorem State.phase_reached (hp : ∀ x v, ((s.core n).str e).hold ≠ .phase x v) (scope : Nat) :
    s.phase scope = .next (s.modCore n fun c => c.setStr e { c.str e with hold := .phase scope (s.now n) }) := by
  rw [State.phase, State.jobWord_job h]
  dsimp only
  rw [h, State.stream_job, State.modStream_job]
  split
  · exact absurd ‹_› (hp _ _)
  · rfl

theorem exec_vcwait (a : F6) (imm : BitVec 12) : exec (.vcwait a imm) s = .next
    (if s.now n < (s.rs a + BitVec.ofInt 64 imm.toInt).toNat then s.modCore n fun c => c.setStr e { c.str e with hold := .clock }
     else if ((s.core n).str e).hold = .clock then { s.jobDid n e 4 0 id with agenda := .issue (.job n e) :: s.agenda }
     else s.jobDid n e 4 1 id) := by
  show execVcwait a imm s = _
  rw [execVcwait, State.jobWord_job h, State.stream_of_job h, State.fin_job h, State.fin1_job h, h, State.modStream_job]
  rfl

end

/-! Status registers (R170). -/

section
variable {s : State} {n : Nat} {e : Engine} (h : s.cur = .job n e)
include h

theorem exec_rdst {d : F6} {sr : BitVec 12} {v : W64} (hv : s.statusJob n e sr.toNat = some v) (hsr : sr.toNat ≠ 6) :
    exec (.rdst d sr) s = .next (s.jobPut n e (.s e d.toNat v false) 1) := by
  show execRdst d sr s = _
  rw [execRdst, h]
  dsimp only
  rw [if_neg hsr, hv]
  dsimp only
  rw [State.scalar_job h]
theorem exec_wrst {a : F6} {sr : BitVec 12} {v : W64} (hv : s.statusJob n e sr.toNat = some v)
    (hc : lowest ((s.core n).statusConds sr.toNat (s.rs a)) = 0) :
    exec (.wrst a sr) s = .next (if sr.toNat = 9 then s.jobDid n e 4 1 fun c => c.setStr e { c.str e with rssp := s.rs a &&& 0x007FFFFFFFFFFFF8 }
      else s.jobPut n e (.status sr.toNat ((s.core n).wrstBits (s.now n) sr.toNat (s.rs a))) 1) := by
  show execWrst a sr s = _
  rw [execWrst, h]
  dsimp only
  rw [hv, State.check, hc]
  simp only [Option.isNone_some, Bool.false_eq_true, if_false, if_true]
  split
  · rw [State.writeRssp, h, State.modStream_job, State.fin_modCore h 4 1]
    simp
  · exact congrArg _ (State.fin_modCore h 4 1 _ (by rfl))

end

/-! Pending writes (R129). -/

/-- The one pending write of a core, once it is due. -/
theorem State.land_only {s : State} {n k : Nat} {x : PendTarget} (hp : (s.core n).pend = [{ seq := k, due := s.now n, ls := false, target := x }])
    (h1 : ∀ e c a, x ≠ .poison e c a) (h2 : ∀ f, x ≠ .flags f) :
    s.land n k = s.setCore n ({ s.core n with pend := [] }.landOne x) := by
  have hf : (s.core n).pend.find? (fun p => p.seq == k) = some { seq := k, due := s.now n, ls := false, target := x } := by simp [hp]
  have hrest : (s.core n).pend.filter (fun q => q.seq != k) = [] := by simp [hp]
  unfold State.land
  dsimp only
  rw [hf]
  simp only [Nat.lt_irrefl, if_false, hrest]

/-! Scratchpad (R84, R148). -/

theorem smAddr_eq (s : State) (a : BitVec 4) (z : BitVec 2) (o : BitVec 12) :
    s.smAddr a z o = s.ra a + BitVec.ofInt 64 (o.toInt * 2 ^ z.toNat) := by
  rw [BitVec.ofInt_mul]
  simp only [State.smAddr, BitVec.signExtend]
  congr 2

section
variable {s : State} {n : Nat} {e : Engine} (h : s.cur = .job n e) {r : F6} {a : BitVec 4} {z : BitVec 2} {o : BitVec 12} {ea : Nat}
  (hea : (s.smAddr a z o).toNat = ea)
include h hea

theorem State.loadSp_mapped {x : Nat} (ha : ea % smSize z = 0) (hw : (s.core n).window ea (smSize z) = some x) (sgn : Bool) :
    s.loadSp sgn r a z o = s.jobPut n e (.ldsp e r.toNat x (smSize z) sgn) 4 := by
  subst hea
  rw [State.loadSp, State.check_one_ok (decide_eq_true ha)]
  dsimp only
  rw [h]
  dsimp only
  rw [hw]
  exact State.fin_modCore h 4 1 _ rfl
theorem State.loadSp_refused (ha : ea % smSize z ≠ 0 ∨ (s.core n).window ea (smSize z) = none) (sgn : Bool) :
    s.loadSp sgn r a z o = s.cause 24 := by
  subst hea
  by_cases hal : (s.smAddr a z o).toNat % smSize z = 0
  · rw [State.loadSp, State.check_one_ok (decide_eq_true hal)]
    dsimp only
    rw [h]
    dsimp only
    rw [ha.resolve_left (Decidable.not_not.2 hal)]
  · rw [State.loadSp, State.check_one_fail (decide_eq_false hal) (by decide)]
theorem exec_stsp_mapped {x : Nat} (ha : ea % smSize z = 0) (hw : (s.core n).window ea (smSize z) = some x) :
    exec (.stsp r a z o) s = .next (s.jobPut n e (.sp e x ((leBytes (smSize z) (s.rs r).toNat).map fun b => (b, s.rsT r))) 4) := by
  subst hea
  show execStsp r a z o s = _
  rw [execStsp, State.check_one_ok (decide_eq_true ha)]
  rw [h]
  dsimp only
  rw [hw]
  exact congrArg _ (State.fin_modCore h 4 1 _ rfl)
theorem exec_stsp_refused (ha : ea % smSize z ≠ 0 ∨ (s.core n).window ea (smSize z) = none) :
    exec (.stsp r a z o) s = .next (s.cause 24) := by
  subst hea
  show execStsp r a z o s = _
  by_cases hal : (s.smAddr a z o).toNat % smSize z = 0
  · rw [execStsp, State.check_one_ok (decide_eq_true hal)]
    rw [h]
    dsimp only
    rw [ha.resolve_left (Decidable.not_not.2 hal)]
  · rw [execStsp, State.check_one_fail (decide_eq_false hal) (by decide)]

end

end Sys2Proof.Machine
end

section
/-! The statements about waits and holds, status registers, landing writes and scratchpad accesses. -/
open Sys2Proof Sys2Proof.Machine

/-- Settles O14: what goes on, goes on; each form that waits holds its stream at its head. -/
theorem waitsAndHolds : Obligations.WaitsAndHolds := by
  intro s n e a imm k w g h c on hold
  have onward : s.fin1 = on := State.fin1_job h
  have str_S : e = .S → c.str e = c.strS := fun he => he ▸ rfl
  refine ⟨congrArg _ onward, congrArg _ onward, ?_, fun ht hc => ?_, fun ht hc => ?_, fun ht => ?_, fun hp => ?_, fun hx => ?_, ?_⟩
  · show execIflush s = _
    rw [execIflush, onward, h, State.modStream_job]
  · rw [exec_vcwait h, if_neg (Nat.not_lt.2 ht), if_neg hc]
  · rw [exec_vcwait h, if_neg (Nat.not_lt.2 ht), if_pos hc]
  · rw [exec_vcwait h, if_pos ht]
  · exact ⟨State.phase_reached h hp 1, State.phase_reached h hp 2, State.phase_reached h hp 3⟩
  · show execRdv s = _
    rw [execRdv, State.jobWord_job h, State.notInSlot_free (by rwa [State.stream_of_job h]), h, State.modStream_job]
  intro at_
  have arrives : ∀ kernel q, s.arriveBar n kernel q = at_ kernel q := fun kernel q => State.arriveBar_job h kernel q
  refine ⟨fun he hg hb hd hr => ?_, fun q he hq => ?_, fun x v he hx => ?_⟩
  · have issues : ∀ kernel, s.barrier g kernel = at_ kernel c.seq := fun kernel =>
      (State.barrier_issues h hg (fun b q => str_S he ▸ hb b q) (fun q => str_S he ▸ hd q) hr).trans (arrives kernel _)
    exact ⟨congrArg _ (issues false), congrArg _ (issues true)⟩
  · have due : ∀ kernel, s.barrier g kernel = at_ kernel q := fun kernel =>
      (State.barrier_due h ((congrArg Stream.hold (str_S he)).trans hq)).trans (arrives kernel _)
    exact ⟨congrArg _ (due false), congrArg _ (due true)⟩
  · have held : ∀ kernel, s.barrier g kernel = s := fun kernel =>
      State.barrier_held (by rw [State.stream_of_job h]; exact (congrArg Stream.hold (str_S he)).trans hx)
    exact ⟨congrArg _ (held false), congrArg _ (held true)⟩

/-- Settles O16: RDST by the selector's register, WRST by the write it pends, or by RSSP itself. -/
theorem statusRegisters : Obligations.StatusRegisters := by
  intro s n e d a sr v h hv
  have toNat_ne : ∀ k : BitVec 12, sr ≠ k → sr.toNat ≠ k.toNat := fun k hk hn => hk (BitVec.eq_of_toNat_eq hn)
  refine ⟨fun hsr => exec_rdst h hv (toNat_ne 6 hsr), fun hc hsr => ?_, ?_, rfl, rfl, rfl, rfl⟩
  · rw [exec_wrst h hv hc, if_neg (show ¬ sr.toNat = 9 from toNat_ne 9 hsr)]
  · exact exec_wrst h (sr := 9) (v := ((s.core n).str e).rssp) rfl rfl

/-- Settles O17: the one pending write lands by what its target is. -/
theorem writesLand : Obligations.WritesLand := by
  intro s n e r v b t k hr c land
  have str : ({ c with pend := [] } : Core).str e = c.str e := by cases e <;> rfl
  have landed : ∀ x f, (∀ e c a, x ≠ .poison e c a) → (∀ f, x ≠ .flags f) → (∀ d : Core, d.landOne x = d.setStr e (f (d.str e))) → land x f := by
    intro x f h1 h2 hx hp
    refine congrArg _ ((State.land_only hp h1 h2).trans (congrArg _ ?_))
    rw [hx]
    exact congrArg (fun y => Core.setStr _ e (f y)) str
  exact ⟨landed (.s e r v t) (·.ws r v t) nofun nofun fun d => rfl, landed (.a e r v t) (·.wa r v t) nofun nofun fun d => rfl,
    landed (.t e r v) (·.wt r v) nofun nofun fun d => rfl, landed (.p e r b t) (·.wp r b t) nofun nofun fun d => rfl⟩

/-- Settles O20: each access by its alignment and by where its window maps it. -/
theorem scratchpadResults : Obligations.ScratchpadResults := by
  intro s n e r a z o h ea m
  have hea : (s.smAddr a z o).toNat = ea := congrArg BitVec.toNat (smAddr_eq s a z o)
  refine ⟨fun x ha hw => ?_, fun hs hbad i hi => trapsTo_of_exec_cause h hs ?_⟩
  · exact ⟨congrArg _ (State.loadSp_mapped h hea ha hw true), congrArg _ (State.loadSp_mapped h hea ha hw false), exec_stsp_mapped h hea ha hw⟩
  · rcases hi with rfl | rfl | rfl
    · exact congrArg _ (State.loadSp_refused h hea hbad true)
    · exact congrArg _ (State.loadSp_refused h hea hbad false)
    · exact exec_stsp_refused h hea hbad
end

section
/-! Requests at a port: what they leave unchanged (R428, R430, R473). -/
namespace Sys2Proof.Machine

/-- States that differ in contexts, in the lines of the cache, in poison and in the count of free values alone. -/
def State.SameButTraffic (s t : State) : Prop := ∃ ctxs llc p q free, t = { s with ctxs := ctxs, llc := llc, hbmP := p, llcP := q, free := free }

theorem State.SameButTraffic.rfl' (s : State) : s.SameButTraffic s := ⟨s.ctxs, s.llc, s.hbmP, s.llcP, s.free, rfl⟩
theorem State.SameButTraffic.trans {s t u : State} (h : s.SameButTraffic t) (k : t.SameButTraffic u) : s.SameButTraffic u := by
  obtain ⟨c, l, p, q, f, rfl⟩ := h
  obtain ⟨c, l, p, q, f, rfl⟩ := k
  exact ⟨c, l, p, q, f, rfl⟩
theorem State.SameButLlc.traffic {s t : State} (h : s.SameButLlc t) : s.SameButTraffic t := by
  obtain ⟨a, b, c, rfl⟩ := h
  exact ⟨s.ctxs, a, b, c, s.free, rfl⟩

section
variable {s t : State} (h : s.SameButTraffic t)
include h
theorem State.SameButTraffic.cores : t.cores = s.cores := by obtain ⟨c, l, p, q, f, rfl⟩ := h; rfl
theorem State.SameButTraffic.core (n : Nat) : t.core n = s.core n := by obtain ⟨c, l, p, q, f, rfl⟩ := h; rfl
theorem State.SameButTraffic.cur : t.cur = s.cur := by obtain ⟨c, l, p, q, f, rfl⟩ := h; rfl
theorem State.SameButTraffic.hbm : t.hbm = s.hbm := by obtain ⟨c, l, p, q, f, rfl⟩ := h; rfl
theorem State.SameButTraffic.guide : t.guide = s.guide := by obtain ⟨c, l, p, q, f, rfl⟩ := h; rfl
theorem State.SameButTraffic.agenda : t.agenda = s.agenda := by obtain ⟨c, l, p, q, f, rfl⟩ := h; rfl
end

theorem State.traffic_modCtx (s : State) (c : Nat) (f : Ctx → Ctx) : s.SameButTraffic (s.modCtx c f) := ⟨_, s.llc, s.hbmP, s.llcP, s.free, rfl⟩
theorem State.traffic_tick (s : State) (k : Nat) : s.SameButTraffic (s.tick k) := ⟨s.ctxs, s.llc, s.hbmP, s.llcP, _, rfl⟩
theorem State.traffic_walk (s : State) (cxn gen : Nat) (vas : List Nat) : s.SameButTraffic (s.walk cxn gen vas).1 :=
  (s.traffic_modCtx cxn _).trans (State.traffic_tick _ 1)
/-- A fold whose every step leaves all but traffic unchanged. -/
theorem State.traffic_foldl {α β : Type} (s : State) (f : State × β → α → State × β) (hf : ∀ (x : State × β) a, x.1.SameButTraffic (f x a).1) (l : List α) (b : β) :
    s.SameButTraffic (l.foldl f (s, b)).1 := by
  suffices h : ∀ x : State × β, s.SameButTraffic x.1 → s.SameButTraffic (l.foldl f x).1 from h (s, b) (.rfl' s)
  induction l with
  | nil => exact fun x hx => hx
  | cons a l ih => exact fun x hx => ih _ (hx.trans (hf x a))
theorem State.traffic_llcTouch (s : State) (p : Phys) (n : Nat) (w : Bool) : s.SameButTraffic (s.llcTouch p n w).1 := by
  unfold State.llcTouch
  split
  · split
    · exact .rfl' s
    · exact (s.llcAccess_only _ _ _).traffic
  · refine State.traffic_foldl s _ (fun x a => ?_) _ _
    exact (x.1.llcAccess_only _ _ _).traffic
  · exact .rfl' s
theorem State.traffic_llcServe (s : State) (l : List (Phys × Nat × Bool)) : s.SameButTraffic (s.llcServe l).1 := by
  refine State.traffic_foldl s _ (fun x a => ?_) _ _
  exact x.1.traffic_llcTouch _ _ _
/-- Requests that wait at a port change nothing but what traffic changes. -/
theorem State.traffic_requests (s : State) (ag : Agent) (gen : Nat) (vas : List Nat) (need : Need) (l : List (Nat × Dest)) (touch : List (Phys × Nat × Bool)) :
    s.SameButTraffic (s.requests ag gen vas need l touch) := by
  have walked := s.traffic_walk (s.cxnOf ag) gen vas
  unfold State.requests
  dsimp only
  split
  · exact walked
  · exact (walked.trans (State.traffic_llcServe _ _)).trans (((State.traffic_modCtx _ _ _).trans (State.traffic_modCtx _ _ _)).trans (State.traffic_tick _ 1))
theorem State.traffic_request (s : State) (ag : Agent) (va : Nat) (p : Phys) (n : Nat) (w : Bool) (need : Need) :
    s.SameButTraffic (s.request ag va p n w need) := s.traffic_requests _ _ _ _ _ _

/-- A strong access that issues leaves the current agent as it is. -/
theorem State.cur_issueStrong (s : State) (ag : Agent) (x : Strong) (pair : Bool) : (s.issueStrong ag x pair).cur = s.cur := by
  unfold State.issueStrong
  split
  · exact (State.traffic_request _ _ _ _ _ _ _).cur
  · exact (State.traffic_request _ _ _ _ _ _ _).cur

end Sys2Proof.Machine
end

section
/-! Queue threads and strong accesses (R131, R304, R364 to R370). -/
namespace Sys2Proof.Machine

/-- A strong access that issues, and its agent past it. -/
theorem State.fin_issueStrong (s : State) (x : Strong) (pair : Bool) : (s.issueStrong s.cur x pair).fin 4 1 = (s.issueStrong s.cur x pair).finish s.cur 4 1 := by
  rw [State.fin, State.cur_issueStrong]

section
variable {s : State} {c q : Nat} (h : s.cur = .thread c q)
include h

theorem State.fin1_thread : s.fin1 = s.threadDid c q 4 id := by
  rw [State.fin1, State.fin, h, State.finish_thread]
theorem State.putT_thread (t : BitVec 3) (v : W64) : (s.putT s.cur t.toNat v 1).fin 4 1 = s.threadDid c q 4 (Queue.onThread (·.wt t.toNat v)) := by
  rw [State.fin, show (s.putT s.cur t.toNat v 1).cur = s.cur by rw [h]; exact h, h]
  exact State.finish_modStream_thread s c q 4 1 _
/-- A transfer of a thread, taken or not. -/
theorem State.transfer_thread (taken : Bool) (v : W64) : s.transfer taken v = (s.threadDid c q 4 id).modQueue c q (Queue.onThread fun y =>
    if taken then { y with redirect := some (v, 2), hold := .none } else { y with slots := 2, hold := .none }) := by
  rw [State.transfer, State.fin, h, State.finish_thread]
  rfl
theorem State.jump_thread (hx : (s.queue c q).thread.inSlot = false) (t : BitVec 3) (taken : Bool) :
    s.jump t taken = s.transfer taken ((s.queue c q).thread.rt t.toNat) := by
  have hs : s.stream s.cur = (s.queue c q).thread := by rw [h]; rfl
  rw [State.jump, State.notInSlot_free (by rwa [hs]), hs]

/-- A load of a thread that meets no cause issues as a strong access (R131). -/
theorem State.load_thread {r : F6} {a : BitVec 4} {z : BitVec 2} {o : BitVec 12} {va : Nat} {ph : Phys} {det : Bool}
    (hok : s.strongOk (s.smAddr a z o).toNat (smSize z) accLoad true false va ph det) (sgn : Bool) :
    s.load sgn r a z o =
      (s.issueStrong (.thread c q) (mkStrong .S (.load sgn) (smSize z) va ph det (some r.toNat) 0 false 0 0xD) false).threadDid c q 4 id := by
  rw [State.load, h]
  dsimp only
  rw [State.strong_ok _ _ _ _ _ _ _ _ _ _ hok, State.fin_issueStrong, h, State.finish_thread]
theorem exec_st_thread {r : F6} {a : BitVec 4} {z : BitVec 2} {o : BitVec 12} {va : Nat} {ph : Phys} {det : Bool}
    (hok : s.strongOk (s.smAddr a z o).toNat (smSize z) accStore true (s.rsT r) va ph det) :
    exec (.st r a z o) s = .next ((s.issueStrong (.thread c q)
      (mkStrong .S .store (smSize z) va ph det none ((s.rs r).setWidth 128) (s.rsT r) 0 0xE) false).threadDid c q 4 id) := by
  show execSt r a z o s = _
  rw [execSt, h]
  dsimp only
  rw [State.strong_ok _ _ _ _ _ _ _ _ _ _ hok, State.fin_issueStrong, h, State.finish_thread]

/-- Accesses of a thread's local store (R304). -/
theorem State.loadSp_thread {r : F6} {a : BitVec 4} {z : BitVec 2} {o : BitVec 12} (ha : (s.smAddr a z o).toNat % smSize z = 0) (sgn : Bool) :
    s.loadSp sgn r a z o = s.threadDid c q 4 (Queue.onThread (·.ws r.toNat
      (extend sgn (smSize z) (leNat (bytesOf ((s.queue c q).localRead (s.smAddr a z o).toNat (smSize z)))))
      (taintOf ((s.queue c q).localRead (s.smAddr a z o).toNat (smSize z))))) := by
  rw [State.loadSp, State.check_one_ok (decide_eq_true ha)]
  dsimp only
  rw [h]
  dsimp only
  rw [State.fin, show (State.putS s _ _ _ _ _).cur = s.cur from rfl, h]
  exact State.finish_modStream_thread s c q 4 1 _
theorem exec_stsp_thread {r : F6} {a : BitVec 4} {z : BitVec 2} {o : BitVec 12} (ha : (s.smAddr a z o).toNat % smSize z = 0) :
    exec (.stsp r a z o) s = .next (s.threadDid c q 4 (·.localWrite (s.smAddr a z o).toNat ((leBytes (smSize z) (s.rs r).toNat).map fun b => (b, s.rsT r)))) := by
  show execStsp r a z o s = _
  rw [execStsp, State.check_one_ok (decide_eq_true ha)]
  rw [h]
  dsimp only
  rw [State.fin, State.modQueue_cur, h, State.finish_modQueue]
  rfl

end

/-! Atomics and strong accesses of jobs. -/

theorem sOk_of_pairOk {d : F6} (h : pairOk d = true) : sOk d = true := (Bool.and_eq_true_iff.1 h).1

/-- A permission that an access does not ask for cannot turn its translation away. -/
theorem State.translate_asks_less {s : State} {cxn gen va : Nat} {k : Access} {p : Phys} {det : Bool} {ipa : Nat} {l : Leaf}
    (h : s.translate cxn gen va k = .ok p det ipa l) :
    s.translate cxn gen va { k with s1w := false, r := false, w := false } = .ok p det ipa l := by
  revert h
  unfold State.translate
  split
  · exact id
  · dsimp only
    split
    · exact id
    · exact id
    · split
      · exact id
      · exact id
      · split <;> exact fun h => nomatch h
      · split
        · exact id
        · intro h
          (repeat' split at h) <;> cases h
          · grind
          · grind

section
variable {s : State} {n : Nat} {e : Engine} (h : s.cur = .job n e)
include h

/-- An atomic whose access meets no cause issues with its operands, and its stream goes on. -/
theorem State.atomic_issues {op : StrongOp} {opc m : Nat} {k : Access} {host : Bool} {a : F6} {dst : Option Nat} {x cmp : BitVec 128} {xT pair : Bool}
    {va : Nat} {p : Phys} {det : Bool} (hok : s.strongOk (s.ra (a.setWidth 4)).toNat m k host xT va p det) :
    s.atomic op opc m k host a dst x cmp xT pair =
      (s.issueStrong (.job n e) (mkStrong e op m va p det dst x xT cmp opc) pair).finish (.job n e) 4 1 := by
  have he : s.engine = e := by rw [State.engine, h]
  rw [State.atomic, State.strong_ok _ _ _ _ _ _ _ _ _ _ hok, he, State.fin_issueStrong, h]

section
variable {g : Guard} (hg : (s.core n).guardOpen g)
include hg

/-- A form of the system table that its guard and its fields let through. -/
theorem State.sysWord_checked {b : Bool} (hb : b = true) (c : Nat) (k : State → State) : s.sysWord g (fun s => s.check [(b, c)] k) = .next (k s) := by
  rw [State.sysWord, State.guarded_open h hg, State.check_one_ok hb]

/-- An integer atomic (R364, R365). -/
theorem State.intAtomic_issues {opc : Nat} {carried : Bool} {d a b : F6} {w : BitVec 1} {va : Nat} {p : Phys} {det : Bool} (ha : aOk a = true)
    (hd : sOk d = true) (hb : sOk b = true)
    (hok : s.strongOk (s.ra (a.setWidth 4)).toNat (if w = 1 then 4 else 8) accAtomic (carried && s.hostAtomics) (s.rsT b) va p det) :
    s.intAtomic opc carried g d a b w = .next ((s.issueStrong (.job n e) (mkStrong e (if opc = 10 then .cas else .rmw opc) (if w = 1 then 4 else 8) va p det
      (some d.toNat) ((s.rs b).setWidth 128) (s.rsT b) ((s.rs d).setWidth 128) opc) false).finish (.job n e) 4 1) := by
  rw [State.intAtomic, State.sysWord, State.guarded_open h hg, State.check_one_ok (by rw [hd, ha, hb]; rfl), State.atomic_issues h hok]

/-- A contribution issues under its key, and its acknowledgement is awaited (R370). -/
theorem exec_aredOrd {a b : F6} {va : Nat} {p : Phys} {det : Bool} {ipa : Nat} {l : Leaf} (ha : aOk a = true) (hb : sOk b = true)
    (hpeer : ∀ x y, p ≠ .peer x y)
    (ht : s.translate (s.cxnOf s.cur) (s.genOf s.cur) (s.ra (a.setWidth 4)).toNat accAtomic = .ok p det ipa l)
    (hok : s.strongOk (s.ra (a.setWidth 4)).toNat 4 accAtomic false (s.rsT b) va p det) :
    let c := s.core n
    let pc := c.phst.toNat % 65536
    let r := c.aredNext va pc
    let i := (c.job.map (·.i)).getD 0
    let s1 := (s.setCore n r.2).issueStrong (.job n e) (mkStrong e (.ared i pc r.1) 4 va p det none ((s.rs b).setWidth 128) (s.rsT b) 0 0) false
    exec (.aredOrd g a b) s = .next (({ s1 with agenda := .ev (.aredContributionAck (.job n e)) :: s1.agenda } : State).finish (.job n e) 4 1) := by
  intro c pc r i s1
  have hcur : s1.cur = .job n e := (State.cur_issueStrong _ _ _ _).trans h
  show execAredOrd g a b s = _
  rw [execAredOrd, State.sysWord, State.guarded_open h hg, State.jobOnly_job h, State.check_one_ok (by rw [ha, hb]; rfl)]
  dsimp only
  rw [State.translate_asks_less ht]
  split
  · rename_i hp
    cases hp
    exact absurd rfl (hpeer _ _)
  · rw [State.strong_ok _ _ _ _ _ _ _ _ _ _ hok, h]
    exact congrArg (fun ag => Host.Outcome.next (State.finish _ ag 4 1)) hcur

end

end

end Sys2Proof.Machine
end

section
/-! The statements about queue threads and about atomics. -/
open Sys2Proof Sys2Proof.Machine

/-- Settles O4: on a thread each form goes past itself with its effect on the queue, or issues a strong access. -/
theorem threadResults : Obligations.ThreadResults := by
  intro s c q t p a r z o imm h k x on goTo past ea m
  have hs : s.stream s.cur = x := by rw [h]; rfl
  have hea : (s.smAddr a z o).toNat = ea := congrArg BitVec.toNat (smAddr_eq s a z o)
  have jumps : ∀ taken, x.inSlot = false → (Host.Outcome.next (s.jump t taken) : Out) = .next (if taken then goTo (x.rt t.toNat) else past) := by
    intro taken hx
    rw [State.jump_thread h hx, State.transfer_thread h]
    cases taken <;> rfl
  refine ⟨congrArg _ (State.fin1_thread h), ?_, congrArg _ (State.putT_thread h t _), fun hx => ⟨jumps true hx, jumps _ hx, ?_⟩, fun va ph det hok => ?_,
    fun va ph det hok => ?_, fun ha => ?_⟩
  · show execPtgt t imm s = _
    rw [execPtgt, State.putT_thread h, hs, signExtend_words]
  · refine (jumps (!s.rp p) hx).trans ?_
    cases s.rp p <;> rfl
  · intro go
    rw [← hea] at hok
    exact ⟨congrArg _ (State.load_thread h hok true), congrArg _ (State.load_thread h hok false)⟩
  · rw [← hea] at hok
    exact exec_st_thread h hok
  · intro l v
    rw [← hea] at ha
    refine ⟨(congrArg _ (State.loadSp_thread h ha true)).trans ?_, (congrArg _ (State.loadSp_thread h ha false)).trans ?_, (exec_stsp_thread h ha).trans ?_⟩
    · rw [hea]; rfl
    · rw [hea]; rfl
    · rw [hea]; rfl

/-- Settles O21: each form's fields let it through, and its access issues; a contribution issues under the key that its core counts. -/
theorem atomicsIssue : Obligations.AtomicsIssue := by
  refine ⟨?_, fun s n e g a b va p det ipa l h hg ha hb hpeer ht hok => exec_aredOrd h hg ha hb hpeer ht hok⟩
  intro s n e g d a b z w x va p det h hg ha ea go m v rmw
  refine ⟨fun hd hb => ?_, fun hd hb hok => ?_, fun hd hz => ?_, fun hd hz => ?_⟩
  · have int : ∀ opc carried, s.strongOk ea m accAtomic (carried && s.hostAtomics) (s.rsT b) va p det → _ :=
      fun opc carried hok => State.intAtomic_issues (opc := opc) h hg ha hd hb hok
    refine ⟨int 1 true, int 2 false, int 3 false, int 4 false, int 5 false, int 6 false, int 7 false, int 8 false, int 9 true, int 10 true, fun hok => ?_⟩
    show execAtfadd g d a b s = _
    rw [execAtfadd, State.sysWord_checked h hg (by rw [hd, ha, hb]; rfl), State.atomic_issues h hok]
  · show execAtcas16 g d a b s = _
    rw [execAtcas16, State.sysWord_checked h hg (by rw [sOk_of_pairOk hd, sOk_of_pairOk hb, ha, hd, hb]; rfl)]
    exact congrArg _ (State.atomic_issues h hok)
  · have hz4 : (z == 4) = false := beq_eq_false_iff_ne.2 fun he => by subst he; exact absurd hz (by decide)
    have hc : (sOk d && aOk a && sizeOk z && (decide (z.toNat ≠ 4) || pairOk d)) = true := by
      rw [hd, ha, sizeOk, decide_eq_true (Nat.le_of_lt hz), decide_eq_true (Nat.ne_of_lt hz)]
      rfl
    refine ⟨fun hok => ?_, fun hok => ?_⟩
    · show execLdS g d a z x s = _
      rw [execLdS, State.sysWord_checked h hg hc, State.atomic_issues h hok, hz4]
    · show execStS g d a z s = _
      rw [execStS, State.sysWord_checked h hg hc]
      simp only [hz4, Bool.false_and, Bool.or_false, Bool.false_eq_true, if_false]
      rw [State.atomic_issues h hok]
  · subst hz
    have hc : (sOk d && aOk a && sizeOk 4 && (decide ((4 : F6).toNat ≠ 4) || pairOk d)) = true := by
      rw [sOk_of_pairOk hd, ha, hd]
      rfl
    refine ⟨fun hok => ?_, fun hok => ?_⟩
    · show execLdS g d a 4 x s = _
      rw [execLdS, State.sysWord_checked h hg hc]
      exact congrArg _ (State.atomic_issues h hok)
    · show execStS g d a 4 s = _
      rw [execStS, State.sysWord_checked h hg hc]
      exact congrArg _ (State.atomic_issues h hok)
end

section
/-! V words: each puts its result from a state in which at most channel slots have been taken (R102 to R104, R171 to R221). -/
namespace Sys2Proof.Machine

/-! The state in which a V word puts its result. -/

/-- The state itself, or with the slots of some sources taken (R154). -/
def State.Taken (s : State) (n : Nat) (t : State) : Prop := t = s ∨ ∃ srcs, t = s.setCore n ((s.core n).consume srcs)

@[simp] theorem Core.str_setChan (c : Core) (k : Nat) (x : Chan) (e : Engine) : (c.setChan k x).str e = c.str e := by cases e <;> rfl
/-- Taking slots changes nothing but channels. -/
theorem Core.consume_frame (c : Core) (srcs : List (F6 × Nat)) : (c.consume srcs).member = c.member ∧ ∀ e, (c.consume srcs).str e = c.str e := by
  unfold Core.consume
  induction srcs generalizing c with
  | nil => exact ⟨rfl, fun e => rfl⟩
  | cons x l ih =>
    obtain ⟨hm, hs⟩ := ih (if isChan x.1 then c.setChan (x.1.toNat - 48) (c.chan (x.1.toNat - 48)).consume else c)
    refine ⟨hm.trans ?_, fun e => (hs e).trans ?_⟩
    · split <;> rfl
    · split
      · exact Core.str_setChan _ _ _ _
      · rfl

section
variable {s t : State} {n : Nat} {e : Engine} (ht : s.Taken n t)
include ht

theorem State.Taken.cur : t.cur = s.cur := by rcases ht with rfl | ⟨srcs, rfl⟩ <;> rfl
theorem State.Taken.ctx (c : Nat) : t.ctx c = s.ctx c := by rcases ht with rfl | ⟨srcs, rfl⟩ <;> rfl
theorem State.Taken.str (e : Engine) : (t.core n).str e = (s.core n).str e := by
  rcases ht with rfl | ⟨srcs, rfl⟩
  · rfl
  · rw [State.core_setCore_same, (Core.consume_frame _ _).2]
theorem State.Taken.member : (t.core n).member = (s.core n).member := by
  rcases ht with rfl | ⟨srcs, rfl⟩
  · rfl
  · rw [State.core_setCore_same, (Core.consume_frame _ _).1]

section
variable (h : s.cur = .job n e)
include h
theorem State.Taken.stream : t.stream t.cur = s.stream s.cur := by
  rw [ht.cur, h, State.stream_job, State.stream_job, ht.str]
theorem State.Taken.rs (r : F6) : t.rs r = s.rs r := by rw [State.rs, ht.stream h, State.rs]
theorem State.Taken.rsT (r : F6) : t.rsT r = s.rsT r := by rw [State.rsT, ht.stream h, State.rsT]
theorem State.Taken.cxnOf : t.cxnOf t.cur = s.cxnOf (.job n e) := by
  rw [ht.cur, h, State.cxnOf, State.cxnOf, ht.member]
end

end

/-- A V word whose conditions hold puts its result, whose value may be read from the state before its slots are taken. -/
theorem State.vword_put {s : State} {n : Nat} {e : Engine} (h : s.cur = .job n e) {g : Guard} {peek : BitVec 1} {spec : State → Core → VSpec}
    {k : State → Nat → Core → List VVal → State} {v : VSpec} {put : State → List VVal → State} (hg : (s.core n).guardOpen g) (hv : (s.core n).vReady v peek) (hspec : spec s (s.core n) = v) (hcur : ∀ t c vs, (k t n c vs).cur = t.cur) (hput : ∀ t vs, s.Taken n t → k t n (s.core n) vs = put t vs) :
    s.vword g peek spec k = .next (s.vDid n e peek v put) := by
  subst hspec
  obtain ⟨hc, hr⟩ := hv
  simp only [State.vword, State.engineOnly_job h, State.guarded_open h hg, State.check, hc, hr, Bool.not_true, Bool.false_eq_true, if_false, if_true,
    State.fin, State.vDid, State.cur_perf, show ¬ (0 = 24) by decide]
  have taken : s.Taken n (if peek = 1 then s else s.setCore n ((s.core n).consume (spec s (s.core n)).srcs)) := by
    split
    · exact .inl rfl
    · exact .inr ⟨_, rfl⟩
  rw [hcur, taken.cur, h, hput _ _ taken]

@[simp] theorem State.cur_putS (s : State) (ag : Agent) (r : Nat) (v : W64) (t : Bool) (lat : Nat) : (s.putS ag r v t lat).cur = s.cur := by
  cases ag <;> rfl
@[simp] theorem State.cur_putP (s : State) (ag : Agent) (r : Nat) (v t : Bool) (lat : Nat) : (s.putP ag r v t lat).cur = s.cur := by cases ag <;> rfl
@[simp] theorem State.cur_resolve (s : State) (n : Nat) (e : Engine) (m : BitVec 16) (res val : Bool) (delay : Nat) :
    (s.resolve n e m res val delay).cur = s.cur := rfl
@[simp] theorem State.cur_putD (s : State) (n : Nat) (d : F6) (v : DVal) (t : Bool) (lat : Nat) : (s.putD n d v t lat).cur = s.cur := rfl
@[simp] theorem State.cur_vmove (s : State) (n : Nat) (c : Core) (d : F6) (v : VVal) (t : Bool) (lat : Nat) (src : Shape → Nat → Nat) :
    (s.vmove n c d v t lat src).cur = s.cur := State.cur_putV _ _ _ _ _ _ _

/-! Families of V words. -/

section
variable {s : State} {n : Nat} {e : Engine} (h : s.cur = .job n e) {g : Guard} (hg : (s.core n).guardOpen g)
include h hg

/-- An element-wise word (R180, R181). -/
theorem State.elementwise_put {op : VOp} {d a b : F6} {p : BitVec 1} :
    let c := s.core n
    let h := c.sh
    let v : VSpec :=
      { conds := [(op.okFor h.ty, 10), (!op.addend || vOk d, 10)], srcs := [(a, h.nb)] ++ (if op.binary then [(b, h.nb)] else [])
        dst := if op.addend then vOnly d h.nb else some (d, h.nb), interval := cdiv (h.n * h.w) 4096 }
    c.vReady v p → s.elementwise op g d a b p = .next (s.vDid n e p v fun t vs =>
      let r := vApply h.ty c.rm op (h.elems (vAt vs 0)) (if op.binary then h.elems (vAt vs 1) else []) (if op.addend then h.elems (c.vname d) else [])
      (t.putV n d h.nb (packRes h.w r) (op.lat h.ty)).putFlags n (resFlags r) (op.lat h.ty)) := by
  intro c sh v hv
  rw [State.elementwise]
  exact State.vword_put h hg hv rfl (by simp) fun t vs ht => rfl

/-- VANY and VALL (R185): to a predicate register or to a guard slot. -/
theorem State.vpReduce_put {all : Bool} {k : BitVec 4} {a : F6} {p : BitVec 1} {val : Bool}
    (hval : (if all then ((s.core n).vpBits a.toNat (s.core n).sh.n).all Prod.fst else ((s.core n).vpBits a.toNat (s.core n).sh.n).any Prod.fst) = val)
    (hv : (s.core n).vReady { conds := [(vpOk a, 10)], srcs := [], dst := none, interval := 1 } 0) :
    s.vpReduce all g k a p = .next (s.vDid n e 0 { conds := [(vpOk a, 10)], srcs := [], dst := none, interval := 1 } fun t _ =>
      if p = 1 then t.resolve n .V (1#16 <<< k.toNat) true val 2
      else t.putP (.job n e) k.toNat val (((s.core n).vpBits a.toNat (s.core n).sh.n).any Prod.snd) 2) := by
  subst hval
  rw [State.vpReduce]
  refine State.vword_put h hg hv rfl (fun t c vs => ?_) fun t vs ht => ?_
  · dsimp only
    split
    · rfl
    · exact State.cur_putP _ _ _ _ _ _
  · dsimp only
    rw [ht.cur, h]
    rfl

/-- A reduction along the groups of a shape (R190). -/
theorem State.vred_put {op : RedOp} {row : Bool} {d a : F6} {p : BitVec 1} :
    let c := s.core n
    let h := c.sh
    let v : VSpec := { conds := [(vOk d, 10), (!h.ty.isRaw, 10)], srcs := [(a, h.nb)], dst := vOnly d h.nb, interval := h.b }
    c.vReady v p → s.vred op row g d a p = .next (s.vDid n e p v fun t vs =>
      let es := h.elems (vAt vs 0)
      let r := (redGroups h row).map fun l => (reduceElems h.ty c.rm op (l.map fun i => (es.getD i (0, false)).1), l.any fun i => (es.getD i (0, false)).2)
      (t.putV n d h.nb (packRes h.w r) 6).putFlags n (resFlags r) 6) := by
  intro c sh v hv
  rw [State.vred]
  refine State.vword_put h hg hv rfl (by simp) fun t vs ht => ?_
  simp only [List.map_map, List.any_map]
  rfl

/-- A special function (R198 to R200). -/
theorem State.vsf_put {fn : SfFn} {d a : F6} {p : BitVec 1} :
    let c := s.core n
    let h := c.sh
    let v : VSpec := { conds := [(decide (h.ty = .fp .f32), 10)], srcs := [(a, h.nb)], dst := some (d, h.nb), interval := cdiv h.n 32 }
    c.vReady v p → s.vsf fn g d a p = .next (s.vDid n e p v fun t vs =>
      t.putV n d h.nb (packElems h.w ((h.elems (vAt vs 0)).map fun x => (specialFn c.coefAt fn x.1, x.2))) (11 + cdiv h.n 32)) := by
  intro c sh v hv
  rw [State.vsf]
  exact State.vword_put h hg hv rfl (by simp) fun t vs ht => rfl

end

/-! Integer elements (Table 6-3). -/

theorem ofI_eq (w : Nat) (x : Int) : ofI w x = (BitVec.ofInt w x).toNat := by
  rw [BitVec.toNat_ofInt, ofI]
  norm_cast
theorem toS_toNat {w : Nat} (x : BitVec w) : toS w x.toNat = x.toInt := by
  rw [toS, BitVec.ofNat_toNat, BitVec.setWidth_eq]
theorem ofInt_sub_eq {w : Nat} (x y : Int) : BitVec.ofInt w (x - y) = BitVec.ofInt w x - BitVec.ofInt w y := by
  rw [Int.sub_eq_add_neg, BitVec.ofInt_add, BitVec.ofInt_neg, BitVec.sub_eq_add_neg]
theorem ofInt_natCast_toNat {w : Nat} (x : BitVec w) : BitVec.ofInt w (x.toNat : Int) = x := by
  rw [BitVec.ofInt_natCast, BitVec.ofNat_toNat, BitVec.setWidth_eq]

end Sys2Proof.Machine
end

section
/-! The statements about V words. -/
open Sys2Proof Sys2Proof.Machine

/-- Settles O22: the words by the shared element-wise operation; an integer element by the arithmetic of 32-bit vectors. -/
theorem elementwiseResults : Obligations.ElementwiseResults := by
  refine ⟨?_, ?_⟩
  · intro s n e g d a b p h hg c hs run
    have word : ∀ op i, exec i s = s.elementwise op g d a b p → run i op := fun op i hi hv => hi.trans (State.elementwise_put h hg hv)
    refine ⟨word .add _ rfl, word .sub _ rfl, word .mul _ rfl, word .min _ rfl, word .max _ rfl, word .and _ rfl, word .or _ rfl, word .xor _ rfl,
      word .shl _ rfl, word .shr _ rfl, word .sra _ rfl, word .mulh _ rfl, word .adds _ rfl, word .subs _ rfl, word .fma _ rfl, word .fms _ rfl, ?_⟩
    rintro rfl
    exact ⟨word .abs _ rfl, word .neg _ rfl⟩
  · intro rm sg x y z v
    refine ⟨?_, ?_, ?_, ?_, ?_, ?_, ?_, ?_, ?_, ?_, ?_, ?_⟩ <;> simp only [v, vElem, intElem]
    · exact (BitVec.toNat_add x y).symm
    · rw [ofI_eq, ofInt_sub_eq, ofInt_natCast_toNat, ofInt_natCast_toNat]
    · exact (BitVec.toNat_mul x y).symm
    · rw [BitVec.toNat_add, BitVec.toNat_mul, Nat.mod_add_mod]
    · rw [ofI_eq, ofInt_sub_eq, BitVec.ofInt_mul, ofInt_natCast_toNat, ofInt_natCast_toNat, ofInt_natCast_toNat]
    · exact (BitVec.toNat_and x y).symm
    · exact (BitVec.toNat_or x y).symm
    · exact (BitVec.toNat_xor x y).symm
    · rw [ofI_eq, BitVec.ofInt_neg, ofInt_natCast_toNat]
    · exact (BitVec.toNat_shiftLeft (x := x)).symm
    · exact (BitVec.toNat_ushiftRight x _).symm
    · rw [ofI_eq, toS_toNat]
      rfl

/-- Settles O23: each word puts the predicate, the elements or the mask of its rule. -/
theorem predicateWords : Obligations.PredicateWords := by
  intro s n e g d a b k cc p h1 h hg c hs nb beat bitsOf run
  refine ⟨?_, ?_, ?_, ?_, ?_, State.vpReduce_put h hg rfl, State.vpReduce_put h hg rfl, ?_, ?_⟩ <;> intro hv
  · show execVcmp g cc k a b p h1 s = _
    rw [execVcmp]
    exact State.vword_put h hg hv rfl (by simp) fun t vs ht => rfl
  · show execVsel g d a b p s = _
    rw [execVsel]
    exact State.vword_put h hg hv rfl (by simp) fun t vs ht => rfl
  · show execVpand g d a b p s = _
    rw [execVpand, State.vpOp]
    exact State.vword_put h hg hv rfl (by simp) fun t vs ht => rfl
  · show execVpor g d a b p s = _
    rw [execVpor, State.vpOp]
    exact State.vword_put h hg hv rfl (by simp) fun t vs ht => rfl
  · show execVpxor g d a b p s = _
    rw [execVpxor, State.vpOp]
    exact State.vword_put h hg hv rfl (by simp) fun t vs ht => rfl
  · show execVpmov g d a 0 s = _
    rw [execVpmov, if_pos rfl]
    exact State.vword_put h hg hv rfl (by simp) fun t vs ht => rfl
  · show execVpmov g d a 1 s = _
    rw [execVpmov, if_neg (by decide)]
    exact State.vword_put h hg hv rfl (by simp) fun t vs ht => rfl

/-- Settles O24: each conversion puts its elements and flags; a reduction those of its groups. -/
theorem conversionsAndReductions : Obligations.ConversionsAndReductions := by
  refine ⟨?_, ?_⟩
  · intro s n e g d a b ty src p h hg hsrc c hs run
    refine ⟨?_, ?_, ?_⟩ <;> intro hv
    · show execVcvt g d a ty p s = _
      rw [execVcvt, hsrc]
      exact State.vword_put h hg hv rfl (by simp) fun t vs ht => rfl
    · show execVcvts g d a b p s = _
      rw [execVcvts]
      exact State.vword_put h hg hv rfl (by simp) fun t vs ht => rfl
    · show execVquant g d a b p s = _
      rw [execVquant]
      exact State.vword_put h hg hv rfl (by simp) fun t vs ht => by rw [ht.rs h, ht.rsT h]
  · intro s n e g d a p h hg c hs run rows cols
    exact ⟨State.vred_put h hg, State.vred_put h hg, State.vred_put h hg, State.vred_put h hg, State.vred_put h hg, State.vred_put h hg⟩

/-- Settles O25: each word puts the elements that its rule names. -/
theorem moveResults : Obligations.MoveResults := by
  intro s n e g d a b p h hg c hs x run move
  refine ⟨?_, ?_, ?_, ?_, ?_, ?_⟩ <;> intro hv
  · show execVperm g d a b p s = _
    rw [execVperm]
    exact State.vword_put h hg hv rfl (by simp) fun t vs ht => rfl
  · show execVbcr g d a b p s = _
    rw [execVbcr]
    exact State.vword_put h hg hv rfl (by simp) fun t vs ht => by rw [ht.rs h, ht.rsT h]; rfl
  · show execVbcc g d a b p s = _
    rw [execVbcc]
    exact State.vword_put h hg hv rfl (by simp) fun t vs ht => by rw [ht.rs h, ht.rsT h]; rfl
  · show execVtrn g d a p s = _
    rw [execVtrn]
    exact State.vword_put h hg hv rfl (by simp) fun t vs ht => rfl
  · show execVmov g d a p s = _
    rw [execVmov]
    exact State.vword_put h hg hv rfl (by simp) fun t vs ht => rfl
  · show execVbcs g d b s = _
    rw [execVbcs]
    exact State.vword_put h hg hv rfl (by simp) fun t vs ht => by rw [ht.rs h, ht.rsT h]

/-- Settles O27: each word puts its elements, or its words and increments, or the counters; VSHAPE writes SHAPE where its value is admitted. -/
theorem specialVectorResults : Obligations.SpecialVectorResults := by
  intro s n e g d a b p h hg c hs run sf
  refine ⟨State.vsf_put h hg, State.vsf_put h hg, State.vsf_put h hg, State.vsf_put h hg, State.vsf_put h hg, State.vsf_put h hg, State.vsf_put h hg,
    fun hv => ?_, ?_, fun hv => ?_, fun ha hc => ?_⟩
  · show execVrand g d a b s = _
    rw [execVrand]
    exact State.vword_put h hg hv rfl (by simp) fun t vs ht => by rw [ht.rs h, ht.rs h, ht.rsT h, ht.rsT h]
  · intro e0 ne o lat hv
    show execVbucket g d a b p s = _
    rw [execVbucket]
    exact State.vword_put h hg hv rfl (by simp) fun t vs ht => by rw [ht.rs h, ht.rsT h]
  · show execEcnt g d a s = _
    rw [execEcnt]
    exact State.vword_put h hg hv rfl (by simp) fun t vs ht => by rw [ht.rs h, ht.cxnOf h, ht.ctx]
  · show execVshape g a s = _
    rw [execVshape, State.engineOnly_job h, State.guarded_open h hg, State.check_one_ok ha, State.check, if_pos hc, State.fin, h]
    exact congrArg (fun ag => Host.Outcome.next (State.finish _ ag 4 1)) h

/-- Settles O28: each word puts its direction and norm, its vector or its scalar. -/
theorem directionalResults : Obligations.DirectionalResults := by
  intro s n e g d a b p h hg c hs x y tx ty fits run plain
  refine ⟨?_, ?_, ?_, ?_, ?_, ?_, ?_, ?_, ?_, ?_, ?_, ?_, ?_⟩ <;> intro hv
  · show execDnorm g d a p s = _
    rw [execDnorm, State.dword]
    exact State.vword_put h hg hv rfl (by simp) fun t vs ht => rfl
  · show execDexp g d a 0 s = _
    rw [execDexp, State.dword]
    exact State.vword_put h hg hv rfl (by simp) fun t vs ht => rfl
  · show execDexp g d a 1 s = _
    rw [execDexp, State.dword]
    exact State.vword_put h hg hv rfl (by simp) fun t vs ht => rfl
  · show execDdot g d a b 0 s = _
    rw [execDdot, State.dword]
    exact State.vword_put h hg hv rfl (by simp) fun t vs ht => by rw [ht.cur, h]; rfl
  · show execDdot g d a b 1 s = _
    rw [execDdot, State.dword]
    exact State.vword_put h hg hv rfl (by simp) fun t vs ht => rfl
  · show execDdotm g d a b s = _
    rw [execDdotm, State.dword]
    exact State.vword_put h hg hv rfl (by simp) fun t vs ht => rfl
  · show execDscale g d a b s = _
    rw [execDscale, State.dword]
    exact State.vword_put h hg hv rfl (by simp) fun t vs ht => by rw [ht.rs h, ht.rsT h]
  · show execDadd g d a b s = _
    rw [execDadd, State.dirSum, State.dword]
    exact State.vword_put h hg hv rfl (by simp) fun t vs ht => rfl
  · show execDsub g d a b s = _
    rw [execDsub, State.dirSum, State.dword]
    exact State.vword_put h hg hv rfl (by simp) fun t vs ht => rfl
  · show execDneg g d a s = _
    rw [execDneg, State.dword]
    exact State.vword_put h hg hv rfl (by simp) fun t vs ht => rfl
  · show execDtest g d a s = _
    rw [execDtest, State.dword]
    exact State.vword_put h hg hv rfl (by simp) fun t vs ht => by rw [ht.cur, h]
  · show execDmovn g d a s = _
    rw [execDmovn]
    exact State.vword_put h hg hv rfl (by simp) fun t vs ht => by rw [ht.cur, h]
  · show execDsetn g d a s = _
    rw [execDsetn]
    refine State.vword_put h hg hv rfl (fun t c vs => ?_) fun t vs ht => by rw [ht.rs h, ht.rsT h]
    dsimp only
    split <;> rfl
end

section
/-! Plain loads and stores of a job: the read snapshot and the phase store buffer (R65 to R69, R147, R196). -/
namespace Sys2Proof.Machine

/-! Bytes of a number. -/

theorem length_leBytes (n x : Nat) : (leBytes n x).length = n := by
  induction n generalizing x with
  | zero => rfl
  | succ n ih => simp [leBytes, ih]
theorem getD_leBytes {n k : Nat} (x : Nat) (hk : k < n) : (leBytes n x).getD k 0 = BitVec.ofNat 8 (x / 256 ^ k) := by
  induction n generalizing x k with
  | zero => omega
  | succ n ih =>
    cases k with
    | zero => simp [leBytes]
    | succ k =>
      have := ih (x / 256) (k := k) (by omega)
      simpa [leBytes, Nat.div_div_eq_div_mul, Nat.pow_succ'] using this
theorem leNat_div (bs : List Byte) (k : Nat) : BitVec.ofNat 8 (leNat bs / 256 ^ k) = bs.getD k 0 := by
  induction bs generalizing k with
  | nil => simp [leNat]
  | cons b l ih =>
    cases k with
    | zero =>
      apply BitVec.eq_of_toNat_eq
      simp only [leNat, Nat.pow_zero, Nat.div_one, BitVec.toNat_ofNat, List.getD_cons_zero]
      omega
    | succ k =>
      have hb := b.isLt
      rw [List.getD_cons_succ, ← ih k, leNat, Nat.pow_succ', ← Nat.div_div_eq_div_mul]
      congr 2
      omega
theorem leNat_lt (bs : List Byte) : leNat bs < 256 ^ bs.length := by
  induction bs with
  | nil => simp [leNat]
  | cons b l ih =>
    have hb := b.isLt
    simp only [leNat, List.length_cons, Nat.pow_succ']
    omega
/-- A byte of a value that holds a number's bytes. -/
theorem byte_ofNat_leNat {w : Nat} {bs : List Byte} (hw : 8 * bs.length ≤ w) (k : Nat) :
    ((BitVec.ofNat w (leNat bs) >>> (8 * k)).setWidth 8 : Byte) = bs.getD k 0 := by
  rw [← leNat_div]
  apply BitVec.eq_of_toNat_eq
  have hlt : leNat bs < 2 ^ w := Nat.lt_of_lt_of_le (leNat_lt bs) (by
    rw [show (256 : Nat) = 2 ^ 8 from rfl, ← Nat.pow_mul]
    exact Nat.pow_le_pow_right (by decide) hw)
  simp [Nat.mod_eq_of_lt hlt, Nat.shiftRight_eq_div_pow, Nat.pow_mul]

/-! An access whose translation meets no cause. -/

theorem State.access_ok {s : State} {ag : Agent} {va n : Nat} {k : Access} {ps : List (Nat × Nat × Phys × Bool)} (h : s.accessOk ag va n k ps)
    (go : State → List (Nat × Nat × Phys × Bool) → State) : s.access ag va n k go = go s ps := by
  obtain ⟨ht, hl, hr⟩ := h
  have link : ¬ (k.acc = 0 ∧ (ps.any fun x => !s.linked x.2.2.1) = true) := by
    rintro ⟨h0, hx⟩
    obtain ⟨x, hm, hx⟩ := List.any_eq_true.1 hx
    rw [hl h0 x hm] at hx
    cases hx
  have refused : (if lateRefusal k = true then none else ps.find? fun x => s.refused (s.cxnOf ag) x.2.2.1 k.w k.r) = none := by
    split
    · rfl
    · rename_i hk
      exact List.find?_eq_none.2 fun x hm => by simp [hr (by simpa using hk) x hm]
  rw [State.access, ht]
  dsimp only
  rw [if_neg link, refused]

/-! What stays of a job while its access issues. -/

/-- The issuing agent and the membership of a core. -/
def State.SameJob (s t : State) (n : Nat) : Prop := t.cur = s.cur ∧ (t.core n).member = (s.core n).member

theorem State.SameJob.trans {s t u : State} {n : Nat} (h : s.SameJob t n) (k : t.SameJob u n) : s.SameJob u n :=
  ⟨k.1.trans h.1, k.2.trans h.2⟩
theorem State.SameButTraffic.job {s t : State} (h : s.SameButTraffic t) (n : Nat) : s.SameJob t n := ⟨h.cur, by rw [h.core]⟩
theorem State.sameJob_setCore (s : State) (n : Nat) {c : Core} (h : c.member = (s.core n).member) : s.SameJob (s.setCore n c) n :=
  ⟨rfl, by rw [State.core_setCore_same, h]⟩
theorem State.SameJob.cxnOf {s t : State} {n : Nat} (h : s.SameJob t n) (e : Engine) : t.cxnOf (.job n e) = s.cxnOf (.job n e) := by
  rw [State.cxnOf, h.2, State.cxnOf]

theorem State.sameJob_addPend (s : State) (n lat : Nat) (ls : Bool) (t : PendTarget) : s.SameJob (s.addPend n lat ls t) n := s.sameJob_setCore n rfl
theorem State.sameJob_putV (s : State) (n : Nat) (f : F6) (nb : Nat) (r : VVal) (lat : Nat) (ls : Bool) : s.SameJob (s.putV n f nb r lat ls) n := by
  unfold State.putV
  split
  · refine State.SameJob.trans (State.sameJob_setCore s n ?_) (State.sameJob_addPend _ _ _ _ _)
    rfl
  · exact s.sameJob_addPend _ _ _ _
theorem State.sameJob_snapTake (s : State) (n va : Nat) (p : Phys) : s.SameJob (s.snapTake n va p) n := by
  unfold State.snapTake
  dsimp only
  split
  · exact ⟨rfl, rfl⟩
  · split <;> exact s.sameJob_setCore n rfl
theorem State.sameJob_readParts (s : State) (n : Nat) (ps : List (Nat × Nat × Phys × Bool)) : s.SameJob (s.readParts n ps).1 n := by
  induction ps generalizing s with
  | nil => exact ⟨rfl, rfl⟩
  | cons x l ih => exact (s.sameJob_snapTake n _ _).trans (ih _)
/-- A load takes parts into the snapshot and asks for their lines. -/
theorem State.loadRange_state (s : State) (n va : Nat) (ps : List (Nat × Nat × Phys × Bool)) :
    (s.readParts n ps).1.SameButTraffic (s.loadRange n va ps).1 := by
  unfold State.loadRange
  dsimp only
  split
  · exact .rfl' _
  · exact State.traffic_requests _ _ _ _ _ _ _
theorem State.sameJob_loadRange (s : State) (n va : Nat) (ps : List (Nat × Nat × Phys × Bool)) : s.SameJob (s.loadRange n va ps).1 n :=
  (s.sameJob_readParts n ps).trans ((s.loadRange_state n va ps).job n)
theorem State.loadRange_hbm (s : State) (n va : Nat) (ps : List (Nat × Nat × Phys × Bool)) : (s.loadRange n va ps).1.hbm = s.hbm :=
  (s.loadRange_state n va ps).hbm.trans (s.readParts_hbm n ps)

theorem State.sameJob_issueStrong (s : State) (n : Nat) (e : Engine) (x : Strong) (pair : Bool) : s.SameJob (s.issueStrong (.job n e) x pair) n := by
  refine ⟨s.cur_issueStrong _ x pair, ?_⟩
  unfold State.issueStrong
  dsimp only
  refine (congrArg Core.member ((State.traffic_request _ _ _ _ _ _ _).core n)).trans ?_
  rw [State.core_setCore_same]
  cases pair <;> rfl
theorem State.sameJob_storePiece (s : State) (n : Nat) (e : Engine) (va : Nat) (p : Phys) (det : Bool) (bs : List (Byte × Bool)) :
    s.SameJob (s.storePiece n e va p det bs) n := by
  unfold State.storePiece
  dsimp only
  split
  · exact s.sameJob_setCore n rfl
  · split
    · refine State.SameJob.trans (State.sameJob_setCore s n ?_) ((State.traffic_requests _ _ _ _ _ _ _).job n)
      rfl
    · refine State.SameJob.trans (State.sameJob_setCore s n ?_) (State.sameJob_issueStrong _ _ _ _ _)
      rfl
theorem State.sameJob_storePieces (s : State) (n : Nat) (e : Engine) (bs : List (Byte × Bool)) (ps : List (Nat × Nat × Phys × Bool)) :
    s.SameJob (s.storePieces n e bs ps) n := by
  induction ps generalizing s bs with
  | nil => exact ⟨rfl, rfl⟩
  | cons x l ih => exact (s.sameJob_storePiece n e _ _ _ _).trans (ih _ _)

/-! Loads. -/

/-- A load of a job that meets no cause and no poison (R147). -/
theorem State.load_job {s : State} {n : Nat} {e : Engine} (h : s.cur = .job n e) {r : F6} {a : BitVec 4} {z : BitVec 2} {o : BitVec 12} {va : Nat}
    {ps : List (Nat × Nat × Phys × Bool)} (hva : (s.smAddr a z o).toNat = va) (hal : va % smSize z = 0)
    (hok : s.accessOk (.job n e) va (smSize z) accLoad ps) (hp : (s.loadRange n va ps).2.poison = 0) (sgn : Bool) :
    let x := s.loadRange n va ps
    s.load sgn r a z o = (x.1.addPend n x.2.lat true (.s e r.toNat (extend sgn (smSize z) (leNat (bytesOf x.2.bytes))) (taintOf x.2.bytes))).finish (.job n e) 4 1 := by
  subst hva
  have hcur : (s.loadRange n (s.smAddr a z o).toNat ps).1.cur = .job n e := (s.sameJob_loadRange n _ ps).1.trans h
  intro x
  rw [State.load, h]
  dsimp only
  rw [State.access_ok hok, if_neg (Decidable.not_not.2 hal)]
  rw [State.landLoad, if_neg (Decidable.not_not.2 hp), State.fin, State.cur_addPend, hcur]

/-- A part that the access lies in. -/
theorem part_add {va k : Nat} (h : va % 16 + k < 16) : (va + k) / 16 = va / 16 ∧ (va + k) % 16 = va % 16 + k := by omega
theorem Core.snapPart_add {c : Core} {va k : Nat} (h : va % 16 + k < 16) : c.snapPart (va + k) = c.snapPart va := by
  rw [Core.snapPart, (part_add h).1, Core.snapPart]

/-- The part of an address as memory holds it now. -/
def State.partNow (s : State) (va : Nat) (p : Phys) : SnapPart :=
  { va := va / 16 * 16, data := BitVec.ofNat 128 (leNat (s.physRead (p.sub (va % 16)) 16)),
    taint := s.physTaint (p.sub (va % 16)) 16, poison := s.physPoison (p.sub (va % 16)) 16 }

/-- The first read of a part takes its value into the snapshot, while there is room (R67). -/
theorem State.core_snapTake {s : State} {n va : Nat} {p : Phys} (hn : (s.core n).snapPart va = none) (hl : (s.core n).snap.length < 8192) :
    (s.snapTake n va p).core n = { s.core n with snap := (s.core n).snap ++ [s.partNow va p] } := by
  simp only [State.snapTake, hn, Option.isSome_none, Bool.false_eq_true, if_false, hl, if_true, State.core_setCore_same, State.partNow]
theorem State.snapTake_known {s : State} {n va : Nat} {p : Phys} (hn : (s.core n).snapPart va ≠ none) : s.snapTake n va p = s := by
  simp [State.snapTake, Option.isSome_iff_ne_none.2 hn]
theorem State.psb_snapTake (s : State) (n va : Nat) (p : Phys) : ((s.snapTake n va p).core n).psb = (s.core n).psb := by
  unfold State.snapTake
  dsimp only
  split
  · rfl
  · split <;> rw [State.core_setCore_same]
theorem Core.psbByte_congr {c d : Core} (h : d.psb = c.psb) (va : Nat) : d.psbByte va = c.psbByte va := by
  rw [Core.psbByte, Core.psbLine, h, Core.psbByte, Core.psbLine]

/-- A byte of a load within one part. -/
theorem State.loadRange_byte (s : State) (n va m : Nat) (p : Phys) (det : Bool) {k : Nat} (hk : k < m) :
    (s.loadRange n va [(va, m, p, det)]).2.bytes.getD k (0, false) =
      ((((s.snapTake n va p).core n).loadByte (va + k)).1, (((s.snapTake n va p).core n).loadByte (va + k)).2.1) := by
  simp [State.loadRange, State.readParts, List.getD_eq_getElem?_getD, hk]

end Sys2Proof.Machine
end

section
/-! The statement about loads. -/
open Sys2Proof Sys2Proof.Machine

/-- Settles O18: a load by the parts it takes; a byte by the buffer, the snapshot or the part as it enters the snapshot. -/
theorem loadResults : Obligations.LoadResults := by
  refine ⟨?_, ?_⟩
  · intro s n e r a z o ps h va m hal hok x hp put
    have hva : (s.smAddr a z o).toNat = va := congrArg BitVec.toNat (smAddr_eq s a z o)
    refine ⟨congrArg _ (State.load_job h hva hal hok hp true), congrArg _ (State.load_job h hva hal hok hp false), ?_⟩
    rw [State.finish_hbm, State.addPend_hbm, State.loadRange_hbm]
  · intro s n va m p det k hk hm b
    have hpart : va % 16 + k < 16 := by omega
    have hb : b = _ := State.loadRange_byte s n va m p det hk
    have hpsb : ∀ a, ((s.snapTake n va p).core n).psbByte a = (s.core n).psbByte a := fun a => Core.psbByte_congr (s.psb_snapTake n va p) a
    refine ⟨fun hbuf hsnap hl => ?_, fun y t hbuf => ?_, fun y hbuf hsnap => ?_⟩
    · have hnew : ((s.snapTake n va p).core n).snapPart (va + k) = some (s.partNow va p) := by
        rw [Core.snapPart_add hpart, State.core_snapTake hsnap hl, Core.snapPart]
        dsimp only
        rw [List.find?_append, show (s.core n).snap.find? _ = none from hsnap]
        simp [State.partNow]
      rw [hb, Core.loadByte, hpsb, hbuf, hnew, (part_add hpart).2]
      refine ⟨?_, rfl⟩
      dsimp only
      rw [State.partNow, byte_ofNat_leNat (by simp [State.physRead]), State.physRead, List.getD_eq_getElem?_getD, List.getElem?_map, List.getElem?_range hpart]
      rfl
    · rw [hb, Core.loadByte, hpsb, hbuf]
    · rw [hb, Core.loadByte, hpsb, hbuf, Core.snapPart_add hpart, State.snapTake_known (by simp [hsnap]), hsnap]
end

section
/-! Bytes of a line of the phase store buffer (R65). -/
namespace Sys2Proof.Machine

theorem getLsbD_setBit {w : Nat} (x : BitVec w) {j k : Nat} (hj : j < w) (b : Bool) :
    (setBit x k b).getLsbD j = if j = k then b else x.getLsbD j := by
  by_cases h : j = k
  · rw [if_pos h, h, getLsbD_setBit_same _ (h ▸ hj)]
  · rw [if_neg h]
    cases b <;> simp [setBit, hj] <;> intros <;> omega

theorem getLsbD_byteMask (k : Nat) : (0xFF#512).getLsbD k = decide (k < 8) := by
  rw [show (0xFF#512) = BitVec.ofNat 512 (2 ^ 8 - 1) from rfl, BitVec.getLsbD_ofNat, Nat.testBit_two_pow_sub_one]
  grind

/-- A byte of 64 in one word. -/
def byteAt (d : BitVec 512) (j : Nat) : Byte := (d >>> (8 * j)).setWidth 8

theorem byteAt_lineByte (d : BitVec 512) {j k : Nat} (hj : j < 64) (b : Byte) : byteAt (lineByte d k b) j = if j = k then b else byteAt d j := by
  ext t ht
  have hlt : 8 * j + t < 512 := by omega
  rw [byteAt, lineByte, BitVec.getElem_setWidth, BitVec.getLsbD_ushiftRight, BitVec.getLsbD_or, BitVec.getLsbD_and, BitVec.getLsbD_not,
    BitVec.getLsbD_shiftLeft, BitVec.getLsbD_shiftLeft, getLsbD_byteMask, BitVec.getLsbD_setWidth]
  by_cases h : j = k
  · subst h
    simp [ht, hlt, BitVec.getLsbD_eq_getElem, show t < 512 by omega, show ¬8 * j + t < 8 * j by omega]
  · have hd : (if j = k then b else byteAt d j)[t] = d.getLsbD (8 * j + t) := by simp [h, byteAt]
    rw [hd]
    by_cases hb : 8 * j + t < 8 * k
    · simp [hlt, hb]
    · simp [hlt, hb, show ¬ 8 * j + t - 8 * k < 8 by omega, BitVec.getLsbD_of_ge b (8 * j + t - 8 * k) (by omega)]

/-- Bytes joined at their offsets from o. -/
def putData (o : Nat) (ks : List (Nat × Byte × Bool)) (d : BitVec 512) : BitVec 512 := ks.foldl (fun d x => lineByte d (o + x.1) x.2.1) d
/-- The mask of those bytes. -/
def putMask (o : Nat) (ks : List (Nat × Byte × Bool)) (m : BitVec 64) : BitVec 64 := ks.foldl (fun m x => setBit m (o + x.1) true) m

theorem putMask_getLsbD {o j : Nat} (hj : j < 64) (ks : List (Nat × Byte × Bool)) (m : BitVec 64) :
    (putMask o ks m).getLsbD j = (m.getLsbD j || ks.any fun x => o + x.1 == j) := by
  induction ks generalizing m with
  | nil => simp [putMask]
  | cons x l ih =>
    rw [putMask, List.foldl_cons, ← putMask, ih, getLsbD_setBit _ hj, List.any_cons]
    by_cases h : j = o + x.1
    · simp [h]
    · simp [h, show (o + x.1 == j) = false by simp; omega]
theorem putData_other {o j : Nat} (hj : j < 64) {ks : List (Nat × Byte × Bool)} (h : ∀ x ∈ ks, j ≠ o + x.1) (d : BitVec 512) :
    byteAt (putData o ks d) j = byteAt d j := by
  induction ks generalizing d with
  | nil => rfl
  | cons x l ih =>
    rw [putData, List.foldl_cons, ← putData, ih fun y hy => h y (List.mem_cons_of_mem _ hy), byteAt_lineByte _ hj, if_neg (h x List.mem_cons_self)]
/-- The byte that joins at an offset, where each offset comes once. -/
theorem putData_mem {o : Nat} {ks : List (Nat × Byte × Bool)} (hn : (ks.map Prod.fst).Nodup) {x : Nat × Byte × Bool} (hx : x ∈ ks) (hj : o + x.1 < 64)
    (d : BitVec 512) : byteAt (putData o ks d) (o + x.1) = x.2.1 := by
  induction ks generalizing d with
  | nil => cases hx
  | cons y l ih =>
    rw [List.map_cons, List.nodup_cons] at hn
    rw [putData, List.foldl_cons, ← putData]
    rcases List.mem_cons.1 hx with rfl | hx
    · rw [putData_other hj fun z hz he => hn.1 (List.mem_map.2 ⟨z, hz, by omega⟩), byteAt_lineByte _ hj, if_pos rfl]
    · exact ih hn.2 hx _

/-- What a line holds of an address. -/
def PsbLine.seen (l : PsbLine) (va : Nat) : Option (Byte × Bool) :=
  if l.mask.getLsbD (va % 64) then some (l.byte (va % 64), l.taint.getLsbD (va % 64 / 16)) else none
theorem Core.psbByte_eq (c : Core) (va : Nat) : c.psbByte va = (c.psbLine va).bind (·.seen va) := by
  unfold Core.psbByte
  split
  · next l hl => simp [hl, PsbLine.seen]
  · next hl => simp [hl]

section
variable {bs : List (Byte × Bool)} {va : Nat}

theorem map_fst_range_zip (bs : List (Byte × Bool)) : ((List.range bs.length).zip bs).map Prod.fst = List.range bs.length :=
  List.map_fst_zip (by simp)
theorem range_zip_getElem {k : Nat} (hk : k < bs.length) : (k, bs[k]) ∈ (List.range bs.length).zip bs := by
  refine List.mem_of_getElem? (i := k) ?_
  simp [hk]
theorem lt_of_mem_range_zip {x : Nat × Byte × Bool} (hx : x ∈ (List.range bs.length).zip bs) : x.1 < bs.length :=
  List.mem_range.1 (List.of_mem_zip hx).1

/-- A byte stored in a line. -/
theorem PsbLine.seen_put_in (l : PsbLine) (e : Engine) (q : Nat) (det : Bool) (hp : va % 16 + bs.length ≤ 16) (h16 : bs.length ≠ 16) {k : Nat}
    (hk : k < bs.length) :
    (l.put e q (va % 64) bs det).seen (va + k) = some (bs[k].1, l.taint.getLsbD (va % 64 / 16) || taintOf bs) := by
  have hmod : (va + k) % 64 = va % 64 + k := by omega
  have hmask : (putMask (va % 64) ((List.range bs.length).zip bs) l.mask).getLsbD (va % 64 + k) = true := by
    rw [putMask_getLsbD (by omega), List.any_eq_true.2 ⟨_, range_zip_getElem hk, by simp⟩, Bool.or_true]
  have hdata : byteAt (putData (va % 64) ((List.range bs.length).zip bs) l.data) (va % 64 + k) = bs[k].1 :=
    putData_mem (x := (k, bs[k])) (by rw [map_fst_range_zip]; exact List.nodup_range) (range_zip_getElem hk) (by dsimp only; omega) _
  have htaint : (setBit l.taint (va % 64 / 16) (l.taint.getLsbD (va % 64 / 16) || taintOf bs)).getLsbD ((va % 64 + k) / 16) =
      (l.taint.getLsbD (va % 64 / 16) || taintOf bs) := by
    rw [show (va % 64 + k) / 16 = va % 64 / 16 by omega, getLsbD_setBit_same _ (by omega)]
  rw [PsbLine.seen, hmod]
  simp only [PsbLine.put, PsbLine.byte, partTaint, h16, decide_false, Bool.false_eq_true, if_false, htaint]
  exact (if_pos hmask).trans (congrArg (fun b => some (b, _)) hdata)
/-- What a store leaves of the other bytes of its line. -/
theorem PsbLine.seen_put_out (l : PsbLine) (e : Engine) (q : Nat) (det : Bool) (hp : va % 16 + bs.length ≤ 16) {b : Nat} (hb : b / 64 = va / 64)
    (hout : b < va ∨ va + bs.length ≤ b) :
    ((l.put e q (va % 64) bs det).seen b).map Prod.fst = (l.seen b).map Prod.fst ∧
    (b / 16 ≠ va / 16 → (l.put e q (va % 64) bs det).seen b = l.seen b) := by
  have hne : ∀ x ∈ (List.range bs.length).zip bs, b % 64 ≠ va % 64 + x.1 := fun x hx => by
    have := lt_of_mem_range_zip hx
    omega
  have hmask : (putMask (va % 64) ((List.range bs.length).zip bs) l.mask).getLsbD (b % 64) = l.mask.getLsbD (b % 64) := by
    rw [putMask_getLsbD (by omega), List.any_eq_false.2 fun x hx => by simpa using (hne x hx).symm, Bool.or_false]
  have hdata : byteAt (putData (va % 64) ((List.range bs.length).zip bs) l.data) (b % 64) = l.byte (b % 64) := putData_other (by omega) hne _
  have hput : ∀ t : Bool, (if (l.put e q (va % 64) bs det).mask.getLsbD (b % 64) then some ((l.put e q (va % 64) bs det).byte (b % 64), t) else none) =
      if l.mask.getLsbD (b % 64) then some (l.byte (b % 64), t) else none := fun t => by
    rw [← hdata, ← hmask]
    rfl
  rw [PsbLine.seen, hput, PsbLine.seen]
  refine ⟨by split <;> rfl, fun hq => ?_⟩
  have htaint : (l.put e q (va % 64) bs det).taint.getLsbD (b % 64 / 16) = l.taint.getLsbD (b % 64 / 16) := by
    rw [PsbLine.put]
    dsimp only
    rw [getLsbD_setBit _ (by omega), if_neg (by omega)]
  rw [htaint]
end

end Sys2Proof.Machine
end

section
/-! A store of a job within one part (R65, R147). -/
namespace Sys2Proof.Machine

/-- An aligned access of at most 16 bytes lies in one part. -/
theorem pieces_one {va m : Nat} (hm : 0 < m) (hp : va % 16 + m ≤ 16) : pieces va m = [(va, m)] := by
  have hk : (va + m - 1) / 16 - va / 16 + 1 = 1 := by omega
  rw [pieces, partOffsets, if_neg (by omega), hk]
  simp
  omega
theorem State.accessOk_one {s : State} {ag : Agent} {va m : Nat} {k : Access} {ps : List (Nat × Nat × Phys × Bool)} (hm : 0 < m)
    (hp : va % 16 + m ≤ 16) (h : s.accessOk ag va m k ps) : ∃ p det, ps = [(va, m, p, det)] := by
  have ht := h.1
  simp only [State.transRange, pieces_one hm hp, State.transPieces] at ht
  split at ht
  case h_4 heq =>
    rw [← TrRange.ok.inj heq] at ht
    exact ⟨_, _, (TrRange.ok.inj ht).symm⟩
  case h_1 | h_6 => cases ht
  case h_2 heq | h_3 heq | h_5 heq => cases heq
theorem smSize_pos (z : BitVec 2) : 0 < smSize z := Nat.two_pow_pos _
/-- The sizes of Table 5-8. -/
theorem smSize_cases (z : BitVec 2) : smSize z = 1 ∨ smSize z = 2 ∨ smSize z = 4 ∨ smSize z = 8 := by
  revert z
  decide
theorem smSize_ne_16 (z : BitVec 2) : smSize z ≠ 16 := by
  revert z
  decide
/-- An aligned scalar access lies in one part. -/
theorem smSize_part {va : Nat} {z : BitVec 2} (h : va % smSize z = 0) : va % 16 + smSize z ≤ 16 := by
  rcases smSize_cases z with hz | hz | hz | hz <;> rw [hz] at h ⊢ <;> omega

theorem State.storePieces_one {s : State} {n va m : Nat} {e : Engine} {p : Phys} {det : Bool} {bs : List (Byte × Bool)} (hm : bs.length = m) :
    s.storePieces n e bs [(va, m, p, det)] = s.storePiece n e va p det bs := by
  rw [State.storePieces, State.storePieces, List.take_of_length_le (by omega)]

/-- A plain store of a job that meets no cause (R65, R66, R405). -/
theorem State.plainStore_ok {s : State} {n va align : Nat} {e : Engine} {bs : List (Byte × Bool)} {ps : List (Nat × Nat × Phys × Bool)}
    (hok : s.accessOk (.job n e) va bs.length accStore ps) (hal : va % align = 0)
    (ht : ∀ x ∈ ps, s.taintStop (.job n e) x.2.2.2 (taintOf bs) = false)
    (hr : ∀ x ∈ (s.core n).overflow ps, s.refused (s.cxnOf (.job n e)) x.2.2.1 true false = false) (go : State → State) :
    s.plainStore n e va align bs go = go (s.storePieces n e bs ps) := by
  have hturn : (((s.core n).overflow ps).find? fun x => s.refused (s.cxnOf (.job n e)) x.2.2.1 true false) = none :=
    List.find?_eq_none.2 fun x hx => by simp [hr x hx]
  have hstop : s.taintStop (.job n e) (ps.any fun x => x.2.2.2) (taintOf bs) = false := by
    by_cases hd : (ps.any fun x => x.2.2.2) = true
    · obtain ⟨x, hx, hxd⟩ := List.any_eq_true.1 hd
      rw [hd, ← hxd, ht x hx]
    · simp [State.taintStop, hd]
  rw [State.plainStore, State.access_ok hok]
  simp only [hturn, hstop, hal]
  rfl

section
variable {s : State} {n va : Nat} {e : Engine} {p : Phys} {det : Bool} {bs : List (Byte × Bool)}

/-- A line that a store opens (Table 10-7). -/
def Core.freshLine (c : Core) (va : Nat) (p : Phys) (det : Bool) : PsbLine :=
  { va := va / 64 * 64, loc := p.sub (va % 64), mask := 0, taint := 0, data := 0, writer := [], det := det, fenced := 0, born := c.allocs }
/-- The line that a store joins. -/
def Core.storeLine (c : Core) (va : Nat) (p : Phys) (det : Bool) : PsbLine := (c.psbLine va).getD (c.freshLine va p det)

theorem Core.psbLine_congr {c d : Core} (h : d.psb = c.psb) (va : Nat) : d.psbLine va = c.psbLine va := by
  rw [Core.psbLine, h, Core.psbLine]
/-- A change of the line of an address that keeps line addresses. -/
theorem Core.psbLine_map {c d : Core} {f : PsbLine → PsbLine} (hf : ∀ l, (f l).va = l.va)
    (h : d.psb = c.psb.map fun l => if l.va = va / 64 * 64 then f l else l) (b : Nat) :
    d.psbLine b = if b / 64 = va / 64 then (c.psbLine b).map f else c.psbLine b := by
  have hva : ((fun l : PsbLine => l.va == b / 64 * 64) ∘ fun l => if l.va = va / 64 * 64 then f l else l) = fun l => l.va == b / 64 * 64 := by
    funext l
    simp only [Function.comp]
    split <;> simp [hf]
  rw [Core.psbLine, h, List.find?_map, hva, ← Core.psbLine]
  cases hl : c.psbLine b with
  | none => simp
  | some l =>
    have hb : l.va = b / 64 * 64 := by simpa using List.find?_some hl
    simp only [Option.map_some, hb]
    split <;> split <;> grind

/-- The buffer after a store that finds its line or room for one. -/
theorem State.storePiece_line (hroom : ((s.core n).psbLine va).isSome = true ∨ ((s.core n).psb.length < 2048 ∧ (s.core n).psbFull = false)) (b : Nat) :
    ((s.storePiece n e va p det bs).core n).psbLine b =
      if b / 64 = va / 64 then some (((s.core n).storeLine va p det).put e (s.core n).seq (va % 64) bs det) else (s.core n).psbLine b := by
  unfold State.storePiece
  dsimp only
  split
  · next hl =>
    obtain ⟨l, hl⟩ := Option.isSome_iff_exists.1 hl
    rw [State.core_setCore_same, Core.psbLine_map (c := s.core n) (va := va) (f := fun l => l.put e (s.core n).seq (va % 64) bs det) (fun l => rfl) rfl]
    by_cases hb : b / 64 = va / 64
    · rw [if_pos hb, if_pos hb, Core.psbLine, hb, ← Core.psbLine, Core.storeLine, hl]
      rfl
    · rw [if_neg hb, if_neg hb]
  · next hl =>
    have hnone : (s.core n).psbLine va = none := by simpa using hl
    rw [if_pos (by simpa [hl] using hroom), (State.traffic_requests _ _ _ _ _ _ _).core, State.core_setCore_same, Core.psbLine]
    dsimp only
    rw [List.find?_append, ← Core.psbLine]
    by_cases hb : b / 64 = va / 64
    · rw [if_pos hb, Core.psbLine, hb, ← Core.psbLine, Core.storeLine, hnone]
      simp [PsbLine.put, Core.freshLine]
    · rw [if_neg hb]
      have : ¬ va / 64 * 64 = b / 64 * 64 := by omega
      cases (s.core n).psbLine b <;> simp [PsbLine.put, this]
theorem State.storePiece_hbm_of_room (hroom : ((s.core n).psbLine va).isSome = true ∨ ((s.core n).psb.length < 2048 ∧ (s.core n).psbFull = false)) :
    (s.storePiece n e va p det bs).hbm = s.hbm := by
  unfold State.storePiece
  dsimp only
  split
  · rfl
  · next hl =>
    rw [if_pos (by simpa [hl] using hroom)]
    exact (State.traffic_requests _ _ _ _ _ _ _).hbm

theorem Core.seen_storeLine (c : Core) {b : Nat} (hb : b / 64 = va / 64) : (c.storeLine va p det).seen b = c.psbByte b := by
  rw [Core.psbByte_eq, Core.storeLine, show c.psbLine b = c.psbLine va by rw [Core.psbLine, hb, Core.psbLine]]
  cases c.psbLine va with
  | none => simp [PsbLine.seen, Core.freshLine]
  | some l => rfl
theorem Core.storeLine_taint (c : Core) (k : Nat) : (c.storeLine va p det).taint.getLsbD k = (c.psbLine va).any fun l => l.taint.getLsbD k := by
  rw [Core.storeLine]
  cases c.psbLine va with
  | none => simp [Core.freshLine]
  | some l => simp
end

theorem taintOf_map (bs : List Byte) (t : Bool) (h : bs ≠ []) : taintOf (bs.map fun b => (b, t)) = t := by
  cases bs with
  | nil => exact absurd rfl h
  | cons b l =>
    cases t <;> simp [taintOf]
theorem psb_finish (s : State) (n : Nat) (e : Engine) (len interval : Nat) : ((s.finish (.job n e) len interval).core n).psb = (s.core n).psb := by
  show ((s.setCore n _).core n).psb = _
  rw [State.core_setCore_same]
  cases e <;> rfl

end Sys2Proof.Machine
end

section
/-! The statement about stores. -/
open Sys2Proof Sys2Proof.Machine

/-- Settles O19: a store within one part joins one line of the buffer, old or new. -/
theorem storeResults : Obligations.StoreResults := by
  intro s n e r a z o ps h va m hal hok ht hr bs
  have hva : (s.smAddr a z o).toNat = va := congrArg BitVec.toNat (smAddr_eq s a z o)
  have hm : bs.length = m := by simp [bs, length_leBytes]
  have hpart : va % 16 + m ≤ 16 := smSize_part hal
  have hpos : 0 < m := smSize_pos z
  have htaint : taintOf bs = s.rsT r := taintOf_map _ _ (by rw [← List.length_pos_iff, length_leBytes]; exact hpos)
  obtain ⟨p, det, rfl⟩ := State.accessOk_one hpos hpart hok
  have hone : s.storePieces n e bs [(va, m, p, det)] = s.storePiece n e va p det bs := State.storePieces_one hm
  refine ⟨(congrArg Host.Outcome.next ?_ : execSt r a z o s = _), fun hl hf => ?_, ⟨p, det, rfl⟩, ?_⟩
  · rw [h]
    dsimp only
    rw [hva]
    have hst := State.plainStore_ok (align := smSize z) (show s.accessOk _ va bs.length _ _ by rw [hm]; exact hok) hal (by rw [htaint]; exact ht) hr (fun s => s.fin 4 1)
    refine hst.trans ?_
    rw [State.fin, (State.sameJob_storePieces s n e bs _).1, h]
  · rw [hone]
    exact State.storePiece_hbm_of_room (.inr ⟨hl, hf⟩)
  · intro hroom c t
    have hline : ∀ b, t.psbLine b = if b / 64 = va / 64 then some ((c.storeLine va p det).put e c.seq (va % 64) bs det) else c.psbLine b := fun b => by
      rw [Core.psbLine_congr (psb_finish _ n e 4 1), hone]
      exact State.storePiece_line hroom b
    refine ⟨?_, fun k hk => ?_, fun b hb => ?_⟩
    · rw [State.finish_hbm, hone]
      exact State.storePiece_hbm_of_room hroom
    · have hk' : k < bs.length := hm ▸ hk
      rw [Core.psbByte_eq, hline, if_pos (by omega), Option.bind_some,
        PsbLine.seen_put_in _ e _ det (hm.symm ▸ hpart) (hm ▸ smSize_ne_16 z) hk', htaint, Core.storeLine_taint, Bool.or_comm]
      congr 2
      simp only [bs, List.getElem_map]
      rw [List.getElem_eq_getD 0, getD_leBytes _ hk]
      apply BitVec.eq_of_toNat_eq
      simp [Nat.shiftRight_eq_div_pow, Nat.pow_mul]
    · by_cases hl : b / 64 = va / 64
      · have := PsbLine.seen_put_out (c.storeLine va p det) e c.seq det (hm.symm ▸ hpart) hl (by rw [hm]; exact hb)
        rw [Core.psbByte_eq, hline, if_pos hl, Option.bind_some]
        rwa [c.seen_storeLine hl] at this
      · rw [Core.psbByte_eq, hline, if_neg hl, ← Core.psbByte_eq]
        exact ⟨rfl, fun _ => rfl⟩
end

section
/-! V words that use the scratchpad or context memory (R195 to R197). -/
namespace Sys2Proof.Machine

/-- A V word that first does an access, which meets no cause (R196). -/
theorem State.vword_access {s u : State} {n : Nat} (h : s.cur = .job n .V) {g : Guard} {peek : BitVec 1} {spec : State → Core → VSpec}
    {pre : State → Nat → (State → State) → State} {lower : State → Nat → Option State} {v : VSpec} (hg : (s.core n).guardOpen g)
    (hv : (s.core n).vReady v peek) (hspec : spec s (s.core n) = v) (hpre : ∀ go, pre s n go = go u) (hu : s.SameJob u n) :
    s.vword g peek spec (fun s _ _ _ => s) pre lower =
      .next (((if peek = 1 then u else u.setCore n ((u.core n).consume v.srcs)).perf (s.cxnOf (.job n .V)) 3 1).finish (.job n .V) 4 v.interval) := by
  subst hspec
  obtain ⟨hc, hr⟩ := hv
  simp only [State.vword, State.engineOnly_job h, State.guarded_open h hg, State.check, hc, hr, Bool.not_true, Bool.false_eq_true, if_false, if_true,
    hpre, show ¬ (0 = 24) by decide, State.fin, State.cur_perf]
  have hcur : (if peek = 1 then u else u.setCore n ((u.core n).consume (spec s (s.core n)).srcs)).cur = .job n .V := by
    split <;> exact hu.1.trans h
  rw [hu.1, h, hu.cxnOf, hcur]

theorem VVal.length_bytes (v : VVal) (n : Nat) : (v.bytes n).length = n := by simp [VVal.bytes, length_leBytes]

/-- Pending writes, one for each element of a list, keep the issuing agent. -/
theorem State.cur_foldl_addPend {α : Type} (l : List α) (n lat : Nat) (f : State → α → PendTarget) (s : State) :
    (l.foldl (fun s z => s.addPend n lat false (f s z)) s).cur = s.cur := by
  induction l generalizing s with
  | nil => rfl
  | cons x l ih => exact (ih _).trans (s.cur_addPend n lat false (f s x))

theorem State.rs_addPend {s : State} {n : Nat} {e : Engine} (h : s.cur = .job n e) (m lat : Nat) (ls : Bool) (t : PendTarget) (r : F6) :
    (s.addPend m lat ls t).rs r = s.rs r := by
  rw [State.rs, State.rs, State.cur_addPend, h, State.stream_job, State.stream_job, State.addPend, State.modCore, State.core_setCore]
  split
  · next hm =>
    subst hm
    cases e <;> rfl
  · rfl
/-- Pending writes whose targets name a register of the issuing stream. -/
theorem State.foldl_addPend_rs {α : Type} {s : State} {n : Nat} {e : Engine} (h : s.cur = .job n e) (l : List α) (lat : Nat) (r : F6)
    (f : Nat → α → PendTarget) :
    l.foldl (fun u z => u.addPend n lat false (f (u.rs r).toNat z)) s = l.foldl (fun u z => u.addPend n lat false (f (s.rs r).toNat z)) s := by
  induction l generalizing s with
  | nil => rfl
  | cons x l ih =>
    have := ih (s := s.addPend n lat false (f (s.rs r).toNat x)) ((s.cur_addPend _ _ _ _).trans h)
    rwa [State.rs_addPend h] at this

end Sys2Proof.Machine
end

section
/-! The statement about vector memory. -/
open Sys2Proof Sys2Proof.Machine

/-- Settles O26: each word by the condition of V words, VLDM and VSTM by their access. -/
theorem vectorMemory : Obligations.VectorMemory := by
  refine ⟨?_, ?_⟩
  · intro s n e g d a b p h hg c sh x run at_ el
    have same : ∀ t : State, s.Taken n t → (t.rs a).toNat = x := fun t ht => congrArg BitVec.toNat (ht.rs h a)
    refine ⟨fun hv => ?_, fun hv => ?_, fun hv => ?_, fun hv => ?_⟩
    · show execVld g d a s = _
      rw [execVld]
      refine State.vword_put h hg hv rfl (fun t c vs => ?_) fun t vs ht => ?_
      · dsimp only
        split <;> rfl
      · dsimp only
        rw [same t ht]
        rfl
    · show execVst g a b p s = _
      rw [execVst]
      refine State.vword_put h hg hv rfl (fun t c vs => rfl) fun t vs ht => ?_
      rw [same t ht]
    · show execVgath g d a b p s = _
      rw [execVgath]
      refine State.vword_put h hg hv rfl (fun t c vs => rfl) fun t vs ht => ?_
      dsimp only
      rw [same t ht]
      rfl
    · show execVscat g d a b p s = _
      rw [execVscat]
      refine State.vword_put h hg hv rfl (fun t c vs => ?_) fun t vs ht => ?_
      · dsimp only
        exact State.cur_foldl_addPend _ _ _ _ _
      dsimp only
      have := State.foldl_addPend_rs (ht.cur.trans h) ((sh.elems (vAt vs 0)).zip (unpackElems 16 sh.n (vAt vs 1))) (3 + cdiv sh.n 32) a
        fun y z => .sp .V ((c.window (gatherAt y sh.w z.2.1) (sh.w / 8)).getD 0) (tainted (z.1.2 || z.2.2) (leBytes (sh.w / 8) z.1.1))
      rw [same t ht] at this
      exact this
  · intro s n g d a b p ps h hg c nb va v w hal
    refine ⟨?_, ?_⟩
    · intro hv hok x hp s1
      have hj : s.SameJob s1 n := (s.sameJob_loadRange n va ps).trans (State.sameJob_putV _ _ _ _ _ _ _)
      show execVldm g d a s = _
      rw [execVldm]
      refine State.vword_access (u := s1) h hg hv rfl (fun go => ?_) hj
      dsimp only
      rw [State.access_ok hok, if_neg (Decidable.not_not.2 hal), if_neg (Decidable.not_not.2 hp)]
    · intro hv hok bs ht hr s1
      show execVstm g a b p s = _
      rw [execVstm]
      refine State.vword_access (u := s1) h hg hv rfl (fun go => ?_) (s.sameJob_storePieces n .V bs ps)
      have hlen : bs.length = nb := VVal.length_bytes _ _
      exact State.plainStore_ok (by rw [hlen]; exact hok) hal ht hr go
end

section
/-! Fences, buffered bytes that copies see, and what a wait for a semaphore comes after (R71, R83, R157, R164). -/
namespace Sys2Proof.Machine

section
variable {s : State} {n : Nat} {e : Engine} (h : s.cur = .job n e) {l f : BitVec 4}
include h

theorem State.fence_free (hz : f = 0 ∨ l = 0 ∨ (f = 1 ∧ l = 1)) : s.fence l f = s.jobDid n e 4 1 id := by
  rw [State.fence, if_pos hz, State.fin1_job h]
theorem State.fence_passes (hz : ¬ (f = 0 ∨ l = 0 ∨ (f = 1 ∧ l = 1))) (hd : (s.core n).fenced ((s.core n).pastOf e (s.now n)) f = true) :
    s.fence l f = s.jobDid n e 4 1 fun c => { c with
      snap := if f &&& 0xE ≠ 0 ∧ l.getLsbD 0 = true then [] else c.snap
      psb := if f.getLsbD 0 then c.psb.map (·.fence l) else c.psb } := by
  rw [State.fence, if_neg hz, h]
  dsimp only
  rw [if_pos hd]
  exact State.fin_modCore h 4 1 (fun c => { c with
      snap := if f &&& 0xE ≠ 0 ∧ l.getLsbD 0 = true then [] else c.snap
      psb := if f.getLsbD 0 then c.psb.map (·.fence l) else c.psb }) rfl
theorem State.fence_held (hz : ¬ (f = 0 ∨ l = 0 ∨ (f = 1 ∧ l = 1))) (hd : (s.core n).fenced ((s.core n).pastOf e (s.now n)) f = false)
    (hh : ((s.core n).str e).hold = .none) :
    s.fence l f = s.modStream s.cur fun x => { x with hold := .fence (s.core n).seq (s.now n) } := by
  rw [State.fence, if_neg hz]
  split
  · next hc => rw [h] at hc; cases hc
  · next m k hc =>
    rw [h] at hc
    cases hc
    rw [if_neg (by rw [hd]; exact Bool.false_ne_true), h]
    simp only [State.modStream, State.stream_job, State.setStream, hh]
end

theorem PsbLine.fence_fenced (z : PsbLine) (l : BitVec 4) {path k : Nat} (h1 : 1 ≤ path) (h3 : path ≤ 3) (hk : k < 64) :
    (z.fence l).fenced.getLsbD (64 * (path - 1) + k) = (z.fenced.getLsbD (64 * (path - 1) + k) || (l.getLsbD path && z.mask.getLsbD k)) := by
  have shifted : ∀ p j : Nat, j < 192 → (z.mask.setWidth 192 <<< (64 * (p - 1))).getLsbD j =
      (decide (64 * (p - 1) ≤ j) && z.mask.getLsbD (j - 64 * (p - 1))) := fun p j hj => by
    rw [BitVec.getLsbD_shiftLeft, BitVec.getLsbD_setWidth]
    grind
  have bit : ∀ (m : BitVec 192) (p : Nat), 1 ≤ p → (if l.getLsbD p then m ||| (z.mask.setWidth 192 <<< (64 * (p - 1))) else m).getLsbD (64 * (path - 1) + k) =
      (m.getLsbD (64 * (path - 1) + k) || (p == path && l.getLsbD path && z.mask.getLsbD k)) := fun m p hp => by
    by_cases hpp : p = path
    · subst hpp
      split <;> simp_all [shifted p _ (show 64 * (p - 1) + k < 192 by omega)]
    · have off : (z.mask.setWidth 192 <<< (64 * (p - 1))).getLsbD (64 * (path - 1) + k) = false := by
        rw [shifted _ _ (by omega)]
        by_cases hlt : p < path
        · rw [BitVec.getLsbD_of_ge _ _ (by omega), Bool.and_false]
        · rw [decide_eq_false (by omega), Bool.false_and]
      split <;> simp [hpp, off]
  rw [PsbLine.fence]
  simp only [List.foldl_cons, List.foldl_nil, bit _ 1 (by omega), bit _ 2 (by omega), bit _ 3 (by omega)]
  have : path = 1 ∨ path = 2 ∨ path = 3 := by omega
  rcases this with rfl | rfl | rfl <;> simp

theorem Past.le_join_left (p q : Past) (k : Nat) : vget p.ls k 0 ≤ vget (p.join q).ls k 0 := by
  simp only [vget, Past.join, Vector.getElem?_zipWith]
  cases hp : p.ls[k]? with
  | none => simp
  | some x =>
    have : k < 4 := (Vector.getElem?_eq_some_iff.1 hp).1
    simp [this, Nat.le_max_left]
theorem Past.le_join_right (p q : Past) (k : Nat) : vget q.ls k 0 ≤ vget (p.join q).ls k 0 := by
  simp only [vget, Past.join, Vector.getElem?_zipWith]
  cases hq : q.ls[k]? with
  | none => simp
  | some x =>
    have : k < 4 := (Vector.getElem?_eq_some_iff.1 hq).1
    simp [this, Nat.le_max_right]
/-- A stream that learns a past comes after it. -/
theorem Order.le_learn (o : Order) (e : Engine) (p : Past) (k : Nat) :
    vget p.ls k 0 ≤ vget (vget (o.learn e p).known (engNum e) .reset).ls k 0 := by
  rw [Order.learn, vget_setIfInBounds, if_pos ⟨rfl, by cases e <;> decide⟩]
  exact Past.le_join_right _ _ _

end Sys2Proof.Machine
end

section
/-! The statement about fences. -/
open Sys2Proof Sys2Proof.Machine

/-- Settles O15: FENCE by what is still to be performed, a buffered byte by the fences over its line, a wait by the first increments on record. -/
theorem fenceResults : Obligations.FenceResults := by
  refine ⟨?_, ?_, ?_⟩
  · intro s n e l f h c
    refine ⟨fun hz => congrArg _ (State.fence_free h hz), fun hf hl hne => ?_⟩
    have hn : ¬(f = 0 ∨ l = 0 ∨ f = 1 ∧ l = 1) := fun hz => hz.elim hf fun hz => hz.elim hl hne
    refine ⟨fun hp hc => congrArg _ (State.fence_passes h hn ?_), ?_⟩
    · rw [Core.fenced, Bool.and_eq_true, Bool.or_eq_true, List.all_eq_true, List.all_eq_true]
      refine ⟨?_, fun x hx => ?_⟩
      · by_cases hf0 : f.getLsbD 0 = true
        · refine .inr fun x hx => ?_
          have := hp hf0 x hx
          grind
        · exact .inl (by simpa using hf0)
      · have := hc x hx
        grind
    · rintro ⟨x, hx, hls, hf0, hlt⟩ hh
      refine congrArg _ (State.fence_held h hn ?_ hh)
      have : (c.pend.all fun x => !x.ls || decide (vget (c.pastOf e (s.now n)).ls (engNum (c.lsEngine x)) 0 ≤ x.seq)) = false :=
        List.all_eq_false.2 ⟨x, hx, by simp [hls, hlt]⟩
      rw [Core.fenced, this, hf0]
      rfl
  · intro c z l path va free b h1 h3 hz hb
    have hmask : z.mask.getLsbD (va % 64) = true := by
      rw [Core.psbByte, hz] at hb
      refine Decidable.byContradiction fun hm => ?_
      simp [hm] at hb
    refine ⟨?_, fun hf => ?_, fun hf => ?_⟩
    · rw [PsbLine.fence_fenced z l h1 h3 (by omega), hmask]
      simp
    · simp [Core.copySees, hb, hz, hf]
    · simp [Core.copySees, hb, hz, hf, Option.filter]
  · intro o e f k m p rest hm ho
    have hfirst : vget p.ls (engNum f) 0 ≤ vget (takeSem k m o.sems).1.ls (engNum f) 0 := by
      rw [ho, takeSem, if_pos ⟨rfl, hm⟩, if_pos (Nat.le_refl m)]
      exact Past.le_join_left _ _ _
    exact Nat.le_trans hfirst (Order.le_learn _ _ _ _)
end

section
/-! The forms of queue threads over their queue (R308 to R316, R321). -/
namespace Sys2Proof.Machine

/-- A guarded queue form whose fields are good runs on its thread. -/
theorem State.qWord_thread {s : State} {c q : Nat} (h : s.cur = .thread c q) {g : Guard} (hg : g = 0 ∨ g = 16) {conds : List (Bool × Nat)}
    (hc : lowest conds = 0) (k : State → Nat → Nat → State) : s.qWord g conds k = .next (k s c q) := by
  rw [State.qWord, State.guarded_zero hg, State.queueOnly_thread h, State.check, if_pos hc]
theorem lowest_sOk_two {a b : F6} (ha : sOk a = true) (hb : sOk b = true) : lowest [(sOk a && sOk b, 10)] = 0 := by simp [lowest, ha, hb]
theorem lowest_one_ok {b : Bool} (h : b = true) (k : Nat) : lowest [(b, k)] = 0 := by rw [h]; rfl

@[simp] theorem State.cur_modQueue (s : State) (c q : Nat) (f : Queue → Queue) : (s.modQueue c q f).cur = s.cur := rfl
theorem State.cur_msix (s : State) (fn vec : Nat) : (s.msix fn vec).cur = s.cur := by
  unfold State.msix
  split <;> rfl
theorem State.cur_withdraw (s : State) (n : Nat) : (s.withdraw n).cur = s.cur := by
  unfold State.withdraw
  dsimp only
  repeat' split
  all_goals rfl
theorem State.cur_resumeAt (s : State) (n : Nat) (e : Engine) (a : W64) : (s.resumeAt n e a).cur = s.cur := by
  unfold State.resumeAt
  dsimp only
  split
  · exact s.cur_withdraw n
  · exact s.cur_withdraw n
  · rfl
theorem State.cur_setJobReg (s : State) (n m r : Nat) (v : W64) : (s.setJobReg n m r v).cur = s.cur := by
  unfold State.setJobReg
  dsimp only
  split
  · rfl
  split
  · rfl
  split
  · rfl
  split
  · rfl
  · exact State.cur_resumeAt _ _ _ _

section
variable {s : State} {c q : Nat} (h : s.cur = .thread c q)
include h

theorem State.qPut_thread (d : F6) (v : W64) (t : Bool) : s.qPut d v t = s.threadDid c q 4 (Queue.onThread (·.ws d.toNat v t)) := by
  rw [State.qPut, State.fin, show (s.putS s.cur d.toNat v t 0).cur = s.cur by rw [h]; exact h, h]
  exact State.finish_modStream_thread s c q 4 1 _
theorem State.fin_modQueue (f : Queue → Queue) : (s.modQueue c q f).fin 4 1 = s.threadDid c q 4 f := by
  rw [State.fin, State.cur_modQueue, h, State.finish_modQueue]
theorem State.fin_of_cur {t : State} (ht : t.cur = s.cur) : t.fin 4 1 = t.finish (.thread c q) 4 1 := by rw [State.fin, ht, h]

variable {g : Guard} (hg : g = 0 ∨ g = 16) {d a b : F6}
include hg

theorem exec_kstat (hd : sOk d = true) (ha : sOk a = true) : exec (.kstat g d a) s =
    .next (s.threadDid c q 4 (Queue.onThread (·.ws d.toNat (BitVec.ofNat 64 ((s.ctx c).statusWord (W64.f (s.rs a) 31 0))) false))) := by
  show execKstat g d a s = _
  rw [execKstat, State.qWord_thread h hg (lowest_sOk_two hd ha), State.qPut_thread h]
theorem exec_kwait (hd : sOk d = true) (ha : sOk a = true) : exec (.kwait g d a) s = .next (
    if (s.ctx c).statusWord (W64.f (s.rs a) 31 0) % 8 < 4 then s.modQueue c q fun k => { k with state := .waiting, kwait := some (W64.f (s.rs a) 31 0) }
    else s.threadDid c q 4 (Queue.onThread (·.ws d.toNat (BitVec.ofNat 64 ((s.ctx c).statusWord (W64.f (s.rs a) 31 0))) false))) := by
  show execKwait g d a s = _
  rw [execKwait, State.qWord_thread h hg (lowest_sOk_two hd ha)]
  dsimp only
  rw [State.qPut_thread h]
theorem exec_qrd (hd : sOk d = true) (ha : sOk a = true) {x : W64} {t : Bool} (hx : s.queueReg c q (W64.f (s.rs a) 15 0) = some (x, t)) :
    exec (.qrd g d a) s = .next (
      if W64.f (s.rs a) 15 0 = 9 then { s.threadDid c q 4 (Queue.onThread (·.ws d.toNat x t)) with agenda := .auto (.qrsmRead c q) :: s.agenda }
      else s.threadDid c q 4 (Queue.onThread (·.ws d.toNat x t))) := by
  show execQrd g d a s = _
  rw [execQrd, State.qWord_thread h hg (lowest_sOk_two hd ha)]
  dsimp only
  rw [hx]
  dsimp only
  rw [State.qPut_thread h]
  rfl
theorem exec_qrd_none (hd : sOk d = true) (ha : sOk a = true) (hx : s.queueReg c q (W64.f (s.rs a) 15 0) = none) :
    exec (.qrd g d a) s = .next (s.endQueue c q .faulted 10) := by
  show execQrd g d a s = _
  rw [execQrd, State.qWord_thread h hg (lowest_sOk_two hd ha)]
  dsimp only
  rw [hx]
  dsimp only
  rw [State.cause_thread h]
/-- QWR of a queue's own register; bit 8 of QCTL asks for a halt (R310). -/
theorem exec_qwr_queue (ha : sOk a = true) (hb : sOk b = true) (hx : (s.queueReg c q (W64.f (s.rs a) 15 0)).isNone = false)
    (hi : W64.f (s.rs a) 15 0 < 0x1000) : exec (.qwr g a b) s = .next (
      if W64.f (s.rs a) 15 0 = 0 ∧ (s.rs b).getLsbD 8 = true then
        { s.threadDid c q 4 (·.writeReg (W64.f (s.rs a) 15 0) (s.rs b)) with agenda := .auto (.qctlHalt c q) :: s.agenda }
      else s.threadDid c q 4 (·.writeReg (W64.f (s.rs a) 15 0) (s.rs b))) := by
  show execQwr g a b s = _
  rw [execQwr, State.qWord_thread h hg (lowest_sOk_two ha hb)]
  simp only [hx, Bool.false_eq_true, if_false, hi, if_true, State.fin_modQueue h]
  rfl
theorem exec_qwr_job (ha : sOk a = true) (hb : sOk b = true) (hx : (s.queueReg c q (W64.f (s.rs a) 15 0)).isNone = false)
    (hi : 0x1000 ≤ W64.f (s.rs a) 15 0) {n : Nat} (hn : (s.queue c q).handling = some n) : exec (.qwr g a b) s =
      .next ((s.setJobReg n ((W64.f (s.rs a) 15 0 - 0x1000) / 256) (W64.f (s.rs a) 15 0 % 256) (s.rs b)).finish (.thread c q) 4 1) := by
  show execQwr g a b s = _
  rw [execQwr, State.qWord_thread h hg (lowest_sOk_two ha hb)]
  simp only [hx, Bool.false_eq_true, if_false, Nat.not_lt.2 hi, hn]
  rw [State.fin_of_cur h (State.cur_setJobReg _ _ _ _ _)]
theorem exec_npbeg (ha : sOk a = true) (hz : s.rs a ≠ 0) (hn : (s.queue c q).np = false) : exec (.npbeg g a) s =
    .next (s.threadDid c q 4 fun k => { k with np := true, bound := s.rs a, elapsed := 0, watched := false }) := by
  show execNpbeg g a s = _
  rw [execNpbeg, State.qWord_thread h hg (lowest_one_ok ha 10)]
  dsimp only
  rw [State.check, if_pos (lowest_one_ok (by rw [hn, bne_iff_ne.2 hz]; rfl) 10), State.fin_modQueue h]
theorem exec_npend (hn : (s.queue c q).np = true) : exec (.npend g) s =
    .next (s.threadDid c q 4 fun k => { k with np := false, bound := 0, elapsed := 0, watched := false }) := by
  show execNpend g s = _
  rw [execNpend, State.qWord_thread h hg (conds := []) rfl]
  rw [State.check, if_pos (lowest_one_ok hn 10), State.fin_modQueue h]
theorem exec_qsig (ha : sOk a = true) (hv : W64.f (s.rs a) 10 0 < 64) : exec (.qsig g a) s =
    .next ((s.msix (s.ctx c).vf (W64.f (s.rs a) 10 0)).finish (.thread c q) 4 1) := by
  show execQsig g a s = _
  rw [execQsig, State.qWord_thread h hg (lowest_one_ok ha 10)]
  dsimp only
  rw [State.check, vfVectors, if_pos (lowest_one_ok (decide_eq_true hv) 10), State.fin_of_cur h (State.cur_msix _ _ _)]
end

end Sys2Proof.Machine
end

section
/-! The statements about queue forms and registers. -/
open Sys2Proof Sys2Proof.Machine

/-- Settles O39: one equation for each form. -/
theorem queueForms : Obligations.QueueForms := by
  intro s cxn q g d a b h hg hd ha hb
  refine ⟨exec_kstat h hg hd ha, fun hs => ?_, fun hs => ?_, fun x t hx => ⟨fun hi => ?_, fun hi => ?_, fun hi hz => ?_, fun hi hz => ?_, fun n hi hn => ?_⟩,
    exec_qrd_none h hg hd ha, exec_npbeg h hg ha, exec_npend h hg, exec_qsig h hg ha, rfl, fun hr hh => ?_, fun hr => ?_⟩
  · rw [exec_kwait h hg hd ha, if_neg (Nat.not_lt.2 hs)]
  · rw [exec_kwait h hg hd ha, if_pos hs]
  · rw [exec_qrd h hg hd ha hx, if_neg hi]
  · rw [exec_qrd h hg hd ha hx, if_pos hi]
  · rw [exec_qwr_queue h hg ha hb (by rw [hx]; rfl) hi, if_neg fun hc => hz.elim (· hc.1) fun hf => by rw [hf] at hc; exact Bool.false_ne_true hc.2]
  · rw [exec_qwr_queue h hg ha hb (by rw [hx]; rfl) (by rw [hi]; decide), if_pos ⟨hi, hz⟩, hi]
  · exact exec_qwr_job h hg ha hb (by rw [hx]; rfl) hi hn
  · show execQctlHalt cxn q s = _
    rw [execQctlHalt, if_neg (Decidable.not_not.2 hr)]
    simp only [hh]
  · show execQctlHalt cxn q s = _
    rw [execQctlHalt, if_pos hr]

/-- A recording context whose ring has been read to its end: RIDX and WIDX are its capacity, register s1 holds the index of RIDX. -/
def Sys2Proof.Machine.ringAtEnd : State :=
  (State.reset.modTrail 0 fun t => { t with mode := 1, widx := 4096, ridx := 4096 }).modQueue 0 0 (Queue.onThread (·.ws 1 3 false))

/-- Refutes O41: in record mode a TRWR that sets RIDX back crosses the watermark, so WEV is set too (R385). -/
theorem not_contextAndTrailRegisters : ¬ Obligations.ContextAndTrailRegisters := by
  intro hall
  obtain ⟨-, hthread⟩ := hall ringAtEnd 0 0 0 0 1 0 (.inl rfl) rfl rfl rfl
  obtain ⟨-, -, -, -, htrail⟩ := hthread rfl
  obtain ⟨-, htrwr⟩ := htrail 4096 (by decide +kernel)
  have h := htrwr (by decide +kernel) (.inl (by decide +kernel)) (.inl (by decide +kernel))
  have wev : (match exec (.trwr 0 1 0) ringAtEnd with | .next t => (t.ctx 0).trail.wev | _ => false) = true := by decide +kernel
  rw [h] at wev
  exact absurd wev (by decide +kernel)
end

section
/-! The Guide's mailbox: how a command ends (R456, R457). -/
namespace Sys2Proof.Machine

/-- How a command's end leaves the Guide. -/
theorem State.mbEnd_guide (s : State) (result reason : Nat) : ∃ p, (s.mbEnd result reason).guide =
    { s.guide with busy := false, waitInv := none, result := BitVec.ofNat 4 result, reason := BitVec.ofNat 32 reason, msixPend := p } := by
  unfold State.mbEnd State.msix
  split
  · exact ⟨_, rfl⟩
  · exact ⟨s.guide.msixPend, rfl⟩
theorem State.mbEnd_guideOnly (s : State) (result reason : Nat) : s.guideOnly (s.mbEnd result reason) := by
  unfold State.guideOnly State.mbEnd State.msix
  split <;> rfl
theorem State.mbEnd_ended (s : State) (result reason : Nat) : (s.mbEnd result reason).ended result reason := by
  obtain ⟨p, hp⟩ := s.mbEnd_guide result reason
  rw [State.ended, hp]
  exact ⟨rfl, rfl, rfl, rfl⟩

section
variable {s t : State} (h : s.guideOnly t)
include h
theorem State.guideOnly.hbm : t.hbm = s.hbm := by rw [h]
theorem State.guideOnly.cores : t.cores = s.cores := by rw [h]
theorem State.guideOnly.ctxs : t.ctxs = s.ctxs := by rw [h]
theorem State.guideOnly.ctx (n : Nat) : t.ctx n = s.ctx n := by rw [h]; rfl
end
@[simp] theorem State.mbEnd_ctx (s : State) (r k n : Nat) : (s.mbEnd r k).ctx n = s.ctx n := (s.mbEnd_guideOnly r k).ctx n

section
variable {s : State} (hi : s.idleGuide) {conds : List (Bool × Nat)}
include hi

/-- A command whose checks hold acts. -/
theorem State.commandBy_ok (k : State → State) (hc : ∀ c ∈ conds, c.1 = true) : s.commandBy conds k = .next (k s) := by
  obtain ⟨hr, hw⟩ := hi
  rw [State.commandBy, if_neg (by simp [hr, hw]), List.find?_eq_none.2 fun c hm => by simp [hc c hm]]
theorem State.command_ok (k : State → State) (hc : ∀ c ∈ conds, c.1 = true) : s.command conds k = .next ((k s).mbEnd 0 0) :=
  State.commandBy_ok hi _ hc
/-- The first check that fails gives its REASON. -/
theorem State.commandBy_fails {k : State → State} {o : Out} {c : Bool × Nat} (he : o = s.commandBy conds k)
    (hc : (conds.find? fun c => !c.1) = some c) : ∃ t, o = .next t ∧ t.ended 1 c.2 ∧ s.guideOnly t := by
  obtain ⟨hr, hw⟩ := hi
  refine ⟨s.mbEnd 1 c.2, ?_, s.mbEnd_ended _ _, s.mbEnd_guideOnly _ _⟩
  rw [he, State.commandBy, if_neg (by simp [hr, hw]), hc]
theorem State.commandBy_first {k : State → State} {o : Out} {c : Bool × Nat} {rest : List (Bool × Nat)}
    (he : o = s.commandBy (c :: rest) k) (hc : c.1 = false) : ∃ t, o = .next t ∧ t.ended 1 c.2 ∧ s.guideOnly t :=
  State.commandBy_fails hi he (by rw [List.find?_cons, hc]; rfl)

/-- A command that ends with RESULT 0 and leaves memory and the cores alone. -/
def State.settles (s : State) (o : Out) (P : State → Prop) : Prop :=
  ∃ t, o = .next t ∧ t.ended 0 0 ∧ t.hbm = s.hbm ∧ t.cores = s.cores ∧ P t
theorem State.settles_of {k : State → State} {u : State} {o : Out} {P : State → Prop} (he : o = s.command conds k) (hc : ∀ c ∈ conds, c.1 = true)
    (hk : k s = u) (hh : u.hbm = s.hbm) (hcores : u.cores = s.cores) (hP : P (u.mbEnd 0 0)) : s.settles o P := by
  subst hk
  have hg := (k s).mbEnd_guideOnly 0 0
  exact ⟨_, he.trans (State.command_ok hi k hc), State.mbEnd_ended _ _ _, hg.hbm.trans hh, hg.cores.trans hcores, hP⟩
/-- A command that changes one context. -/
theorem State.settles_modCtx {f : Ctx → Ctx} {k : State → State} {o : Out} {n : Nat} {P : State → Prop} (he : o = s.command conds k)
    (hc : ∀ c ∈ conds, c.1 = true) (hk : k s = s.modCtx n f) (hn : n < 32) (hP : ∀ t : State, t.ctx n = f (s.ctx n) → P t) : s.settles o P :=
  State.settles_of hi he hc hk rfl rfl (hP _ (by rw [State.mbEnd_ctx, State.ctx_modCtx, if_pos ⟨rfl, hn⟩]))
/-- A command that changes what the Guide holds, in fields that a command's end does not touch. -/
theorem State.settles_guide {f : Guide → Guide} {k : State → State} {o : Out} {P : State → Prop} (he : o = s.command conds k)
    (hc : ∀ c ∈ conds, c.1 = true) (hk : k s = s.modGuide f)
    (hP : ∀ (t : State) (r : BitVec 4) (q : BitVec 32) (p : List (Nat × Nat)), t.ctxs = s.ctxs →
      t.guide = { f s.guide with busy := false, waitInv := none, result := r, reason := q, msixPend := p } → P t) : s.settles o P := by
  obtain ⟨p, hp⟩ := (s.modGuide f).mbEnd_guide 0 0
  exact State.settles_of hi he hc hk rfl rfl (hP _ _ _ p (State.mbEnd_guideOnly _ 0 0).ctxs hp)
end

theorem State.cxHeld_of {s : State} {n : Nat} (hn : n < 32) (hs : (s.ctx n).state ≠ .free) : (s.cxHeld n).1 = true := by
  cases hst : (s.ctx n).state <;> simp_all [State.cxHeld, CxState.held]
theorem State.cxHeld_fails {s : State} {n : Nat} (h : 32 ≤ n ∨ (s.ctx n).state = .free) : (s.cxHeld n).1 = false := by
  rcases h with h | h
  · simp [State.cxHeld, show ¬n < 32 by omega]
  · simp [State.cxHeld, h, CxState.held]
theorem State.cxIn_fails {s : State} {n : Nat} {l : List CxState} (h : 32 ≤ n ∨ (s.ctx n).state ∉ l) : (s.cxIn n l).1 = false := by
  rcases h with h | h
  · simp [State.cxIn, show ¬n < 32 by omega]
  · simp [State.cxIn, h]

end Sys2Proof.Machine
end

section
/-! The statements about commands that check, set and read. -/
open Sys2Proof Sys2Proof.Machine

/-- Settles O47: a command's end by the first check that fails. -/
theorem commandChecks : Obligations.CommandChecks := by
  intro s op code n
  refine ⟨fun hr => ?_, fun hi => ⟨?_, fun hf => ?_, fun hf i hw => ?_, fun he => ?_, fun hn => ?_⟩⟩
  · have off : ∀ o conds k, o = s.commandBy conds k → o = .next s := fun o conds k ho => by rw [ho, State.commandBy, if_pos (by simp [hr])]
    refine ⟨off _ _ _ (execBind.eq_1 op s), off _ _ _ (execSetquant.eq_1 op s), off _ _ _ (execEvread.eq_1 op s), off _ _ _ (execFrclr.eq_1 op s), ?_⟩
    show execUnknownCommand code s = _
    rw [execUnknownCommand, if_pos (by simp [hr])]
  · obtain ⟨hr, hw⟩ := hi
    refine ⟨s.mbEnd 2 0, ?_, s.mbEnd_ended _ _, s.mbEnd_guideOnly _ _⟩
    show execUnknownCommand code s = _
    rw [execUnknownCommand, if_neg (by simp [hr, hw])]
  · exact State.commandBy_first hi (execBind.eq_1 op s) (State.cxIn_fails (hf.imp_right fun hs hm => hs (List.mem_singleton.1 hm)))
  · have held := State.cxHeld_fails hf
    have among : ∀ l, .free ∉ l → (s.cxIn n l).1 = false := fun l hl => State.cxIn_fails (hf.imp_right fun hs => by rwa [hs])
    rcases hw with rfl | rfl | rfl | rfl | rfl | rfl | rfl | rfl | rfl | rfl | rfl | rfl
    · exact State.commandBy_first hi (execSetquant.eq_1 op s) held
    · exact State.commandBy_first hi (execSetpcal.eq_1 op s) held
    · exact State.commandBy_first hi (execPcread.eq_1 op s) held
    · exact State.commandBy_first hi (execTrack.eq_1 op s) held
    · exact State.commandBy_first hi (execS2root.eq_1 op s) held
    · exact State.commandBy_first hi (execS2inv.eq_1 op s) held
    · exact State.commandBy_first hi (execWinset.eq_1 op s) held
    · exact State.commandBy_first hi (execSetgen.eq_1 op s) held
    · exact State.commandBy_first hi (execPreempt.eq_1 op s) (among [.running, .quiescing] (by decide))
    · exact State.commandBy_first hi (execUnbind.eq_1 op s) (among [.bound, .running, .saved] (by decide))
    · exact State.commandBy_first hi ((execResolve.eq_1 op s).trans (State.answerTo.eq_1 ..)) held
    · exact State.commandBy_first hi ((execDeny.eq_1 op s).trans (State.answerTo.eq_1 ..)) held
  · exact State.commandBy_first hi (execEvread.eq_1 op s) (by rw [he]; rfl)
  · exact State.commandBy_first hi (execFrclr.eq_1 op s) (decide_eq_false (Nat.not_lt.2 hn))
end

section
namespace Sys2Proof.Machine

theorem State.guideOnly.refl (s : State) : s.guideOnly s := rfl
theorem State.guideOnly.trans {s t u : State} (h : s.guideOnly t) (k : t.guideOnly u) : s.guideOnly u := by
  rw [State.guideOnly, k, h]
theorem State.modGuide_guideOnly (s : State) (f : Guide → Guide) : s.guideOnly (s.modGuide f) := rfl
theorem State.msix_guideOnly (s : State) (fn vec : Nat) : s.guideOnly (s.msix fn vec) := by
  unfold State.msix
  split <;> rfl
theorem State.event_guideOnly (s : State) (type cx id payload : Nat) (keep : Bool) : s.guideOnly (s.event type cx id payload keep) := by
  unfold State.event
  dsimp only
  split
  · exact (s.modGuide_guideOnly _).trans (State.msix_guideOnly _ _ _)
  · exact s.modGuide_guideOnly _
theorem State.genNotices_guideOnly (s : State) (cxn : Nat) (l : List Nat) : s.guideOnly (s.genNotices cxn l) := by
  unfold State.genNotices
  induction l generalizing s with
  | nil => rfl
  | cons x l ih =>
    refine State.guideOnly.trans (t := if (s.ctx cxn).heldGens.contains x ∨ x = (s.ctx cxn).cg then s else s.event 3 (cxn + 1) 0 x) ?_ (ih _)
    split
    · rfl
    · exact s.event_guideOnly _ _ _ _ _
theorem State.port_of_guide {s : State} {ps : Vector Port 25} {n : Nat} {p : Port} (h : s.guide.ports = ps.setIfInBounds n p) (hn : n < 25) :
    s.port n = p := by
  rw [State.port, h, vget_setIfInBounds, if_pos ⟨rfl, hn⟩]

theorem State.mbData_modGuide_guideOnly (s : State) (v : Nat) (f : Guide → Guide) : s.guideOnly ((s.mbData v).modGuide f) :=
  State.guideOnly.trans (s.modGuide_guideOnly _) (State.modGuide_guideOnly _ f)
/-- A bank that the Guide sets, with data for MBRES, as its command ends. -/
theorem State.bank_set (s : State) (v : Nat) {n : Nat} (hn : n < 9) (b : Bank) :
    vget (((s.mbData v).modGuide fun g => { g with banks := g.banks.setIfInBounds n b }).mbEnd 0 0).guide.banks n .reset = b := by
  obtain ⟨p, hp⟩ := ((s.mbData v).modGuide fun g => { g with banks := g.banks.setIfInBounds n b }).mbEnd_guide 0 0
  rw [hp]
  exact (vget_setIfInBounds _ _ _ _ _).trans (if_pos ⟨rfl, hn⟩)

end Sys2Proof.Machine
end

section
open Sys2Proof Sys2Proof.Machine
/-- Settles O48: each setting by the change it makes before its command ends. -/
theorem settings : Obligations.Settings := by
  intro s op hi n c done
  have one : ∀ {b : Bool × Nat}, b.1 = true → ∀ x ∈ [b], x.1 = true := fun h x hx => by rwa [List.mem_singleton.1 hx]
  have two : ∀ {b d : Bool × Nat}, b.1 = true → d.1 = true → ∀ x ∈ [b, d], x.1 = true := fun h k x hx => by
    rcases List.mem_cons.1 hx with rfl | hx
    · exact h
    · rwa [List.mem_singleton.1 hx]
  have hdone : ∀ i P, s.settles (exec i s) P → done i P := fun i P h => h
  clear_value done
  refine ⟨fun hn hs => ?_, fun hn hs hok => ?_, fun hv => ⟨?_, fun hf => ?_⟩, fun hn => ⟨?_, fun hok => ?_⟩, fun h1 h2 => ?_, fun ev rest he hb => ?_,
    fun hn => ?_, fun h8 h15 hsp => ?_, fun hn hl => ?_, fun hn => ?_⟩
  · have held := State.cxHeld_of hn hs
    refine ⟨?_, ?_, fun hp => ?_, ?_, fun hg hh hc => ?_, fun hok => ?_⟩ <;> refine hdone _ _ ?_
    · exact State.settles_modCtx hi (execSetquant.eq_1 op s) (one held) rfl hn fun t ht => ht
    · exact State.settles_modCtx hi (execSetpcal.eq_1 op s) (one held) rfl hn fun t ht => ht
    · exact State.settles_guide hi (execPcread.eq_1 op s) (two held (decide_eq_true hp)) rfl fun t r q p hc hg => ⟨by rw [hg], hc⟩
    · exact State.settles_modCtx hi (execTrack.eq_1 op s) (one held) rfl hn fun t ht => ht
    · have hn' := State.genNotices_guideOnly (s.modCtx n fun c => { c with cg := opF op 1 1 }) n [c.cg]
      have hg2 : (opF op 1 1 == (s.ctx n).cg || !(s.ctx n).heldGens.contains (opF op 1 1)) = true := by
        rw [show (s.ctx n).heldGens.contains _ = false from hh, Bool.not_false, Bool.or_true]
      refine State.settles_of hi (execSetgen.eq_1 op s) (two held hg2) (if_neg hg) hn'.hbm hn'.cores ?_
      rw [State.mbEnd_ctx, hn'.ctx, State.ctx_modCtx, if_pos ⟨rfl, hn⟩]
    · refine State.settles_of hi (execShares.eq_1 op s) (two (decide_eq_true hn) hok) (if_pos (Bool.and_eq_true_iff.1 held).2) rfl rfl ?_
      rw [State.mbEnd_ctx, State.attest, State.ctx_modCtx, if_pos ⟨rfl, hn⟩, State.changeTable, (State.modGuide_guideOnly _ _).ctx, State.ctx_modCtx, if_pos ⟨rfl, hn⟩]
      exact ⟨rfl, rfl, rfl⟩
  · refine hdone _ _ (State.settles_modCtx hi (execShares.eq_1 op s) (two (decide_eq_true hn) hok) (if_neg ?_) hn fun t ht => ht)
    rw [show (s.ctx n).state = .free from hs]
    decide
  · refine hdone _ _ (State.settles_guide hi (execRouteset.eq_1 op s) (one (decide_eq_true hv)) rfl fun t r q p hc hg => by rw [hg])
  · refine hdone _ _ (State.settles_guide hi (execDevnum.eq_1 op s) (two (decide_eq_true hv) ?_) rfl fun t r q p hc hg => by rw [hg])
    exact List.all_eq_true.2 fun k hk => by rw [hf k (List.mem_range.1 hk)]; rfl
  · exact hdone _ _ (State.settles_guide hi (execFrclr.eq_1 op s) (one (decide_eq_true hn)) rfl fun t r q p hc hg => by rw [hg]; rfl)
  · exact hdone _ _ (State.settles_guide hi (execFrset.eq_1 op s) (two (decide_eq_true hn) hok) rfl fun t r q p hc hg => by rw [hg]; rfl)
  · exact hdone _ _ (State.settles_guide hi (execScrubper.eq_1 op s) (one (by simp [h1, h2])) rfl fun t r q p hc hg => by rw [hg])
  · refine hdone _ _ (State.settles_guide (f := fun g => { g with mbres := ev, events := rest }) hi (execEvread.eq_1 op s) (one (by rw [he]; rfl)) ?_
      fun t r q p hc hg => by rw [hg]; exact ⟨rfl, rfl⟩)
    simp only [he, State.modGuide, hb]
  · refine hdone _ _ (State.settles_of hi (execEbread.eq_1 op s) (one (decide_eq_true hn)) rfl (State.mbData_modGuide_guideOnly s _ _).hbm
      (State.mbData_modGuide_guideOnly s _ _).cores (State.bank_set s _ hn _))
  · refine hdone _ _ (State.settles_guide hi (execMext.eq_1 op s) (two ?_ hsp) rfl fun t r q p hc hg => by rw [hg]; rfl)
    exact Bool.and_eq_true_iff.2 ⟨decide_eq_true h8, decide_eq_true h15⟩
  · refine hdone _ _ (State.settles_of hi (execEccnorm.eq_1 op s) (two (decide_eq_true hn) ?_) rfl rfl rfl ?_)
    · rw [show vget s.guide.railLow (opF op 0 1) false = false from hl]
      rfl
    · obtain ⟨p, hp⟩ := State.mbEnd_guide ((s.tick 1).modGuide fun g =>
        { g with railLow := g.railLow.setIfInBounds n false, banks := g.banks.setIfInBounds n { vget g.banks n .reset with dected := false } }) 0 0
      refine (congrArg (fun g : Guide => (vget g.banks n .reset).dected) hp).trans ?_
      exact congrArg Bank.dected ((vget_setIfInBounds _ _ _ _ _).trans (if_pos ⟨rfl, by omega⟩))
  · refine ⟨?_, fun hst => ?_, fun hst => ?_, fun hst => ?_⟩ <;> refine hdone _ _ ?_
    · exact State.settles_guide hi (execPortsts.eq_1 op s) (one (decide_eq_true hn)) rfl fun t r q p hc hg => by rw [hg]; rfl
    · refine State.settles_guide hi (execPortup.eq_1 op s) (two (decide_eq_true hn) (beq_iff_eq.2 hst)) rfl fun t r q p hc hg => ?_
      rw [show t.port n = _ from State.port_of_guide (congrArg Guide.ports hg) hn]
      exact ⟨rfl, rfl⟩
    · refine State.settles_guide hi (execPortdrain.eq_1 op s) (two (decide_eq_true hn) ?_) rfl fun t r q p hc hg => ?_
      · rw [Port.carries, show (s.port (opF op 0 1)).state = .up from hst]
        rfl
      · rw [show t.port n = _ from State.port_of_guide (congrArg Guide.ports hg) hn]
    · refine State.settles_guide hi (execPortdown.eq_1 op s) (two (decide_eq_true hn) ?_) rfl fun t r q p hc hg => ?_
      · rw [show (s.port (opF op 0 1)).state = .failed from hst]
        rfl
      · rw [show t.port n = _ from State.port_of_guide (congrArg Guide.ports hg) hn]
end

section
/-! What the resets leave, and the answers of the attestation mailboxes (R425, R426, R453 to R455). -/
namespace Sys2Proof.Machine

/-- A warm reset of a device on which no context runs. -/
theorem State.warmReset_still {s : State} (h : ∀ n, n < 32 → (s.ctx n).state.runs = false) : s.warmReset = { s with
    ctxs := Vector.replicate 32 .reset, cores := [], agenda := [], pcyc := 0, issued := [], lastThread := []
    guide := { Guide.reset with mrs := s.guide.mrs, boot := 3, warm := true, attempt := s.guide.attempt + 1, railLow := s.guide.railLow, kept := s.guide.kept } } := by
  have stays : ∀ l : List Nat, (∀ n ∈ l, n < 32) → l.foldl (fun t n => if (t.ctx n).state.runs then (t.sendAbort n).haltCtx n else t) s = s := by
    intro l hl
    induction l with
    | nil => rfl
    | cons x l ih =>
      rw [List.foldl_cons, if_neg (by simp [h x (hl x List.mem_cons_self)])]
      exact ih fun n hn => hl n (List.mem_cons_of_mem _ hn)
  rw [State.warmReset, stays _ fun n hn => List.mem_range.1 hn]
theorem vget_replicate {α : Type} {n k : Nat} (hk : k < n) (x d : α) : vget (Vector.replicate n x) k d = x := by simp [vget, hk]

/-- A state in which a mailbox has sent one message, and neither memory nor a context has changed. -/
def State.answers (s : State) (fn : Nat) (P : Doe → Prop) (t : State) : Prop :=
  ∃ l, t.out = .spdm fn l :: s.out ∧ P (t.doe fn) ∧ t.hbm = s.hbm ∧ t.ctxs = s.ctxs

section
variable {s : State} {fn : Nat} {P : Doe → Prop}

theorem State.answers.tick {t : State} (h : s.answers fn P t) (k : Nat) : s.answers fn P (t.tick k) := h

section
variable (hr : s.guide.rdy = true) (hf : fn < 64)
include hr hf
theorem State.answerDoe_answers {req res : List Byte} {f : Doe → Doe}
    (h : P { f (s.doe fn) with transcript := (f (s.doe fn)).transcript ++ req ++ res }) : s.answers fn P (s.answerDoe fn req res f) := by
  rw [State.answerDoe, if_pos ⟨hr, hf⟩]
  refine ⟨res, rfl, ?_, rfl, rfl⟩
  rwa [State.doe, show (State.send _ _).guide.does = aset s.guide.does fn _ from rfl, aget?_aset_same]
theorem State.refuseDoe_answers {code data : Nat} (h : P (s.doe fn)) : s.answers fn P (s.refuseDoe fn code data) := by
  rw [State.refuseDoe, if_pos ⟨hr, hf⟩]
  exact ⟨_, rfl, h, rfl, rfl⟩
theorem State.signedDoe_answers {req res : List Byte} (h : ∀ tr, P { s.doe fn with transcript := tr }) : s.answers fn P (s.signedDoe fn req res) :=
  (State.answerDoe_answers hr hf (h _)).tick 32
end
end

end Sys2Proof.Machine
end

section
/-! The statements about resets and attestation. -/
open Sys2Proof Sys2Proof.Machine

/-- Settles O53: the resets by what they write. -/
theorem resets : Obligations.Resets := by
  intro s op
  refine ⟨⟨_, rfl, rfl, rfl, rfl, rfl, rfl, rfl, rfl, rfl, rfl⟩, fun hn hb => ⟨⟨s.warmReset, ?_, ?_⟩, fun hi => ?_⟩, fun hb he => ?_, rfl, rfl, rfl, rfl, rfl,
    fun n hn => congrArg Ctx.state (vget_replicate hn _ _), fun k hk => congrArg Port.state (vget_replicate hk _ _)⟩
  · show execPfFlr s = _
    rw [execPfFlr, if_pos (.inl hb)]
  · rw [State.warmReset_still hn]
    exact ⟨rfl, rfl, rfl, rfl, rfl, fun n hn => vget_replicate hn _ _⟩
  · obtain ⟨hr, hw⟩ := hi
    show execReset op s = execPfFlr s
    rw [execReset, if_neg (by simp [hr, hw]), execPfFlr, if_pos (.inl hb)]
  · show execPfFlr s = _
    rw [execPfFlr, if_neg fun h => h.elim (Nat.not_le.2 hb) (· he)]

/-- Settles O54: each request by the answer or the refusal of its mailbox. -/
theorem attestation : Obligations.Attestation := by
  intro s fn asym hash slot off len index nonce code hr hf d answers
  have hans : ∀ i P t, exec i s = .next t → s.answers fn P t → answers i P := fun i P t hi ⟨l, ho⟩ => ⟨t, l, hi, ho⟩
  clear_value answers
  refine ⟨?_, ?_, fun ha hh => ?_, fun ha => ?_, ?_, ?_, ?_, fun h17 h1 sign => ?_, ?_, ?_⟩
  · exact hans _ _ _ rfl (State.answerDoe_answers hr hf ⟨rfl, rfl, rfl⟩)
  · exact hans _ _ _ rfl ((State.answerDoe_answers hr hf ⟨rfl, rfl⟩).tick 1)
  · refine hans _ _ _ (congrArg Host.Outcome.next (if_pos ?_)) (State.answerDoe_answers hr hf rfl)
    rw [algRsassa4096, algSha512, ha, hh]
    rfl
  · refine hans _ _ _ (congrArg Host.Outcome.next (if_neg ?_)) (State.refuseDoe_answers hr hf rfl)
    rw [algRsassa4096, ha]
    exact Bool.false_ne_true
  · exact hans _ _ _ rfl (State.answerDoe_answers hr hf rfl)
  · refine hans _ _ _ rfl ?_
    split
    · exact State.answerDoe_answers hr hf rfl
    · exact State.refuseDoe_answers hr hf rfl
  · refine hans _ _ _ rfl ?_
    split
    · exact State.signedDoe_answers hr hf fun tr => rfl
    · exact State.refuseDoe_answers hr hf rfl
  · refine hans _ _ _ rfl ?_
    rw [if_neg (by omega), State.block, if_pos ⟨h1, by omega⟩]
    dsimp only [Option.map_some]
    split
    · exact State.signedDoe_answers hr hf fun tr => rfl
    · exact State.answers.tick (P := fun x => x.algs = d.algs) (State.answerDoe_answers hr hf rfl) 32
  · exact hans _ _ _ rfl (State.refuseDoe_answers hr hf rfl)
  · refine hans _ _ _ rfl ?_
    rw [if_pos ⟨hr, hf⟩]
    exact ⟨_, rfl, rfl, rfl, rfl⟩
end

section
/-! Contexts and queues read after a change, and LAUNCH (R311 to R313, R325). -/
namespace Sys2Proof.Machine

section
variable (s : State) {c q : Nat} (hc : c < 32)
include hc
theorem State.ctx_modCtx_same (f : Ctx → Ctx) : (s.modCtx c f).ctx c = f (s.ctx c) := by rw [State.ctx_modCtx, if_pos ⟨rfl, hc⟩]
theorem State.ctx_modQueue_same (f : Queue → Queue) : (s.modQueue c q f).ctx c = (s.ctx c).setQueue q (f (s.queue c q)) := s.ctx_modCtx_same hc _
theorem State.queue_modQueue_same (hq : q < 16) (f : Queue → Queue) : (s.modQueue c q f).queue c q = f (s.queue c q) := by
  rw [State.queue, s.ctx_modQueue_same hc, Ctx.queue_setQueue, if_pos ⟨rfl, hq⟩]
theorem State.ctx_threadDid (len : Nat) (f : Queue → Queue) :
    (s.threadDid c q len f).ctx c = (s.ctx c).setQueue q ((f (s.queue c q)).past len) := by
  rw [← s.ctx_modQueue_same hc fun k => (f k).past len, State.ctx, State.ctx]
  rfl
theorem State.queue_threadDid (hq : q < 16) (len : Nat) (f : Queue → Queue) : (s.threadDid c q len f).queue c q = (f (s.queue c q)).past len := by
  rw [State.queue, s.ctx_threadDid hc, Ctx.queue_setQueue, if_pos ⟨rfl, hq⟩]
theorem State.insts_threadDid (len : Nat) (f : Queue → Queue) : ((s.threadDid c q len f).ctx c).insts = (s.ctx c).insts := by
  rw [s.ctx_threadDid hc, Ctx.setQueue]
end

theorem Stream.rs?_advance (x : Stream) (len r : Nat) : (x.advance len).rs? r = x.rs? r := by
  unfold Stream.advance
  split <;> rfl
/-- A register of a thread that has written its registers and gone on. -/
theorem Queue.rs?_past (k : Queue) (f : Stream → Stream) (len r : Nat) : ((k.onThread f).past len).thread.rs? r = (f k.thread).rs? r :=
  Stream.rs?_advance _ _ _

/-- A device read that meets no cause and no poison. -/
theorem State.deviceRead_ok {s : State} {va n : Nat} {ps : List (Nat × Nat × Phys × Bool)} (h : s.accessOk s.cur va n accLoad ps)
    (hp : ∀ x ∈ ps, s.physPoison x.2.2.1 x.2.1 = 0) (go : State → List Byte → State) :
    s.deviceRead va n go = go s (ps.flatMap fun x => s.physRead x.2.2.1 x.2.1) := by
  rw [State.deviceRead, State.access_ok h]
  rw [List.find?_eq_none.2 fun x hx => by simp [hp x hx]]

/-- The dependence list of a code object that has none, or that is misaligned. -/
theorem State.withDepList_nil {s : State} {code : Nat} {qs : List (Nat × Nat × Phys × Bool)}
    (h : code % 128 ≠ 0 ∨ (s.accessOk s.cur code 128 accLoad qs ∧ (∀ x ∈ qs, s.physPoison x.2.2.1 x.2.1 = 0) ∧
        field (qs.flatMap fun x => s.physRead x.2.2.1 x.2.1) 15 1 = 0)) (go : State → List Nat → State) : s.withDepList code go = go s [] := by
  rw [State.withDepList, State.depListWith]
  split
  · rfl
  · next ha =>
    obtain ⟨hok, hp, hz⟩ := h.resolve_left ha
    rw [State.deviceRead_ok hok hp, if_neg fun hd => hd.2.2.2 hz]

/-- An instance's failure keeps what its launch gave it. -/
theorem Ctx.any_failDeps (k : Nat) (c : Ctx) (P : Inst → Bool) (hP : ∀ i : Inst, P { i with state := .faulted, cause := 0 } = P i) :
    (c.failDeps k).insts.any P = c.insts.any P := by
  induction k generalizing c with
  | zero => rfl
  | succ k ih =>
    rw [Ctx.failDeps, ih, List.any_map]
    refine congrArg (c.insts.any ·) (funext fun i => ?_)
    simp only [Function.comp]
    split
    · exact hP i
    · rfl
theorem Ctx.queues_failDeps (k : Nat) (c : Ctx) : (c.failDeps k).queues = c.queues := by
  induction k generalizing c with
  | zero => rfl
  | succ k ih => exact ih _

section
variable {s : State} {cxn q : Nat} (hc : cxn < 32) (hq : q < 16) {r : LaunchRec} {ser : Bool} {list : List Nat}
include hc

theorem State.queue_createInst (hq : q < 16) : ((s.createInst cxn q r ser list).2.queue cxn q) =
    { s.queue cxn q with launched := (s.queue cxn q).launched + 1, seq := launchSeq ((s.queue cxn q).launched + 1) * 16 + q } := by
  rw [State.queue, State.createInst, State.ctx_modCtx_same _ hc, Ctx.queue, Ctx.queues_failDeps]
  exact (Ctx.queue_setQueue _ _ _ _).trans (if_pos ⟨rfl, hq⟩)
theorem State.createInst_any :
    ((s.createInst cxn q r ser list).2.ctx cxn).insts.any
      (fun i => i.handle == launchSeq ((s.queue cxn q).launched + 1) * 16 + q && i.code == r.code && i.argp == r.argp && i.gen == (s.ctx cxn).cg) = true := by
  rw [State.createInst, State.ctx_modCtx_same _ hc, Ctx.any_failDeps _ _ _ fun i => rfl]
  dsimp only
  rw [List.any_append, Bool.or_eq_true]
  right
  simp [mkInst, State.queue]
end

end Sys2Proof.Machine
end

section
/-! The statement about LAUNCH. -/
open Sys2Proof Sys2Proof.Machine

/-- Settles O40: LAUNCH by the two reads that precede its instance. -/
theorem launches : Obligations.Launches := by
  intro s cxn q g d a b ps qs h hg hc hq hd ha hb va
  have hf : lowest [(sOk d && aOk a && sOk b, 10)] = 0 := by simp [lowest, hd, ha, hb]
  refine ⟨fun hn => ?_, ?_⟩
  · show execLaunch g d a b s = _
    rw [execLaunch, State.qWord_thread h hg hf, if_pos hn]
  · intro hn hal hok hp r hnd hdeps hcode L hh
    have hck : lowest [(decide (r.ndep ≤ 5) && r.deps.all (s.ctx cxn).depNamed, 10)] = 0 := by
      refine lowest_one_ok (Bool.and_eq_true_iff.2 ⟨decide_eq_true (by omega), List.all_eq_true.2 fun x hx => ?_⟩) 10
      rw [hdeps x hx, Ctx.depNamed]
      rfl
    have hrun : exec (.launch g d a b) s = .next ((s.createInst cxn q r ((s.rs b).getLsbD 2) []).2.qPut d (BitVec.ofNat 64 hh) false) := by
      show execLaunch g d a b s = _
      rw [execLaunch, State.qWord_thread h hg hf, if_neg (Nat.not_le.2 hn)]
      dsimp only
      rw [if_neg (Decidable.not_not.2 hal), State.deviceRead_ok (h.symm ▸ hok) hp, State.check, if_pos hck,
        State.withDepList_nil (qs := qs) (h.symm ▸ hcode)]
      rfl
    have hcur : (s.createInst cxn q r ((s.rs b).getLsbD 2) []).2.cur = .thread cxn q := h
    rw [State.qPut_thread hcur] at hrun
    have hk := State.queue_threadDid (s.createInst cxn q r ((s.rs b).getLsbD 2) []).2 hc hq 4 (Queue.onThread (·.ws d.toNat (BitVec.ofNat 64 hh) false))
    rw [State.queue_createInst hc hq] at hk
    refine ⟨_, hrun, rfl, rfl, by rw [hk]; rfl, by rw [hk]; rfl, fun hd0 => ?_, ?_⟩
    · rw [hk, Queue.rs?_past, Stream.rs?_ws _ _ _ _ _ (by omega) d.isLt, if_pos rfl]
    · rw [State.insts_threadDid _ hc]
      exact State.createInst_any hc
end

section
/-! The statement about handlers. -/
open Sys2Proof Sys2Proof.Machine

/-- A job that TRAP has stopped after the second delay slot of a taken transfer, its redirect still pending (R138, R168), with the handler
of its queue entered. -/
def Sys2Proof.Machine.trapBehindSlots : State :=
  (State.reset.modCore 0 fun c => { c with
    stop := some { cause := 24, strm := .V, faddr := 0x123, held := true, parked := false, cycle := 0 }
    strV := { c.strV with redirect := some (0x40, 0) } }).modQueue 0 0 fun k => { k with hnd := true, handling := some 0 }

/-- Refutes O35: at ERET a stream whose redirect is still pending takes it, so that its job goes on at the target and not where it stood. -/
theorem not_handlerEntryAndReturn : ¬ Obligations.HandlerEntryAndReturn := by
  intro hall
  obtain ⟨-, hret⟩ := hall trapBehindSlots 0 0 0 { cause := 24, strm := .V, faddr := 0x123, held := true, parked := false, cycle := 0 }
    (by decide) (by decide) (by decide +kernel)
  obtain ⟨heret, -⟩ := hret (by decide +kernel) (by decide +kernel)
  obtain ⟨t, ht, -, -, hpc, -⟩ := heret (by decide +kernel) (by decide +kernel) (by decide +kernel) (by decide +kernel) (by decide +kernel)
    (by decide) (by decide) (by decide) (by decide) .eret 0 (.inl rfl)
  have taken : (match exec .eret trapBehindSlots with | .next t => ((t.core 0).str .V).pc | _ => 0) = 0x40 := by decide +kernel
  have stood : ((trapBehindSlots.core 0).str .V).pc ≠ 0x40 := by decide +kernel
  rw [ht] at taken
  exact stood ((hpc rfl).symm.trans taken)
end

section
/-! The statement about cycles and completion. -/
open Sys2Proof Sys2Proof.Machine

/-- An XFETCH.TRY that has fallen back. -/
def Sys2Proof.Machine.fallenTry : Copy := { mkCopy 1 .xfetchTry 0 0 0 0 0 0 0 0 with fell := some true }
/-- Core 0 replays; the record of its XFETCH.TRY is the ring's first, its part is poisoned, and the queue of its instance runs. -/
def Sys2Proof.Machine.poisonedRecord : State :=
  let s := ((State.reset.place1 (.job 0 .X) []).modCore 0 fun c => { c with copies := [fallenTry] }).modQueue 0 0 fun k => { k with state := .running }
  let t := s.placeBytes 0x50000 (leBytes 8 (mkQ0 0 0x06 (s.issJob 0 .X 1)))
  { t.modTrail 0 fun r => { r with mode := 2, widx := 1, ridx := 0, pages := [(0x50000, 0)] } with hbmP := t.hbmP.add (0x50000 / 16) }
/-- The group of that core, and its instance. -/
def Sys2Proof.Machine.poisonedGroup : Group := (poisonedRecord.group? 0 16 0).getD (mkGroup 0 0 [])
def Sys2Proof.Machine.poisonedInst : Inst := (poisonedRecord.inst? 0 16).getD placeInst

/-- Refutes O37: a group that waits for an XFETCH.TRY whose record is poisoned parks its context too (R379, R391), so that its group pauses
with PRSN bit 2 beside bit 0. -/
theorem not_cyclesAndCompletion : ¬ Obligations.CyclesAndCompletion := by
  intro hall
  obtain ⟨hcycle, -⟩ := hall poisonedRecord 0 16 0 poisonedInst poisonedGroup (by decide +kernel) (by decide +kernel)
  obtain ⟨-, hwaits⟩ := hcycle (by decide +kernel) (by decide +kernel)
  obtain ⟨t, ht, -, -, hg⟩ := hwaits (by decide +kernel)
  have paused : (match exec (.virtualCycle 0 16 0) poisonedRecord with | .next t => (t.group? 0 16 0).map (·.prsn) | _ => none) = some 5 := by
    decide +kernel
  rw [ht] at paused
  simp only [hg, Option.map_some] at paused
  exact absurd paused (by decide +kernel)
end

section
/-! Cores, instances and groups read after a change. -/
namespace Sys2Proof.Machine

/-- A fold whose every step leaves a field of the state unchanged. -/
theorem foldl_keeps {α β : Type} {P : State → β} {f : State → α → State} (hf : ∀ t a, P (f t a) = P t) (l : List α) (s : State) :
    P (l.foldl f s) = P s := by
  induction l generalizing s with
  | nil => rfl
  | cons x l ih => exact (ih _).trans (hf s x)
/-- The same for a fold that carries a result beside the state. -/
theorem foldl_keeps_fst {α β γ : Type} {P : State → β} {f : State × γ → α → State × γ} (hf : ∀ t a, P (f t a).1 = P t.1) (l : List α) (x : State × γ) :
    P (l.foldl f x).1 = P x.1 := by
  induction l generalizing x with
  | nil => rfl
  | cons a l ih => exact (ih _).trans (hf x a)
/-- A fold over different cores, each step of which changes its own core by that core's own value. -/
theorem core_foldl_own {F : State → Nat → State} {φ : Core → Core} (hF : ∀ t n m, (F t n).core m = if m = n then φ (t.core m) else t.core m)
    {l : List Nat} (hl : l.Nodup) (s : State) (n : Nat) : (l.foldl F s).core n = if n ∈ l then φ (s.core n) else s.core n := by
  induction l generalizing s with
  | nil => rfl
  | cons x l ih =>
    obtain ⟨hx, hl⟩ := List.nodup_cons.1 hl
    rw [List.foldl_cons, ih hl, hF]
    by_cases hn : n = x
    · subst hn
      rw [if_neg hx, if_pos rfl, if_pos List.mem_cons_self]
    · simp [hn]

theorem State.core_of_cores {s t : State} (h : t.cores = s.cores) (n : Nat) : t.core n = s.core n := by rw [State.core, h, State.core]

/-- A context that has an instance is one of the 32. -/
theorem State.lt_of_inst? {s : State} {c h : Nat} {i : Inst} (hi : s.inst? c h = some i) : c < 32 := by
  refine Decidable.byContradiction fun hc => ?_
  have : s.ctx c = .reset := by simp [State.ctx, vget, Nat.not_lt.1 hc]
  rw [State.inst?, this] at hi
  cases hi
theorem State.inst?_handle {s : State} {c h : Nat} {i : Inst} (hi : s.inst? c h = some i) : i.handle = h := by
  have := List.find?_some hi
  exact LawfulBEq.eq_of_beq this

/-- A list's first element of a key, after a change of the elements of that key. -/
theorem find?_map_key {α : Type} {key : α → Nat} {f : α → α} (hf : ∀ x, key (f x) = key x) (k : Nat) (l : List α) :
    (l.map fun x => if key x = k then f x else x).find? (fun x => key x == k) = (l.find? fun x => key x == k).map f := by
  induction l with
  | nil => rfl
  | cons x l ih =>
    by_cases hx : key x = k
    · simp [hx, hf]
    · simp [hx, ih]
theorem State.inst?_modInst {s : State} {c h : Nat} (hc : c < 32) {f : Inst → Inst} (hf : ∀ i, (f i).handle = i.handle) :
    (s.modInst c h f).inst? c h = (s.inst? c h).map f := by
  rw [State.inst?, State.modInst, State.ctx_modCtx_same _ hc]
  exact find?_map_key (key := Inst.handle) hf h _
theorem State.inst?_modGroup {s : State} {c h : Nat} (hc : c < 32) (g : Nat) (f : Group → Group) :
    (s.modGroup c h g f).inst? c h = (s.inst? c h).map fun i => { i with groups := i.groups.map fun x => if x.gidx = g then f x else x } :=
  State.inst?_modInst hc fun _ => rfl
theorem State.group?_modGroup {s : State} {c h : Nat} (hc : c < 32) {g : Nat} {f : Group → Group} (hf : ∀ x, (f x).gidx = x.gidx) :
    (s.modGroup c h g f).group? c h g = (s.group? c h g).map f := by
  rw [State.group?, State.inst?_modGroup hc, State.group?]
  cases s.inst? c h with
  | none => rfl
  | some i => exact find?_map_key (key := Group.gidx) hf g _
@[simp] theorem Group.gidx_unpause (g : Group) (bit : Nat) : (g.unpause bit).gidx = g.gidx := by
  unfold Group.unpause
  split
  · dsimp only
    split <;> rfl
  · rfl

/-! Writes of context memory leave cores alone. -/

theorem State.cores_llcWrite (s : State) (a n : Nat) : (s.llcWrite a n).cores = s.cores := by
  obtain ⟨x, y, z, h⟩ := s.llcWrite_only a n
  rw [h]
theorem State.cores_setDirty (s : State) (cxn leaf : Nat) : (s.setDirty cxn leaf).cores = s.cores := by
  unfold State.setDirty
  split
  · exact State.cores_llcWrite _ _ _
  · rfl
theorem State.cores_physWrite (s : State) (cxn : Nat) (p : Phys) (bs : List (Byte × Bool)) : (s.physWrite cxn p bs).cores = s.cores := by
  unfold State.physWrite
  split
  · refine (State.cores_llcWrite _ _ _).trans ?_
    refine (foldl_keeps (P := State.cores) (fun t k => ?_) _ _).trans ?_
    · rfl
    · exact s.cores_setDirty _ _
  · rfl
  · refine (foldl_keeps (P := State.cores) (fun t k => ?_) _ _).trans ?_ <;> rfl
  · rfl
theorem State.cores_plainWrote (s : State) (cxn : Nat) (p : Phys) (n : Nat) : (s.plainWrote cxn p n).cores = s.cores := by
  unfold State.plainWrote
  split <;> rfl
theorem State.cores_dropMix (s : State) (part : Nat) : (s.dropMix part).cores = s.cores := by
  refine foldl_keeps (P := State.cores) (fun t k => ?_) _ _
  split <;> rfl

end Sys2Proof.Machine
end

section
/-! What a boundary, a rendezvous and a barrier do to the cores that take part (R63 to R65, R166, R167, R350, R357 to R361). -/
namespace Sys2Proof.Machine

/-! Commits. -/

/-- Runs of bytes of one line, written one after another. -/
def State.writeRuns (s : State) (cxn : Nat) (x : CommitLine) (k : Nat) (l : List (Nat × List Byte)) : State :=
  l.foldl (fun z r => (z.physWrite cxn (x.loc.add r.1) (tainted (x.taint.getLsbD k) r.2)).plainWrote cxn (x.loc.add r.1) r.2.length) s
theorem State.cores_writeRuns (s : State) (cxn : Nat) (x : CommitLine) (k : Nat) (l : List (Nat × List Byte)) :
    (s.writeRuns cxn x k l).cores = s.cores := by
  refine foldl_keeps (P := State.cores) (fun t a => ?_) _ _
  exact (State.cores_plainWrote _ _ _ _).trans (State.cores_physWrite _ _ _ _)
theorem State.cores_commitPart (s : State) (cxn h : Nat) (x : CommitLine) (k : Nat) : (s.commitPart cxn h x k).1.cores = s.cores := by
  unfold State.commitPart
  dsimp only
  split
  · rfl
  · split
    · rfl
    · have wrote : ∀ l, (s.writeRuns cxn x k l).cores = s.cores := s.cores_writeRuns cxn x k
      have dropped : ∀ p l, ((s.writeRuns cxn x k l).dropMix p).cores = s.cores := fun p l => (State.cores_dropMix _ _).trans (wrote l)
      cases (x.loc.add (16 * k)).part with
      | none =>
        dsimp only
        split
        · rw [State.modInst_cores]
          exact wrote _
        · exact wrote _
      | some p =>
        dsimp only
        split
        · rw [State.modInst_cores]
          exact dropped _ _
        · exact dropped _ _
theorem State.cores_commitLine (s : State) (cxn h : Nat) (x : CommitLine) : (s.commitLine cxn h x).1.cores = s.cores := by
  unfold State.commitLine
  refine foldl_keeps_fst (P := State.cores) (fun t k => ?_) _ _
  exact t.1.cores_commitPart cxn h x k
theorem State.cores_commitAll (s : State) (cxn h : Nat) (cores : List Nat) (far : Bool) : (s.commitAll cxn h cores far).1.cores = s.cores := by
  unfold State.commitAll
  dsimp only
  refine (foldl_keeps_fst (P := State.cores) (fun t x => ?_) _ _).trans ?_
  · exact t.1.cores_commitLine cxn h x
  refine (foldl_keeps (P := State.cores) (fun t n => ?_) _ _).trans ?_
  · refine foldl_keeps (P := State.cores) (fun t l => ?_) _ _
    exact (State.traffic_requests _ _ _ _ _ _ _).cores
  refine foldl_keeps (P := State.cores) (fun t n => ?_) _ _
  refine foldl_keeps (P := State.cores) (fun t l => ?_) _ _
  split
  · exact State.cores_setDirty _ _ _
  · rfl

/-- A part in local memory is turned away by nobody. -/
theorem State.refused_local (s : State) (cxn : Nat) {p : Phys} (h : p.isLocal = true) (k : Nat) (w r : Bool) : s.refused cxn (p.add k) w r = false := by
  cases p with
  | hbm d l => rfl
  | view d => rfl
  | peer dev a => cases h
  | host a => cases h

theorem State.commitPart_local (s : State) (cxn h : Nat) {x : CommitLine} (hx : x.loc.isLocal = true) (k : Nat) : (s.commitPart cxn h x k).2 = [] := by
  unfold State.commitPart
  dsimp only
  split
  · rfl
  · rw [if_neg (by simp [s.refused_local cxn hx])]
/-- A fold whose steps add nothing to the list that it carries. -/
theorem foldl_adds_nothing {α β γ : Type} {f : α → β → α × List γ} (l : List β) (hf : ∀ t, ∀ x ∈ l, (f t x).2 = []) (y : α × List γ) :
    (l.foldl (fun a x => ((f a.1 x).1, a.2 ++ (f a.1 x).2)) y).2 = y.2 := by
  induction l generalizing y with
  | nil => rfl
  | cons x l ih =>
    rw [List.foldl_cons, ih (fun t z hz => hf t z (List.mem_cons_of_mem _ hz)), hf _ x List.mem_cons_self, List.append_nil]
theorem State.commitLine_local (s : State) (cxn h : Nat) {x : CommitLine} (hx : x.loc.isLocal = true) : (s.commitLine cxn h x).2 = [] :=
  foldl_adds_nothing (f := fun t k => State.commitPart t cxn h x k) _ (fun t k _ => t.commitPart_local cxn h hx k) (s, [])
theorem mergeLine_local {l : List CommitLine} {x : CommitLine} (hl : ∀ y ∈ l, y.loc.isLocal = true) (hx : x.loc.isLocal = true) :
    ∀ y ∈ mergeLine l x, y.loc.isLocal = true := by
  intro y hy
  unfold mergeLine at hy
  split at hy
  · obtain ⟨z, hz, rfl⟩ := List.mem_map.1 hy
    split
    · exact hx
    · exact hl z hz
  · rcases List.mem_append.1 hy with hy | hy
    · exact hl y hy
    · rwa [List.mem_singleton.1 hy]
/-- A fold that keeps a predicate. -/
theorem foldl_induct {α β : Type} {P : α → Prop} {f : α → β → α} {l : List β} (hf : ∀ t, ∀ x ∈ l, P t → P (f t x)) {s : α} (hs : P s) :
    P (l.foldl f s) := by
  induction l generalizing s with
  | nil => exact hs
  | cons x l ih => exact ih (fun t y hy => hf t y (List.mem_cons_of_mem _ hy)) (hf s x List.mem_cons_self hs)
/-- A boundary of group scope commits to local memory alone, where no part is refused. -/
theorem State.commitAll_near (s : State) (cxn h : Nat) (cores : List Nat) : (s.commitAll cxn h cores false).2 = [] := by
  have near : ∀ y ∈ cores.foldl (fun acc n => ((s.core n).psb.filter fun l => l.loc.isLocal || false).foldl (fun acc l => mergeLine acc (l.toCommit n)) acc) [],
      y.loc.isLocal = true := by
    refine foldl_induct (P := fun l : List CommitLine => ∀ y ∈ l, y.loc.isLocal = true) (fun t n _ ht => ?_) (by simp)
    refine foldl_induct (P := fun l : List CommitLine => ∀ y ∈ l, y.loc.isLocal = true) (fun u l hl hu => mergeLine_local hu ?_) ht
    have hloc : l.loc.isLocal = true := by simpa using (List.mem_filter.1 hl).2
    exact hloc
  exact foldl_adds_nothing (f := fun t x => State.commitLine t cxn h x) _
    (fun t x hx => t.commitLine_local cxn h (near x (List.mem_mergeSort.1 hx))) (_, [])

/-! The boundary of a group. -/

/-- What a release of group scope leaves of a core's phase. -/
def Core.cleared (c : Core) : Core :=
  { c with
    pend := c.pend.filter fun p => match p.target with
      | .expert _ => false
      | _ => true
    psb := c.psb.filter fun l => !l.loc.isLocal, psbFull := false, snap := [], epend := [] }
theorem State.core_clearPhase (s : State) (cxn n m : Nat) :
    (s.clearPhase cxn false n).core m = if m = n then (s.core m).cleared else s.core m := by
  rw [State.clearPhase, State.core_setCore]
  split
  · next hm =>
    subst hm
    rfl
  · rfl
/-- A core at its group's boundary; b says that the core stops there (R283). -/
def Core.passed (b : Bool) (w : Nat) (c : Core) : Core :=
  if c.job.isSome then if b then { c.passPhase w with stopClass := max (c.passPhase w).stopClass 1 } else c.passPhase w else c.countPhase
theorem State.core_passGroup (s : State) (cxn h : Nat) {g : Group} (hg : g.members.Nodup) {n : Nat} (hn : n ∈ g.members) :
    (s.passGroup cxn h g).core n = (s.core n).passed ((s.ctx cxn).state == .quiescing && (s.ctx cxn).cls == 1) g.nxt := by
  rw [State.passGroup]
  dsimp only
  refine (State.core_of_cores (State.modGroup_cores _ _ _ _ _) n).trans ?_
  rw [core_foldl_own (φ := Core.passed ((s.ctx cxn).state == .quiescing && (s.ctx cxn).cls == 1) g.nxt) (fun t k m => ?_) hg, if_pos hn]
  by_cases hm : m = k
  · subst hm
    rw [if_pos rfl, Core.passed]
    split <;> rw [State.core_modCore_same]
  · rw [if_neg hm]
    split <;> rw [State.core_modCore, if_neg hm]

theorem State.releasePhase_group {s : State} {cxn h g : Nat} {i : Inst} {gr : Group} (hi : s.inst? cxn h = some i) (hg : s.group? cxn h g = some gr)
    (hb : s.boundary i gr = some ([gr], 1)) : s.releasePhase cxn h g =
      ((gr.members.foldl (fun t n => t.clearPhase cxn false n) (s.commitAll cxn h gr.members false).1).joinMarks cxn gr.members).passGroup cxn h gr := by
  rw [State.releasePhase, hi, hg]
  dsimp only
  rw [hb]
  dsimp only
  rw [if_pos rfl, if_pos rfl, show ((1 : Nat) == 3) = false from rfl, State.commitAll_near, List.mergeSort_nil]
  rfl
theorem State.core_releasePhase {s : State} {cxn h g : Nat} {i : Inst} {gr : Group} (hi : s.inst? cxn h = some i) (hg : s.group? cxn h g = some gr)
    (hm : gr.members.Nodup) (hb : s.boundary i gr = some ([gr], 1)) {n : Nat} (hn : n ∈ gr.members) :
    ∃ b, (s.releasePhase cxn h g).core n = (s.core n).cleared.passed b gr.nxt := by
  rw [State.releasePhase_group hi hg hb]
  refine ⟨_, (State.core_passGroup _ _ _ hm hn).trans (congrArg (Core.passed _ gr.nxt) ?_)⟩
  refine (State.core_of_cores (State.modCtx_cores _ _ _) n).trans ?_
  rw [core_foldl_own (fun t k m => t.core_clearPhase cxn k m) hm, if_pos hn, State.core_of_cores (s.cores_commitAll _ _ _ _)]

/-! Rendezvous. -/

theorem State.cores_settleInst (s : State) (cxn h g : Nat) : (s.settleInst cxn h g).cores = s.cores := rfl
theorem State.hbm_settleInst (s : State) (cxn h g : Nat) : (s.settleInst cxn h g).hbm = s.hbm := rfl
/-- A core that has done its part ends its job. -/
theorem State.rendezvous_done {s : State} {n : Nat} (h : (s.core n).rdvDone = true) :
    (s.rendezvous n).cores = (s.modCore n (·.endJob)).cores ∧ (s.rendezvous n).hbm = s.hbm := by
  rw [State.rendezvous, if_pos h]
  dsimp only
  split
  · exact ⟨State.cores_settleInst _ _ _ _, State.hbm_settleInst _ _ _ _⟩
  · exact ⟨rfl, rfl⟩

/-! Barriers. -/

section
variable (s : State) (cxn h : Nat) (gr : Group) (cores : List Nat)

theorem State.hbm_passBarriers : (s.passBarriers cxn h [gr] cores).hbm = s.hbm := by
  rw [State.passBarriers, List.foldl_cons, List.foldl_nil, State.modGroup_hbm]
  refine (foldl_keeps (P := State.hbm) (fun t n => ?_) _ _).trans ?_ <;> rfl
theorem State.core_passBarriers (hg : gr.members.Nodup) {n : Nat} (hn : n ∈ gr.members) :
    (s.passBarriers cxn h [gr] cores).core n = (s.core n).passBar gr.nxt := by
  rw [State.passBarriers, List.foldl_cons, List.foldl_nil]
  refine (State.core_of_cores (State.modGroup_cores _ _ _ _ _) n).trans ?_
  rw [core_foldl_own (φ := (·.passBar gr.nxt)) (fun t k m => ?_) hg, if_pos hn]
  · rw [State.joinMarks, State.core_modCtx]
  · rw [State.core_modCore]
theorem State.inst?_passBarriers {i : Inst} (hi : s.inst? cxn h = some i) :
    ∃ j, (s.passBarriers cxn h [gr] cores).inst? cxn h = some j ∧ j.kbarGen = i.kbarGen := by
  have hc := State.lt_of_inst? hi
  have same : ∀ l : List Nat, (l.foldl (fun (t : State) n => t.modCore n (·.passBar gr.nxt)) (s.joinMarks cxn cores)).inst? cxn h = some i := fun l => by
    refine (foldl_keeps (P := fun t : State => t.inst? cxn h) (fun t n => ?_) _ _).trans ?_
    · rfl
    rw [← hi, State.inst?, State.joinMarks, State.ctx_modCtx_same _ hc]
    rfl
  rw [State.passBarriers, List.foldl_cons, List.foldl_nil, State.inst?_modGroup hc, same]
  exact ⟨_, rfl, rfl⟩
end

theorem Core.passBar_bar {c : Core} {b : Bool} {v : Nat} (h : c.strS.hold = .bar b v) (w : Nat) :
    c.passBar w = { c with strS := c.strS.complete w, rbDone := c.rbDone + 1 } := by rw [Core.passBar, h]

end Sys2Proof.Machine
end

section
/-! The statement about releases. -/
open Sys2Proof Sys2Proof.Machine

/-- Settles O36: each release by what it does to one core, and that its members are different cores. -/
theorem groupReleases : Obligations.GroupReleases := by
  intro s cxn h g n i gr hi hg hnd
  refine ⟨fun hb => ?_, fun hb => ⟨_, rfl, fun n hn hj => ?_⟩, fun hd => ⟨_, rfl, ?_⟩, fun hd => ?_, fun hb => ?_, fun kern hb hm => ⟨_, rfl, ?_⟩⟩
  · show execPhaseRelease cxn h g s = _
    rw [execPhaseRelease, State.releasePhase, hi, hg]
    dsimp only
    rw [hb]
  · obtain ⟨b, hd⟩ := State.core_releasePhase hi hg hnd hb hn
    intro c d
    have hd' : d = c.cleared.passed b gr.nxt := hd
    rw [hd', Core.passed, if_pos (show c.cleared.job.isSome = true from hj)]
    cases b <;> exact ⟨rfl, rfl, rfl, rfl, rfl, rfl⟩
  · obtain ⟨hc, hh⟩ := State.rendezvous_done hd
    have same := State.core_of_cores hc
    refine ⟨?_, fun m hm => ?_, hh, ?_⟩
    · exact (same n).trans (State.core_modCore_same _ _ _)
    · exact (same m).trans ((State.core_modCore _ _ _ _).trans (if_neg hm))
    · rw [show State.core _ n = _ from (same n).trans (State.core_modCore_same _ _ _)]
      exact ⟨rfl, rfl, rfl⟩
  · show execRendezvous n s = _
    rw [execRendezvous, State.rendezvous, if_neg (by simp [hd])]
  · show execBarrierRelease cxn h g s = _
    rw [execBarrierRelease, State.releaseBarrier, hi, hg]
    dsimp only
    rw [hb]
  · have part : ∀ cores, ∀ m ∈ gr.members, ∀ b v, (s.core m).strS.hold = .bar b v →
        ((s.passBarriers cxn h [gr] cores).core m).strS = (s.core m).strS.complete gr.nxt ∧
          ((s.passBarriers cxn h [gr] cores).core m).rbDone = (s.core m).rbDone + 1 := fun cores m hm b v hbar => by
      rw [State.core_passBarriers _ _ _ _ _ hnd hm, Core.passBar_bar hbar]
      exact ⟨rfl, rfl⟩
    cases kern with
    | false =>
      have hrel : s.releaseBarrier cxn h g = s.passBarriers cxn h [gr] gr.members := by
        rw [State.releaseBarrier, hi, hg]
        dsimp only
        rw [hb]
      rw [hrel]
      exact ⟨State.hbm_passBarriers _ _ _ _ _, part _, nofun⟩
    | true =>
      have hrel : s.releaseBarrier cxn h g = (s.passBarriers cxn h [gr] i.cores).modInst cxn h fun x =>
          { x with kbarGen := x.kbarGen + 1, kbarOrder := (x.groups.filter (·.state == .dissolved)).map (·.gidx) } := by
        rw [State.releaseBarrier, hi, hg]
        dsimp only
        rw [hb]
        dsimp only
        rw [if_neg (by simp [hm]), if_neg (by simp [hm])]
      obtain ⟨j, hj, hgen⟩ := s.inst?_passBarriers cxn h gr i.cores hi
      rw [hrel]
      refine ⟨(State.modInst_hbm _ _ _ _).trans (State.hbm_passBarriers _ _ _ _ _), fun m hm b v hbar => ?_, fun _ => ?_⟩
      · rw [State.core_of_cores (State.modInst_cores _ _ _ _)]
        exact part _ m hm b v hbar
      · refine (congrArg (Option.map Inst.kbarGen) (State.inst?_modInst (State.lt_of_inst? hi) fun x => ?_)).trans ?_
        · rfl
        · rw [hj, ← hgen]
          rfl
end

section
/-! What stays of an instance: its state while other things of its context change (R311, R327). -/
namespace Sys2Proof.Machine

/-- Handle and state of the instance that a handle names. -/
def State.instKey (s : State) (c h : Nat) : Option (Nat × IState) := (s.inst? c h).map fun i => (i.handle, i.state)

theorem State.instKey_of {s : State} {c h : Nat} {i : Inst} (hi : s.inst? c h = some i) : s.instKey c h = some (h, i.state) := by
  rw [State.instKey, hi, Option.map_some, State.inst?_handle hi]
theorem State.instKey_some {s : State} {c h : Nat} {st : IState} (hk : s.instKey c h = some (h, st)) : ∃ x, s.inst? c h = some x ∧ x.state = st := by
  obtain ⟨x, hx, hxk⟩ := Option.map_eq_some_iff.1 hk
  exact ⟨x, hx, congrArg Prod.snd hxk⟩
theorem State.instKey_eq (s : State) (c h : Nat) :
    s.instKey c h = ((s.ctx c).insts.map fun i => (i.handle, i.state)).find? fun k => k.1 == h := by
  rw [List.find?_map]
  rfl
theorem State.instKey_congr {s t : State} {c h : Nat} (hi : (t.ctx c).insts.map (fun i => (i.handle, i.state)) = (s.ctx c).insts.map fun i => (i.handle, i.state)) :
    t.instKey c h = s.instKey c h := by rw [State.instKey_eq, hi, State.instKey_eq]
theorem State.instKey_ctxs {s t : State} (ht : t.ctxs = s.ctxs) (c h : Nat) : t.instKey c h = s.instKey c h := by
  rw [State.instKey, State.inst?, State.ctx, ht]
  rfl
theorem State.guideOnly.instKey {s t : State} (ht : s.guideOnly t) (c h : Nat) : t.instKey c h = s.instKey c h := State.instKey_ctxs ht.ctxs c h
theorem State.instKey_modCtx (s : State) (d : Nat) {f : Ctx → Ctx}
    (hf : ∀ c : Ctx, (f c).insts.map (fun i => (i.handle, i.state)) = c.insts.map fun i => (i.handle, i.state)) (c h : Nat) :
    (s.modCtx d f).instKey c h = s.instKey c h := by
  refine State.instKey_congr ?_
  rw [State.ctx_modCtx]
  split
  · exact hf _
  · rfl
theorem State.instKey_modInst (s : State) (d k : Nat) {f : Inst → Inst} (hf : ∀ i, (f i).handle = i.handle ∧ (f i).state = i.state) (c h : Nat) :
    (s.modInst d k f).instKey c h = s.instKey c h := by
  refine s.instKey_modCtx d (fun c => ?_) c h
  rw [List.map_map]
  refine List.map_congr_left fun i _ => ?_
  simp only [Function.comp]
  split
  · rw [(hf i).1, (hf i).2]
  · rfl
theorem State.instKey_modGroup (s : State) (d k g : Nat) (f : Group → Group) (c h : Nat) : (s.modGroup d k g f).instKey c h = s.instKey c h := by
  refine s.instKey_modInst d k (fun i => ?_) c h
  exact ⟨rfl, rfl⟩
theorem State.instKey_modQueue (s : State) (d q : Nat) (f : Queue → Queue) (c h : Nat) : (s.modQueue d q f).instKey c h = s.instKey c h := by
  refine s.instKey_modCtx d (fun c => ?_) c h
  rfl
theorem State.instKey_perf (s : State) (d i k : Nat) (c h : Nat) : (s.perf d i k).instKey c h = s.instKey c h := by
  refine s.instKey_modCtx d (fun c => ?_) c h
  rfl
theorem State.instKey_event (s : State) (type cx id payload : Nat) (keep : Bool) (c h : Nat) :
    (s.event type cx id payload keep).instKey c h = s.instKey c h := (s.event_guideOnly _ _ _ _ _).instKey c h
theorem State.report_guideOnly (s : State) (bank : Nat) (r : ErrRec) : s.guideOnly (s.report bank r) := by
  unfold State.report
  dsimp only
  split
  · exact (s.modGuide_guideOnly _).trans (State.event_guideOnly _ _ _ _ _ _)
  · exact s.modGuide_guideOnly _
theorem State.instKey_pauseCore (s : State) (n bit c h : Nat) : (s.pauseCore n bit).instKey c h = s.instKey c h := by
  unfold State.pauseCore
  split
  · exact s.instKey_modGroup _ _ _ _ c h
  · rfl
theorem State.instKey_parkQueue (s : State) (d q c h : Nat) : (s.parkQueue d q).instKey c h = s.instKey c h := by
  have parked : ∀ t : State, t.instKey c h = s.instKey c h → ∀ l : List Nat, (l.foldl (fun t n => t.pauseCore n 2) t).instKey c h = s.instKey c h := fun t ht l =>
    (foldl_keeps (P := fun t => t.instKey c h) (fun t n => t.instKey_pauseCore n 2 c h) l t).trans ht
  unfold State.parkQueue
  dsimp only
  split <;> split
  · exact parked _ (s.instKey_modQueue _ _ _ c h) _
  · exact s.instKey_modQueue _ _ _ c h
  · exact parked _ rfl _
  · rfl
theorem State.instKey_parkContext (s : State) (d dpa c h : Nat) : (s.parkContext d dpa).instKey c h = s.instKey c h := by
  unfold State.parkContext
  refine ((State.report_guideOnly _ _ _).instKey c h).trans ?_
  refine foldl_keeps (P := fun t => t.instKey c h) (fun t q => ?_) _ _
  split
  · exact t.instKey_parkQueue _ _ c h
  · exact t.instKey_parkQueue _ _ c h
  · rfl
theorem State.instKey_faultRecord (s : State) (d q : Nat) (r : FaultRec) (c h : Nat) : (s.faultRecord d q r).instKey c h = s.instKey c h := by
  have counted : (s.perf d 7 1).instKey c h = s.instKey c h := s.instKey_perf d 7 1 c h
  unfold State.faultRecord
  dsimp only
  split
  · refine (State.instKey_event _ _ _ _ _ _ c h).trans ((State.instKey_modQueue _ _ _ _ c h).trans ?_)
    exact ((State.modGuide_guideOnly _ _).instKey c h).trans counted
  · exact (State.instKey_modQueue _ _ _ _ c h).trans counted
theorem State.poisonMet_guideOnly (s : State) (cxn gen cause va : Nat) (who : ErrRec) : s.guideOnly (s.poisonMet cxn gen cause va who) := by
  unfold State.poisonMet
  dsimp only
  split
  · exact s.report_guideOnly _ _
  · rfl
theorem State.instKey_genNotices (s : State) (d : Nat) (l : List Nat) (c h : Nat) : (s.genNotices d l).instKey c h = s.instKey c h :=
  (s.genNotices_guideOnly d l).instKey c h
theorem State.instKey_wake (s : State) (d c h : Nat) : (s.wake d).instKey c h = s.instKey c h := by
  unfold State.wake
  refine foldl_keeps (P := fun t => t.instKey c h) (fun t q => ?_) _ _
  dsimp only
  split
  · split
    · rfl
    · exact t.instKey_modQueue _ _ _ c h
  · rfl
/-- An instance that is Faulted stays so as its dependents fail. -/
theorem Ctx.find?_failDeps (k : Nat) {c : Ctx} {h : Nat} {x : Inst} (hx : c.inst? h = some x) (hs : x.state = .faulted) :
    (c.failDeps k).inst? h = some x := by
  induction k generalizing c with
  | zero => exact hx
  | succ k ih =>
    refine ih ?_
    have hmap := List.find?_map (p := fun i : Inst => i.handle == h)
      (f := fun i : Inst => if i.state = .pending ∧ i.deps.any c.depFailed then { i with state := .faulted, cause := 0 } else i) (l := c.insts)
    refine hmap.trans ?_
    have hkey : ((fun i : Inst => i.handle == h) ∘ fun i : Inst => if i.state = .pending ∧ i.deps.any c.depFailed then { i with state := .faulted, cause := 0 } else i) =
        fun i : Inst => i.handle == h := by
      funext i
      simp only [Function.comp]
      split <;> rfl
    rw [hkey, show c.insts.find? (fun i => i.handle == h) = some x from hx, Option.map_some, if_neg (by simp [hs])]
theorem State.instKey_failDeps {s : State} {c h : Nat} (hc : c < 32) (hs : s.instKey c h = some (h, .faulted)) :
    (s.modCtx c fun x => x.failDeps x.insts.length).instKey c h = some (h, .faulted) := by
  obtain ⟨x, hx, hst⟩ := State.instKey_some hs
  refine (State.instKey_of (i := x) ?_).trans (by rw [hst])
  rw [State.inst?, State.ctx_modCtx_same _ hc]
  exact Ctx.find?_failDeps _ hx hst

theorem State.ctxs_llcWrite (s : State) (a n : Nat) : (s.llcWrite a n).ctxs = s.ctxs := by
  obtain ⟨x, y, z, h⟩ := s.llcWrite_only a n
  rw [h]
theorem State.ctxs_setDirty (s : State) (cxn leaf : Nat) : (s.setDirty cxn leaf).ctxs = s.ctxs := by
  unfold State.setDirty
  split
  · exact State.ctxs_llcWrite _ _ _
  · rfl
theorem State.ctxs_physWrite (s : State) (cxn : Nat) (p : Phys) (bs : List (Byte × Bool)) : (s.physWrite cxn p bs).ctxs = s.ctxs := by
  unfold State.physWrite
  split
  · refine (State.ctxs_llcWrite _ _ _).trans ?_
    refine (foldl_keeps (P := State.ctxs) (fun t k => ?_) _ _).trans ?_
    · rfl
    · exact s.ctxs_setDirty _ _
  · rfl
  · refine (foldl_keeps (P := State.ctxs) (fun t k => ?_) _ _).trans ?_ <;> rfl
  · rfl
theorem State.instKey_physWrite (s : State) (d : Nat) (p : Phys) (bs : List (Byte × Bool)) (c h : Nat) :
    (s.physWrite d p bs).instKey c h = s.instKey c h := State.instKey_ctxs (s.ctxs_physWrite d p bs) c h
theorem State.instKey_closeSlot (s : State) (d : Nat) (z : Slot) (c h : Nat) : (s.closeSlot d z).instKey c h = s.instKey c h := by
  have written : ∀ p bs, ((if z.overrun then s.tick 1 else s).physWrite d p bs).instKey c h = s.instKey c h := fun p bs => by
    rw [State.instKey_physWrite]
    split <;> rfl
  unfold State.closeSlot
  split
  · rfl
  · split
    · rfl
    · dsimp only
      split
      · refine (State.instKey_modInst _ _ _ (fun i => ?_) c h).trans (written _ _)
        exact ⟨rfl, rfl⟩
      · exact written _ _
theorem State.instKey_closeSlots (s : State) (d k c h : Nat) : (s.closeSlots d k).instKey c h = s.instKey c h := by
  unfold State.closeSlots
  split
  · refine (State.instKey_modInst _ _ _ (fun i => ?_) c h).trans ?_
    · exact ⟨rfl, rfl⟩
    · exact foldl_keeps (P := fun t => t.instKey c h) (fun t z => t.instKey_closeSlot d z c h) _ _
  · rfl

/-! Admission (R327, R328). -/

/-- A core without a job and with nothing of its streams to be performed at a home. -/
def Core.Spare (c : Core) : Prop := c.job = none ∧ c.strong = []

theorem Core.spare_takeFor (c : Core) (cxn h g o : Nat) : (c.takeFor cxn h g o).Spare := by
  unfold Core.takeFor
  dsimp only
  split <;> exact ⟨rfl, rfl⟩
theorem Core.Spare.of_eq {c d : Core} (hc : c.Spare) (hd : (d.job, d.strong) = (c.job, c.strong)) : d.Spare := by
  obtain ⟨hj, hs⟩ := hc
  exact ⟨(congrArg Prod.fst hd).trans hj, (congrArg Prod.snd hd).trans hs⟩
theorem Core.work_setStr (c : Core) (e : Engine) (x : Stream) : ((c.setStr e x).job, (c.setStr e x).strong) = (c.job, c.strong) := by
  cases e <;> rfl
theorem Core.work_spWrite (c : Core) (a : Nat) (bs : List (Byte × Bool)) : ((c.spWrite a bs).job, (c.spWrite a bs).strong) = (c.job, c.strong) := by
  unfold Core.spWrite
  refine foldl_induct (P := fun z : Core => (z.job, z.strong) = (c.job, c.strong)) (fun z k _ hz => ?_) ?_
  · exact hz
  · rfl
theorem Core.work_setChan (c : Core) (k : Nat) (x : Chan) : ((c.setChan k x).job, (c.setChan k x).strong) = (c.job, c.strong) := rfl
theorem Core.work_statusWrite (c : Core) (k : Nat) (v : W64) : ((c.statusWrite k v).job, (c.statusWrite k v).strong) = (c.job, c.strong) := by
  unfold Core.statusWrite
  repeat' split
  all_goals rfl
theorem Core.work_landOne (c : Core) (t : PendTarget) : ((c.landOne t).job, (c.landOne t).strong) = (c.job, c.strong) := by
  cases t with
  | s e r v x => exact c.work_setStr _ _
  | a e r v x => exact c.work_setStr _ _
  | t e r v => exact c.work_setStr _ _
  | p e r v x => exact c.work_setStr _ _
  | ldsp e r a n sgn => exact c.work_setStr _ _
  | status k v => exact c.work_statusWrite k v
  | v r x t lo len => rfl
  | vp r x t => rfl
  | d r x t => rfl
  | n r x t => rfl
  | sp e a bs => exact c.work_spWrite a bs
  | flags fl => rfl
  | chan k sq ep a bs =>
    rw [Core.landOne, Core.work_setChan]
    exact c.work_spWrite a bs
  | expert incs => rfl
  | vld r a n => simp only [Core.landOne, Core.setVreg]
  | vgath r w es => simp only [Core.landOne, Core.setVreg]
  | vldChan k sq ep d a n =>
    rw [Core.landOne, Core.work_setChan]
    exact c.work_spWrite d _
  | await x => rfl
  | poison x y z => rfl
  | done x => rfl
theorem Core.Spare.landRest {c : Core} (hc : c.Spare) : c.landRest.Spare := by
  have h : ((c.pend.mergeSort Pend.le).foldl (fun d p => d.landOne p.target) c).Spare :=
    foldl_induct (P := Core.Spare) (fun d p _ hd => hd.of_eq (d.work_landOne p.target)) hc
  exact h.of_eq rfl
theorem Core.Spare.dropPhase {c : Core} (hc : c.Spare) : c.dropPhase.Spare := by
  obtain ⟨hj, hs⟩ := hc
  exact ⟨hj, by simp only [Core.dropPhase, hs, List.filter_nil]⟩
/-- What a halt does to a core without a job: what is left on its way lands. -/
theorem State.haltJob_spare {s : State} {n : Nat} (hc : (s.core n).Spare) : s.haltJob n = s.modCore n fun c => c.landRest.dropPhase := by
  obtain ⟨hj, hs⟩ := hc
  have hf : s.flushStrong n = s := by simp [State.flushStrong, engines, State.flushAgent, hs]
  rw [State.haltJob, hf, if_neg (by simp [hj])]
/-- Spare cores that are halted are spare, and no context changes. -/
theorem State.haltJobs_spare {s : State} {l : List Nat} (hs : ∀ n ∈ l, (s.core n).Spare) :
    (∀ n ∈ l, ((l.foldl (fun t n => t.haltJob n) s).core n).Spare) ∧ (l.foldl (fun t n => t.haltJob n) s).ctxs = s.ctxs := by
  refine foldl_induct (P := fun t : State => (∀ n ∈ l, (t.core n).Spare) ∧ t.ctxs = s.ctxs) (fun t n hn ht => ?_) ⟨hs, rfl⟩
  obtain ⟨hsp, hctx⟩ := ht
  rw [State.haltJob_spare (hsp n hn)]
  refine ⟨fun m hm => ?_, hctx⟩
  rw [State.core_modCore]
  split
  · exact (hsp m hm).landRest.dropPhase
  · exact hsp m hm
/-- R339: an instance whose cores have not begun a job is Faulted. -/
theorem State.faultInst_spare {s : State} {c h : Nat} {i : Inst} (hi : s.inst? c h = some i) (hl : i.state.live = true)
    (hs : ∀ n ∈ i.cores, (s.core n).Spare) (cause : Nat) : (s.faultInst c h cause).instKey c h = some (h, .faulted) := by
  have hc := State.lt_of_inst? hi
  unfold State.faultInst
  rw [hi]
  dsimp only
  rw [if_neg (by simp [hl])]
  refine (State.instKey_genNotices _ _ _ _ _).trans ((State.instKey_wake _ _ _ _).trans ?_)
  refine (foldl_keeps (P := fun t => t.instKey c h) (fun t q => ?_) _ _).trans (State.instKey_failDeps hc ?_)
  · split
    · split
      · exact t.instKey_modQueue _ _ _ c h
      · rfl
    · rfl
  · rw [State.instKey, State.inst?_modInst hc (by intro i; rfl), Option.map_map]
    have hk : (i.cores.foldl (fun t n => t.modCore n (·.release)) ((i.cores.foldl (fun t n => t.haltJob n) s).closeSlots c h)).instKey c h = s.instKey c h := by
      refine (foldl_keeps (P := fun t => t.instKey c h) (fun t n => ?_) _ _).trans ((State.instKey_closeSlots _ _ _ _ _).trans ?_)
      · rfl
      · exact State.instKey_ctxs (State.haltJobs_spare hs).2 c h
    obtain ⟨x, hx, -⟩ := State.instKey_some (hk.trans (State.instKey_of hi))
    rw [hx, Option.map_some]
    have hh := State.inst?_handle hx
    exact congrArg (fun k => some (k, IState.faulted)) hh

/-- An instance that is being admitted: its cores have not begun a job. -/
def State.Admitting (s : State) (c h : Nat) : Prop := ∃ i, s.inst? c h = some i ∧ i.state = .admitted ∧ ∀ n ∈ i.cores, (s.core n).Spare
/-- What an admission leaves: the instance is Admitted or Faulted. -/
def State.AdmitDone (s : State) (c h : Nat) : Prop := s.instKey c h = some (h, .admitted) ∨ s.instKey c h = some (h, .faulted)

theorem State.Admitting.key {s : State} {c h : Nat} (hs : s.Admitting c h) : s.instKey c h = some (h, .admitted) := by
  obtain ⟨i, hi, hst, -⟩ := hs
  rw [State.instKey_of hi, hst]
theorem State.Admitting.guideOnly {s t : State} {c h : Nat} (hs : s.Admitting c h) (ht : s.guideOnly t) : t.Admitting c h := by
  obtain ⟨i, hi, hst, hsp⟩ := hs
  refine ⟨i, ?_, hst, fun n hn => ?_⟩
  · rw [State.inst?, State.ctx, ht.ctxs]
    exact hi
  · rw [State.core_of_cores ht.cores]
    exact hsp n hn
theorem State.Admitting.modInst {s : State} {c h : Nat} (hs : s.Admitting c h) {f : Inst → Inst}
    (hf : ∀ i, (f i).handle = i.handle ∧ (f i).state = i.state ∧ (f i).groups = i.groups) : (s.modInst c h f).Admitting c h := by
  obtain ⟨i, hi, hst, hsp⟩ := hs
  refine ⟨f i, ?_, (hf i).2.1.trans hst, fun n hn => ?_⟩
  · rw [State.inst?_modInst (State.lt_of_inst? hi) fun i => (hf i).1, hi, Option.map_some]
  · rw [Inst.cores, (hf i).2.2] at hn
    exact hsp n hn
theorem Inst.hasRead_keeps (i : Inst) (k : Nat) (r : DevRead) :
    (i.hasRead k r).handle = i.handle ∧ (i.hasRead k r).state = i.state ∧ (i.hasRead k r).groups = i.groups := by
  cases r <;> exact ⟨rfl, rfl, rfl⟩
theorem Inst.hasReads_keeps (i : Inst) (r0 r1 r2 : DevRead) :
    (((i.hasRead 0 r0).hasRead 1 r1).hasRead 2 r2).handle = i.handle ∧ (((i.hasRead 0 r0).hasRead 1 r1).hasRead 2 r2).state = i.state ∧
      (((i.hasRead 0 r0).hasRead 1 r1).hasRead 2 r2).groups = i.groups := by
  obtain ⟨h0, s0, g0⟩ := i.hasRead_keeps 0 r0
  obtain ⟨h1, s1, g1⟩ := (i.hasRead 0 r0).hasRead_keeps 1 r1
  obtain ⟨h2, s2, g2⟩ := ((i.hasRead 0 r0).hasRead 1 r1).hasRead_keeps 2 r2
  exact ⟨h2.trans (h1.trans h0), s2.trans (s1.trans s0), g2.trans (g1.trans g0)⟩

theorem State.Admitting.faultInst {s : State} {c h : Nat} (hs : s.Admitting c h) (cause : Nat) : (s.faultInst c h cause).AdmitDone c h := by
  obtain ⟨i, hi, hst, hsp⟩ := hs
  exact .inr (State.faultInst_spare hi (by rw [hst]; rfl) hsp cause)
theorem State.Admitting.admissionFault {s : State} {c h : Nat} (hs : s.Admitting c h) (i : Inst) (r : FaultRec) :
    (s.admissionFault c i r).AdmitDone c h := by
  refine .inl (Eq.trans ?_ hs.key)
  unfold State.admissionFault
  refine (State.instKey_parkQueue _ _ _ _ _).trans ((State.instKey_modInst _ _ _ (fun i => ?_) c h).trans (State.instKey_faultRecord _ _ _ _ _ _))
  exact ⟨rfl, rfl⟩
theorem State.Admitting.hold {s : State} {c h : Nat} (hs : s.Admitting c h) (dpa : Nat) :
    ((s.modInst c h fun x => { x with readFault := true }).parkContext c dpa).AdmitDone c h := by
  refine .inl (Eq.trans ((State.instKey_parkContext _ _ _ _ _).trans (State.instKey_modInst _ _ _ (fun i => ?_) c h)) hs.key)
  exact ⟨rfl, rfl⟩
theorem State.Admitting.poisoned {s : State} {c h : Nat} (hs : s.Admitting c h) (gen cause va : Nat) (who : ErrRec) :
    ((s.poisonMet c gen cause va who).faultInst c h cause).AdmitDone c h :=
  (hs.guideOnly (s.poisonMet_guideOnly c gen cause va who)).faultInst cause

/-- R327: the reads of an admitted instance leave it Admitted or make it Faulted. -/
theorem State.Admitting.readObject {s : State} {c h : Nat} (hs : s.Admitting c h) : (s.readObject c h).AdmitDone c h := by
  obtain ⟨i, hi, -⟩ := id hs
  unfold State.readObject
  rw [hi]
  dsimp only
  split
  · exact hs.hold _
  · split
    · exact hs.faultInst _
    · split
      · exact hs.admissionFault _ _
      · exact hs.poisoned _ _ _ _
  · split
    · exact hs.faultInst _
    · have hr := fun r0 r1 r2 => hs.modInst fun i => Inst.hasReads_keeps i r0 r1 r2
      have fails : ∀ t : State, t.Admitting c h → ∀ low cause va r, 
          (if low ≠ 0 ∧ low < cause then t.faultInst c h low
            else match r with
              | some r => t.admissionFault c i r
              | none => (t.poisonMet c i.gen cause va { src := 0, sev := 1, unit := 0, handle := h }).faultInst c h cause).AdmitDone c h := by
        intro t ht low cause va r
        split
        · exact ht.faultInst _
        · cases r with
          | some r => exact ht.admissionFault _ _
          | none => exact ht.poisoned _ _ _ _
      split
      · exact (hr _ _ _).hold _
      · exact (hr _ _ _).hold _
      · split
        · exact fails _ (hr _ _ _) _ _ _ _
        · exact fails _ (hr _ _ _) _ _ _ _
      · exact fails _ (hr _ _ _) _ _ _ _
      · exact fails _ (hr _ _ _) _ _ _ _
      · split
        · exact hs.faultInst _
        · refine .inl (Eq.trans ((State.instKey_modInst _ _ _ (fun i => ?_) c h).trans ?_) hs.key)
          · exact ⟨rfl, rfl⟩
          · refine foldl_keeps (P := fun t => t.instKey c h) (fun t n => ?_) _ _
            rfl

theorem State.inst?_ctxs {s t : State} (ht : t.ctxs = s.ctxs) (c h : Nat) : t.inst? c h = s.inst? c h := by
  rw [State.inst?, State.ctx, ht]
  rfl
/-- A fold each step of which brings a fact about its element, and no step of which takes one away. -/
theorem foldl_establishes {α β : Type} {P : α → β → Prop} {f : α → β → α} (own : ∀ t x, P (f t x) x) (keep : ∀ t x y, P t y → P (f t x) y)
    (l : List β) (s : α) : ∀ x ∈ l, P (l.foldl f s) x := by
  induction l generalizing s with
  | nil => exact fun x hx => absurd hx List.not_mem_nil
  | cons x l ih =>
    intro y hy
    rcases List.mem_cons.1 hy with rfl | hy
    · show P (l.foldl f (f s y)) y
      exact foldl_induct (P := fun t => P t y) (fun t z _ ht => keep t z y ht) (own s y)
    · exact ih _ y hy
/-- R328: every core of the groups is held, without a job. -/
theorem State.holdCores_spare (s : State) (c h : Nat) (gs : List Group) :
    (∀ n ∈ gs.flatMap (·.members), ((s.holdCores c h gs).core n).Spare) ∧ (s.holdCores c h gs).ctxs = s.ctxs := by
  have takes : ∀ (g : Group) (t : State) (x : Nat × Nat) (n : Nat), (t.core n).Spare → ((t.modCore x.2 (·.takeFor c h g.gidx x.1)).core n).Spare := by
    intro g t x n hn
    rw [State.core_modCore]
    split
    · exact Core.spare_takeFor _ _ _ _ _
    · exact hn
  constructor
  · intro n hn
    obtain ⟨g, hg, hn⟩ := List.mem_flatMap.1 hn
    refine foldl_establishes (P := fun (t : State) (g : Group) => ∀ n ∈ g.members, (t.core n).Spare) (fun t g n hn => ?_) (fun t g g' hg' n hn => ?_) gs s g hg n hn
    · obtain ⟨o, ho, rfl⟩ := List.getElem_of_mem hn
      refine foldl_establishes (P := fun (t : State) (x : Nat × Nat) => (t.core x.2).Spare) (fun t x => ?_) (fun t x y hy => takes g t x y.2 hy) _ t (o, g.members[o]) ?_
      · rw [State.core_modCore_same]
        exact Core.spare_takeFor _ _ _ _ _
      · exact List.mem_iff_getElem.2 ⟨o, by simpa using ho, by simp⟩
    · exact foldl_induct (P := fun t : State => (t.core n).Spare) (fun t x _ ht => takes g t x n ht) (hg' n hn)
  · unfold State.holdCores
    refine foldl_keeps (P := State.ctxs) (fun t g => ?_) gs s
    refine foldl_keeps (P := State.ctxs) (fun t x => ?_) _ t
    rfl

theorem Ctx.mem_of_bestOf {c : Ctx} {l : List Inst} {i : Inst} (hi : c.bestOf l = some i) : i ∈ l := by
  have h : ∀ x, c.bestOf l = some x → x ∈ l := by
    refine foldl_induct (P := fun b : Option Inst => ∀ x, b = some x → x ∈ l) (fun b y hy hb x hx => ?_) (fun x hx => by cases hx)
    cases b with
    | none => exact Option.some.inj hx ▸ hy
    | some z =>
      dsimp only at hx
      split at hx
      · exact Option.some.inj hx ▸ hy
      · exact hb x hx
  exact h i hi
/-- The instance to admit is one of its context's. -/
theorem State.inst?_of_toAdmit {s : State} {c : Nat} {i : Inst} (hi : s.toAdmit c = some i) (hm : (s.ctx c).trail.mode = 0) :
    ∃ x, s.inst? c i.handle = some x := by
  unfold State.toAdmit at hi
  dsimp only at hi
  split at hi
  · cases hi
  · rw [if_neg (by rw [hm]; decide : ¬ (s.ctx c).trail.mode = 2)] at hi
    have hmem := (List.mem_filter.1 (Ctx.mem_of_bestOf hi)).1
    exact Option.isSome_iff_exists.1 (List.find?_isSome.2 ⟨i, hmem, by simp⟩)
/-- With the trail off no record is made of an operation (R378). -/
theorem State.gate_off {s : State} {c : Nat} (hm : (s.ctx c).trail.mode = 0) (owner : Option Agent) (q0 q1 : Nat) : s.gate c owner q0 q1 = .go s none := by
  unfold State.gate
  dsimp only
  rw [if_neg (by rw [hm]; decide : ¬ (s.ctx c).trail.mode = 1), if_neg (by rw [hm]; decide : ¬ (s.ctx c).trail.mode = 2)]

/-- R314, R327, R328: ADMISSION with the trail off. -/
theorem State.admitNext_off {s : State} {c : Nat} {i : Inst} (hi : s.toAdmit c = some i) (hm : (s.ctx c).trail.mode = 0) :
    (s.admitNext c).AdmitDone c i.handle := by
  obtain ⟨x, hx⟩ := State.inst?_of_toAdmit hi hm
  have hc := State.lt_of_inst? hx
  unfold State.admitNext
  rw [hi]
  dsimp only
  rw [State.gate_off hm]
  obtain ⟨hsp, hctxs⟩ := State.holdCores_spare (s.modTrail c fun t => { t with admissions := t.admissions + 1 }) c i.handle (s.ctx c).formGroups
  refine State.Admitting.readObject ⟨{ x with state := .admitted, groups := (s.ctx c).formGroups }, ?_, rfl, hsp⟩
  rw [State.inst?_modInst hc (by intro i; rfl), State.inst?_ctxs hctxs]
  have hk : (s.modTrail c fun t => { t with admissions := t.admissions + 1 }).inst? c i.handle = s.inst? c i.handle := by
    rw [State.inst?, State.modTrail, State.ctx_modCtx_same _ hc]
    rfl
  exact congrArg (Option.map _) (hk.trans hx)

end Sys2Proof.Machine
end

section
/-! The walk (R327 to R335): loads, placement and the start of a job. -/
namespace Sys2Proof.Machine

/-- The instance after its loads (Tables 12-4 and 13-4). -/
def Inst.walk (i : Inst) : Inst :=
  { i with
    state := .walking
    groups := i.groups.map fun g =>
      { g with state := if i.tuplesOf i.groups.length g.gidx = 0 then .draining else .lockstep, vcyc := 0, stand := false
               tuples := i.tuplesOf i.groups.length g.gidx } }
def Core.ask (c : Core) : Core := { c with asking := true, ended := false }

/-- A fold that puts the same fields in each core of a list. -/
theorem core_foldl_modCore {f : Core → Core} (hf : ∀ c, f (f c) = f c) (l : List Nat) (s : State) (n : Nat) :
    (l.foldl (fun t n => t.modCore n f) s).core n = if n ∈ l then f (s.core n) else s.core n := by
  induction l generalizing s with
  | nil => rfl
  | cons x l ih =>
    rw [List.foldl_cons, ih, State.core_modCore]
    by_cases hx : n = x
    · simp only [hf, List.mem_cons, hx, true_or, if_true, ite_self]
    · simp only [List.mem_cons, hx, false_or, if_false]

theorem State.loadsDone_ok {s : State} {c h : Nat} {i : Inst} (hi : s.inst? c h = some i) (hst : i.state = .admitted) (ho : i.codeOff ≠ [])
    (hr : i.readFault = false) (hq : (s.queue c i.q).state ≠ .parked) :
    (s.loadsDone c h).hbm = s.hbm ∧ (∀ n ∈ i.cores, (s.loadsDone c h).core n = (s.core n).ask) ∧ (s.loadsDone c h).inst? c h = some i.walk := by
  have he : s.loadsDone c h = (i.cores.foldl (fun t n => t.modCore n (·.ask)) s).modInst c h fun x => { x with state := .walking, groups := i.walk.groups } := by
    unfold State.loadsDone
    rw [hi]
    dsimp only
    rw [if_pos ⟨hst, ho, by simp [hr]⟩]
    have hp : ((s.queue c i.q).state == .parked) = false := by simpa using hq
    simp only [hp, Bool.false_eq_true, if_false]
    rfl
  have hinst : (i.cores.foldl (fun t n => t.modCore n (·.ask)) s).inst? c h = s.inst? c h := by
    refine foldl_keeps (P := fun t => t.inst? c h) (fun t n => ?_) _ _
    rfl
  rw [he]
  refine ⟨?_, fun n hn => ?_, ?_⟩
  · refine foldl_keeps (P := State.hbm) (fun t n => ?_) i.cores s
    rfl
  · exact (core_foldl_modCore (f := Core.ask) (fun c => rfl) i.cores s n).trans (if_pos hn)
  · rw [State.inst?_modInst (State.lt_of_inst? hi) (by intro i; rfl), hinst, hi]
    rfl

/-! Placement (R332, R333). -/

theorem Group.settle_keeps (g : Group) (jobs : Bool) : (g.settle jobs).gidx = g.gidx ∧ (g.settle jobs).nextJ = g.nextJ := by
  unfold Group.settle
  cases g.state <;> dsimp only <;> split <;> split <;> exact ⟨rfl, rfl⟩
theorem State.group?_modInst {s : State} {c h : Nat} (hc : c < 32) {f : Inst → Inst} (hf : ∀ i, (f i).handle = i.handle ∧ (f i).groups = i.groups) (g : Nat) :
    (s.modInst c h f).group? c h g = s.group? c h g := by
  rw [State.group?, State.inst?_modInst hc fun i => (hf i).1, State.group?]
  cases s.inst? c h with
  | none => rfl
  | some i => exact congrArg (fun l : List Group => l.find? (·.gidx == g)) (hf i).2
/-- What follows a placement leaves the walker's next iteration. -/
theorem State.nextJ_settleInst {s : State} {c h : Nat} (hc : c < 32) (g : Nat) :
    ((s.settleInst c h g).group? c h g).map (·.nextJ) = (s.group? c h g).map (·.nextJ) := by
  unfold State.settleInst
  dsimp only
  rw [State.group?_modInst hc (fun i => ?_), State.group?_modInst hc (fun i => ?_), State.group?_modGroup hc (fun x => (x.settle_keeps _).1), Option.map_map]
  · refine congrArg (fun f => Option.map f (s.group? c h g)) (funext fun x => ?_)
    exact (x.settle_keeps _).2
  · split <;> exact ⟨rfl, rfl⟩
  · split <;> exact ⟨rfl, rfl⟩

/-- The walker gives an iteration to a core. -/
def State.handOut (s : State) (c h g n : Nat) (ti j : Nat) : State :=
  ((s.modCore n fun x => { x with asking := false, placed := some (ti, j) }).modGroup c h g fun x => { x with nextJ := j + 1 }).settleInst c h g

theorem State.core_handOut (s : State) (c h g n ti j m : Nat) :
    (s.handOut c h g n ti j).core m = if m = n then { s.core m with asking := false, placed := some (ti, j) } else s.core m := by
  have h1 : (s.handOut c h g n ti j).core m = (s.modCore n fun x => { x with asking := false, placed := some (ti, j) }).core m := by
    exact State.core_of_cores (State.cores_settleInst _ _ _ _) m
  rw [h1, State.core_modCore]
theorem State.nextJ_handOut {s : State} {c h g : Nat} {gr : Group} (hg : s.group? c h g = some gr) (n ti j : Nat) :
    ((s.handOut c h g n ti j).group? c h g).map (·.nextJ) = some (j + 1) := by
  obtain ⟨i, hi, -⟩ := Option.bind_eq_some_iff.1 hg
  have hc := State.lt_of_inst? hi
  rw [State.handOut, State.nextJ_settleInst hc, State.group?_modGroup hc (by intro x; rfl)]
  have hk : (s.modCore n fun x => { x with asking := false, placed := some (ti, j) }).group? c h g = s.group? c h g := rfl
  rw [hk, hg]
  rfl

/-- The walker ends the part of a core. -/
def State.endPart (s : State) (c h g o n : Nat) : State :=
  ((s.modCore n fun x => { x with asking := false, ended := true }).modGroup c h g fun x => { x with endedMask := setBit x.endedMask o true }).settleInst c h g
theorem State.core_endPart (s : State) (c h g o n m : Nat) :
    (s.endPart c h g o n).core m = if m = n then { s.core m with asking := false, ended := true } else s.core m := by
  have h1 : (s.endPart c h g o n).core m = (s.modCore n fun x => { x with asking := false, ended := true }).core m := by
    exact State.core_of_cores (State.cores_settleInst _ _ _ _) m
  rw [h1, State.core_modCore]

section
variable {s : State} {c h g o : Nat} {i : Inst} {gr : Group} (hi : s.inst? c h = some i) (hg : s.group? c h g = some gr)
include hi hg

/-- An ordinal that is not the next is not served. -/
theorem State.placeIter_other (hp : s.placeNext c i gr ≠ some o) : s.placeIter c h g o = s := by
  unfold State.placeIter
  rw [hi, hg]
  dsimp only
  rw [if_pos hp]
theorem State.placeIter_end (hp : s.placeNext c i gr = some o) (hj : gr.tuples ≤ gr.nextJ) :
    s.placeIter c h g o = s.endPart c h g o (gr.members.getD o 0) := by
  unfold State.placeIter
  rw [hi, hg]
  dsimp only
  rw [if_neg (Decidable.not_not.2 hp), if_pos hj]
  rfl
theorem State.placeIter_fixed (hp : s.placeNext c i gr = some o) (hj : gr.nextJ < gr.tuples) (hm : i.mode = 1) :
    s.placeIter c h g o = s.handOut c h g (gr.members.getD o 0) (i.tuple i.groups.length g gr.nextJ).2 gr.nextJ := by
  unfold State.placeIter
  rw [hi, hg]
  dsimp only
  rw [if_neg (Decidable.not_not.2 hp), if_neg (by omega), if_pos hm]
  rfl
theorem State.placeIter_go (hp : s.placeNext c i gr = some o) (hj : gr.nextJ < gr.tuples) (hm : i.mode ≠ 1) {s1 : State} {r : Option Nat}
    (hgate : s.gate c none (s.placeRecord gr o).1 (s.placeRecord gr o).2 = .go s1 r) :
    s.placeIter c h g o = s1.handOut c h g (gr.members.getD o 0) (i.tuple i.groups.length g gr.nextJ).2 gr.nextJ := by
  unfold State.placeIter
  rw [hi, hg]
  dsimp only
  rw [if_neg (Decidable.not_not.2 hp), if_neg (by omega), if_neg hm, hgate]
  rfl
/-- With the trail off, and under fixed placement, no record is made. -/
theorem State.placeIter_given (hp : s.placeNext c i gr = some o) (hj : gr.nextJ < gr.tuples) (hm : i.mode = 1 ∨ (s.ctx c).trail.mode = 0) :
    s.placeIter c h g o = s.handOut c h g (gr.members.getD o 0) (i.tuple i.groups.length g gr.nextJ).2 gr.nextJ := by
  by_cases hf : i.mode = 1
  · exact State.placeIter_fixed hi hg hp hj hf
  · exact State.placeIter_go hi hg hp hj hf (State.gate_off (hm.resolve_left hf) _ _ _)
end

/-- The ordinal o where it asks. -/
def State.asks (s : State) (gr : Group) (o : Nat) : Option Nat := if o ∈ s.askers gr then some o else none

theorem find?_beq (l : List Nat) (o : Nat) : l.find? (· == o) = if o ∈ l then some o else none := by
  induction l with
  | nil => rfl
  | cons x l ih =>
    by_cases hx : x = o
    · simp [hx]
    · simp [hx, ih, Ne.symm hx]

section
variable {s : State} {c : Nat} {i : Inst} {gr : Group} (hst : i.state = .walking) (hcn : i.counts ≠ []) (hgs : gr.state ≠ .dissolved)
  (hq : (s.queue c i.q).stopped = false) (hgo : (s.ctx c).going = true) (hj : gr.nextJ < gr.tuples)
include hst hcn hgs hq hgo hj

theorem State.placeWant_fixed (hm : i.mode = 1) : s.placeWant c i gr = s.asks gr (gr.nextJ % gr.members.length) := by
  unfold State.placeWant
  rw [if_neg (by simp [hst, hcn, hgs, hq, hgo])]
  dsimp only
  rw [if_neg (by omega), if_pos hm]
  exact find?_beq _ _
theorem State.placeWant_free (hm : i.mode ≠ 1) (ht : (s.ctx c).trail.mode ≠ 2) : s.placeWant c i gr = (s.askers gr).head? := by
  unfold State.placeWant
  rw [if_neg (by simp [hst, hcn, hgs, hq, hgo])]
  dsimp only
  rw [if_neg (by omega), if_neg hm, if_neg ht]
theorem State.placeWant_replayed (hm : i.mode ≠ 1) (ht : (s.ctx c).trail.mode = 2) {k : Nat} (hk : s.findRecord c (placedBy gr.gidx) = some k) :
    s.placeWant c i gr = s.asks gr (bits (recIss (s.record c k).1) 17 11) := by
  unfold State.placeWant
  rw [if_neg (by simp [hst, hcn, hgs, hq, hgo])]
  dsimp only
  rw [if_neg (by omega), if_neg hm, if_pos ht, hk]
  exact find?_beq _ _
end

/-! The start of a job (R334, R335). -/

/-- A register reads the last value written to it. -/
theorem Stream.rs?_foldl_ws (l : List (Nat × W64 × Bool)) (y : Stream) {k : Nat} {v : W64} {t : Bool} (hk : 0 < k) (hk6 : k < 64) (m : List (Nat × W64 × Bool))
    (hm : ∀ r ∈ m, r.1 ≠ k ∧ r.1 < 64) : ((l ++ (k, v, t) :: m).foldl (fun (y : Stream) r => y.ws r.1 r.2.1 r.2.2) y).rs? k = v := by
  rw [List.foldl_append, List.foldl_cons]
  refine foldl_induct (P := fun y : Stream => y.rs? k = v) (fun y r hr hy => ?_) ?_
  · by_cases h0 : r.1 = 0
    · rw [h0]
      exact hy
    · rw [Stream.rs?_ws y r.1 k _ _ (by omega) (hm r hr).2, if_neg (Ne.symm (hm r hr).1), hy]
  · rw [Stream.rs?_ws _ _ _ _ _ hk hk6, if_pos rfl]
theorem Inst.preload_ends (i : Inst) (g j : Nat) : ∃ l, i.preload g j =
    l ++ [(7, BitVec.ofNat 64 j, i.mode != 1), (8, BitVec.ofNat 64 (i.tuple i.groups.length g j).2, i.mode != 1), (9, i.argp, false),
      (10, BitVec.ofNat 64 i.handle, false), (11, BitVec.ofNat 64 i.code, false)] := ⟨_, rfl⟩
/-- Table 12-3: s7, s9, s10 and s11 of a stream as its job starts. -/
theorem Stream.rs?_start (x : Stream) (i : Inst) (g j : Nat) (pc rssp : W64) (now : Nat) :
    (x.start (i.preload g j) pc rssp now).rs? 7 = BitVec.ofNat 64 j ∧ (x.start (i.preload g j) pc rssp now).rs? 9 = i.argp ∧
      (x.start (i.preload g j) pc rssp now).rs? 10 = BitVec.ofNat 64 i.handle ∧ (x.start (i.preload g j) pc rssp now).rs? 11 = BitVec.ofNat 64 i.code := by
  obtain ⟨l, hl⟩ := i.preload_ends g j
  have start : ∀ k, (x.start (i.preload g j) pc rssp now).rs? k = ((i.preload g j).foldl (fun (y : Stream) r => y.ws r.1 r.2.1 r.2.2) x).rs? k := fun k => by
    simp only [Stream.start, Stream.rs?]
  rw [start, start, start, start, hl]
  refine ⟨Stream.rs?_foldl_ws l x (by decide) (by decide) _ (by simp), ?_, ?_, ?_⟩
  · exact List.append_assoc l [_, _] _ ▸ Stream.rs?_foldl_ws (l ++ [_, _]) x (by decide) (by decide) _ (by simp)
  · exact List.append_assoc l [_, _, _] _ ▸ Stream.rs?_foldl_ws (l ++ [_, _, _]) x (by decide) (by decide) _ (by simp)
  · exact List.append_assoc l [_, _, _, _] _ ▸ Stream.rs?_foldl_ws (l ++ [_, _, _, _]) x (by decide) (by decide) _ (by simp)

/-- The core of a placed iteration once its job has started. -/
def State.started (s : State) (n : Nat) (i : Inst) (cxn h g o ti j : Nat) : Core :=
  let c := s.core n
  let pre := i.preload g j
  let up := fun (m : Nat) (x : Stream) => x.start pre (BitVec.ofNat 64 (i.code + i.codeOff.getD m 0)) (i.rsspOf g o m) (s.now n)
  ({ c.fresh with
    placed := none, job := some { cxn := cxn, handle := h, gidx := g, ord := o, i := ti, j := j }
    strS := up 0 c.strS, strV := up 1 c.strV, strM := up 2 c.strM, strX := up 3 c.strX
    shape := shapeReset, ncsr := 0, dbw0 := 0, dbw1 := 0 } : Core).capture (s.now n)
theorem State.beginJob_ok {s : State} {n cxn h g o ti j : Nat} {i : Inst} (hi : s.inst? cxn h = some i) (hp : (s.core n).placed = some (ti, j))
    (hm : (s.core n).member = some (cxn, h, g, o)) (hl : (s.core n).coefLost = false) :
    s.beginJob n = s.setCore n (s.started n i cxn h g o ti j) := by
  have hs : s.startJob n = s.setCore n (s.started n i cxn h g o ti j) := by
    unfold State.startJob
    dsimp only
    rw [hp, hm]
    dsimp only
    rw [hi]
    rfl
  have hcl : (s.started n i cxn h g o ti j).coefLost = false := hl
  unfold State.beginJob
  rw [hs]
  dsimp only
  rw [State.core_setCore_same, hcl, if_neg (by simp)]

end Sys2Proof.Machine
end

section
open Sys2Proof Sys2Proof.Machine

/-- Settles O38: admission ends in an instance that is Admitted or Faulted, whatever its reads meet, since its cores have begun no job; the walker's
choices follow its branches; the preloads are written in ascending order of register, so that each stands. -/
theorem walkEvents : Obligations.WalkEvents := by
  unfold Obligations.WalkEvents
  intro s c h g o i
  refine ⟨fun hn => ?_, fun hi hm => ?_, fun hi => ⟨fun hst ho hr hq => ?_, fun gr hg hp => ?_, fun gr => ⟨fun hg hp => ?_, ?_⟩, fun n ti j hp hm hl => ?_⟩⟩
  · show Host.Outcome.next (s.admitNext c) = _
    rw [State.admitNext, hn]
  · rcases State.admitNext_off hi hm with hk | hk
    · obtain ⟨x, hx, hst⟩ := State.instKey_some hk
      exact ⟨_, x, rfl, hx, .inl hst⟩
    · obtain ⟨x, hx, hst⟩ := State.instKey_some hk
      exact ⟨_, x, rfl, hx, .inr hst⟩
  · obtain ⟨hhbm, hcores, hinst⟩ := State.loadsDone_ok hi hst ho hr hq
    refine ⟨_, rfl, hhbm, fun n hn => ?_, hinst⟩
    rw [hcores n hn]
    exact ⟨rfl, rfl⟩
  · refine ⟨fun hm hj => ?_, fun s1 r hm hj hgate => ?_, fun hj => ?_⟩
    · refine ⟨_, congrArg Host.Outcome.next (State.placeIter_given hi hg hp hj hm), ?_, ?_, State.nextJ_handOut hg _ _ _, fun m hmn => ?_⟩
      · rw [State.core_handOut, if_pos rfl]
      · rw [State.core_handOut, if_pos rfl]
      · rw [State.core_handOut, if_neg hmn]
    · refine ⟨_, congrArg Host.Outcome.next (State.placeIter_go hi hg hp hj hm hgate), ?_, fun m hmn => ?_⟩
      · rw [State.core_handOut, if_pos rfl]
      · rw [State.core_handOut, if_neg hmn]
    · refine ⟨_, congrArg Host.Outcome.next (State.placeIter_end hi hg hp hj), ?_, fun m hmn => ?_⟩
      · rw [State.core_endPart, if_pos rfl]
      · rw [State.core_endPart, if_neg hmn]
  · exact congrArg Host.Outcome.next (State.placeIter_other hi hg hp)
  · intro hst hcn hgs hq hgo hj
    exact ⟨State.placeWant_fixed hst hcn hgs hq hgo hj, State.placeWant_free hst hcn hgs hq hgo hj,
      fun k hm ht hk => State.placeWant_replayed hst hcn hgs hq hgo hj hm ht hk⟩
  · refine ⟨_, congrArg Host.Outcome.next (State.beginJob_ok hi hp hm hl), fun m hmn => ?_, rfl, ?_⟩
    · rw [State.core_setCore, if_neg hmn]
    · rw [State.core_setCore_same]
      have hS := (s.core n).strS.rs?_start i g j (BitVec.ofNat 64 (i.code + i.codeOff.getD 0 0)) (i.rsspOf g o 0) (s.now n)
      have hX := (s.core n).strX.rs?_start i g j (BitVec.ofNat 64 (i.code + i.codeOff.getD 3 0)) (i.rsspOf g o 3) (s.now n)
      obtain ⟨h7, h9, h10, h11⟩ := hS
      exact ⟨rfl, rfl, rfl, rfl, ⟨rfl, rfl, rfl, rfl, rfl, rfl⟩, h7, h9, h10, h11, hX.2.1⟩

end

section
/-! What the host does (R302, R400, R407, R408, R456). -/
namespace Sys2Proof.Machine

/-- A queue without instances starts: nothing ends first (R319). -/
theorem State.qstart_free {s : State} {c q : Nat} (hi : (s.ctx c).insts = []) (hk : (s.queue c q).state = .idle)
    (hst : (s.ctx c).state = .bound ∨ (s.ctx c).state = .running) (ht : ((s.ctx c).threadCluster q).isSome = true) (v : W64) :
    s.qstart c q v =
      if (s.ctx c).state = .bound then (s.modQueue c q (·.start (BitVec.ofNat 64 (W64.f v 54 2 * 4)))).cxGoto c .running
      else s.modQueue c q (·.start (BitVec.ofNat 64 (W64.f v 54 2 * 4))) := by
  have he : s.endInstances c q = s := by rw [State.endInstances, hi]; rfl
  have hk' : ((s.ctx c).queue q).state = .idle := hk
  unfold State.qstart
  dsimp only
  rw [if_neg (by rcases hst with h | h <;> simp [hk', h]), if_neg (by simpa [Option.isNone_iff_eq_none, Option.isSome_iff_ne_none] using ht), he]
theorem State.qstart_running {s : State} {c q : Nat} (hk : (s.queue c q).state = .running) (v : W64) : s.qstart c q v = s := by
  have hk' : ((s.ctx c).queue q).state = .running := hk
  unfold State.qstart
  dsimp only
  rw [if_pos (by simp [hk'])]
/-- A change of a context's state leaves the rest of the context. -/
theorem State.ctx_cxGoto {s : State} {c : Nat} (hc : c < 32) (st : CxState) : (s.cxGoto c st).ctx c = { s.ctx c with state := st } := by
  unfold State.cxGoto
  rw [(State.event_guideOnly _ _ _ _ _ _).ctx, State.ctx_modCtx_same _ hc]

/-- A granted request of the host with the trail off is performed at once (R387, R423). -/
theorem State.hostPart_now {s : State} {c ipa : Nat} {r : HostReq} {l : Leaf} (hl : s.hostDpa c ipa r = some l) (hm : (s.ctx c).trail.mode = 0)
    (hq : (s.ctx c).trail.hostq = []) (hr : (s.ctx c).ringLost = false) : s.hostPart c ipa r = s.hostDo c l r := by
  have hb : ∀ k, s.hostBehind c k = false := fun k => by rw [State.hostBehind, hq]; rfl
  have hg : ∀ k q0 q1, s.hostGate c k q0 q1 = .go s none := fun k q0 q1 => by
    unfold State.hostGate
    dsimp only
    rw [if_neg (by rw [hm]; simp)]
    exact State.gate_off hm _ _ _
  unfold State.hostPart
  rw [hl]
  dsimp only
  rw [hb, hg, hr]
  simp only [Bool.false_eq_true, or_self, if_false, ite_self]

section
variable {s : State} {vf n : Nat} (hv : s.byVf vf = some n)
include hv

theorem exec_qstartWrite {q : Nat} (hq : q < 16) (v : W64) : exec (.qstartWrite vf q v) s = .next (s.qstart n q v) := by
  show execQstartWrite vf q v s = _
  rw [execQstartWrite, hv]
  dsimp only
  rw [if_pos hq]
theorem exec_s1invWrite (v : W64) : exec (.s1invWrite vf v) s = .next (if (s.ctx n).s1inv.isSome then s
    else s.startS1Inv n (if v.getLsbD 0 then .s1All else .s1Page (W64.f v 54 16 * 65536))) := by
  show execS1invWrite vf v s = _
  rw [execS1invWrite, hv]
theorem exec_hostWrite_part {off : Nat} {bs : List Byte} (hp : off % 16 + bs.length ≤ 16) (hne : bs ≠ []) (ht : off + bs.length ≤ bar2Top) :
    exec (.hostWrite vf off bs) s = .next (s.hostPart n off (.write bs)) := by
  show execHostWrite vf off bs s = _
  rw [execHostWrite, hv]
  dsimp only
  rw [if_neg (by omega), pieces_one (List.length_pos_iff.2 hne) hp]
  simp only [List.foldl_cons, List.foldl_nil, Nat.sub_self, List.drop_zero, List.take_length]
theorem exec_hostRead_part {off len : Nat} (hl : 0 < len) (hp : off % 16 + len ≤ 16) (ht : off + len ≤ bar2Top) {p : Phys} (hr : s.hostReadAt n off = some p) :
    exec (.hostRead vf off len) s = .next (s.send (.completion vf (s.physRead p len))) := by
  show execHostRead vf off len s = _
  rw [execHostRead, hv]
  dsimp only
  rw [if_neg (by omega), pieces_one hl hp]
  simp only [List.find?_cons, List.find?_nil, hr, Option.isNone_some, List.flatMap_cons, List.flatMap_nil, List.append_nil]
theorem exec_hostAtomicop_part {op : HostAtomic} {size off : Nat} {x y : BitVec 128} (hok : hostAtomicOk op size off = true) (ht : off + size ≤ bar2Top) :
    exec (.hostAtomicop vf off op size x y) s = .next (s.hostPart n off (.atomic op size x y)) := by
  show execHostAtomicop vf off op size x y s = _
  rw [execHostAtomicop, hv]
  dsimp only
  rw [if_neg (by rw [hok]; simp; omega)]
end

/-! The mailbox (R456). -/

theorem State.writeMsix_below (s : State) (fn n off : Nat) (bs : List Byte) (ho : off < 0x1000) : s.writeMsix fn n off bs = s := by
  rw [State.writeMsix, if_neg (by omega)]
theorem exec_mailbox (s : State) {off : Nat} {bs : List Byte} (ho : off < 0x40) (ht : off + bs.length ≤ 0x40) :
    exec (.registerWrite 0 off bs) s = .next (s.writeMbcmd off bs) := by
  show s.writePf off bs = _
  unfold State.writePf
  dsimp only
  rw [if_pos ho, State.writeMsix_below _ _ _ _ _ (by omega), if_neg (by omega), List.take_of_length_le (by omega)]
theorem exec_mbGo (s : State) : exec (.registerWrite 0 0x40 [1]) s = s.go := by
  show s.writePf 0x40 [1] = _
  unfold State.writePf
  dsimp only
  rw [if_pos (by decide), if_neg (by decide), State.writeMsix_below _ _ _ _ _ (by decide)]
theorem exec_mailbox_busy {s : State} (hb : s.guide.busy = true) {off : Nat} {bs : List Byte} (ht : off + bs.length ≤ 0x40) :
    exec (.registerWrite 0 off bs) s = .next s := by
  by_cases ho : off < 0x40
  · rw [exec_mailbox s ho ht, State.writeMbcmd, if_pos hb]
  · show s.writePf off bs = _
    unfold State.writePf
    dsimp only
    rw [if_neg ho, State.writeMsix_below _ _ _ _ _ (by omega), if_neg (by omega)]

end Sys2Proof.Machine
end

section
open Sys2Proof Sys2Proof.Machine

/-- Settles O52: an access within one part of 16 bytes is one piece, and with the trail off it waits for no record. -/
theorem hostAccesses : Obligations.HostAccesses := by
  unfold Obligations.HostAccesses
  intro s vf c q v off bs hc hq
  refine ⟨fun hv => ⟨fun hk hst ht hi => ?_, fun hk => ?_, fun hk hst ht hi => ?_, ?_, fun hn hb => ?_, fun hn hb => ?_, fun hb => ?_, fun l hp hne ht hl hm hhq hr => ?_,
    fun p len hl hp ht hr => ?_, fun l op size x y hok ht hl hm hhq hr => ?_⟩, fun hv => ⟨?_, ?_, fun len => ?_⟩, fun ht => ?_, fun len ht hp => ?_, fun len ht => ?_,
    fun hb ho ht => ?_, fun hr hb => ?_, fun hb ht => exec_mailbox_busy hb ht⟩
  · rw [exec_qstartWrite hv hq, State.qstart_free hi hk (.inr hst) ht, if_neg (by rw [hst]; decide)]
  · rw [exec_qstartWrite hv hq, State.qstart_running hk]
  · rw [exec_qstartWrite hv hq, State.qstart_free hi hk (.inl hst) ht, if_pos hst]
    have hx := State.ctx_cxGoto (s := s.modQueue c q (·.start (BitVec.ofNat 64 (W64.f v 54 2 * 4)))) hc .running
    have hkx : ((s.modQueue c q (·.start (BitVec.ofNat 64 (W64.f v 54 2 * 4)))).cxGoto c .running).queue c q =
        (s.queue c q).start (BitVec.ofNat 64 (W64.f v 54 2 * 4)) := by
      rw [State.queue, hx]
      exact State.queue_modQueue_same s hc hq _
    exact ⟨_, rfl, by rw [hx], by rw [hkx]; rfl, by rw [hkx]; rfl⟩
  · show execS1rootWrite vf v s = _
    rw [execS1rootWrite, hv]
  · rw [exec_s1invWrite hv, if_neg (by rw [hn]; decide), if_pos hb]
  · rw [exec_s1invWrite hv, if_neg (by rw [hn]; decide), if_neg (by rw [hb]; decide)]
  · rw [exec_s1invWrite hv, if_pos hb]
  · rw [exec_hostWrite_part hv hp hne ht, State.hostPart_now hl hm hhq hr]
    rfl
  · exact exec_hostRead_part hv hl hp ht hr
  · rw [exec_hostAtomicop_part hv hok ht, State.hostPart_now hl hm hhq hr]
    rfl
  · show execQstartWrite vf q v s = _
    rw [execQstartWrite, hv]
  · show execHostWrite vf off bs s = _
    rw [execHostWrite, hv]
  · show execHostRead vf off len s = _
    rw [execHostRead, hv]
  · show execPfBar2Access off (.write bs) s = _
    rw [execPfBar2Access]
    rw [if_neg (by omega)]
  · show execPfBar2Access off (.read len) s = _
    rw [execPfBar2Access]
    rw [if_neg (by omega), if_neg (Decidable.not_not.2 hp)]
  · show execPfBar2Access off (.read len) s = _
    rw [execPfBar2Access]
    rw [if_pos ht]
  · rw [exec_mailbox s ho ht, State.writeMbcmd, if_neg (by rw [hb]; decide)]
  · rw [exec_mbGo, State.go, if_neg (by rw [hr, hb]; decide)]

end

section
/-! The answers of the Guide to a fault record and to a divergence (R320, R391, R412). -/
namespace Sys2Proof.Machine

/-- Table 11-5: a Waiting queue whose instance has ended runs. -/
def Queue.woken (k : Queue) (live : Nat → Bool) : Queue :=
  if k.state = .waiting then (k.kwait.map fun h => if live h then k else { k with state := .running, kwait := none }).getD k else k
theorem Queue.woken_other {k : Queue} {live : Nat → Bool} (hk : k.state = .waiting → ∀ h, k.kwait = some h → live h = true) : k.woken live = k := by
  unfold Queue.woken
  split
  · rename_i hw
    cases hh : k.kwait with
    | none => rfl
    | some h => simp [hk hw h hh]
  · rfl
theorem Queue.woken_ended {k : Queue} {live : Nat → Bool} {h : Nat} (hw : k.state = .waiting) (hk : k.kwait = some h) (hl : live h = false) :
    k.woken live = { k with state := .running, kwait := none } := by
  rw [Queue.woken, if_pos hw, hk]
  simp [hl]
def State.instLive (s : State) (c h : Nat) : Bool := ((s.inst? c h).map fun i => i.state.live).getD false

theorem State.ctx_modQueue (s : State) (d q : Nat) (f : Queue → Queue) (c : Nat) :
    (s.modQueue d q f).ctx c = if d = c ∧ c < 32 then (s.ctx c).setQueue q (f (s.queue d q)) else s.ctx c := by
  have h := s.ctx_modCtx d c fun x => x.setQueue q (f (s.queue d q))
  exact h
theorem State.inst?_modQueue (s : State) (d q : Nat) (f : Queue → Queue) (c h : Nat) : (s.modQueue d q f).inst? c h = s.inst? c h := by
  rw [State.inst?, State.ctx_modQueue]
  split <;> rfl
theorem State.trail_modQueue (s : State) (d q : Nat) (f : Queue → Queue) (c : Nat) : ((s.modQueue d q f).ctx c).trail = (s.ctx c).trail := by
  rw [State.ctx_modQueue]
  split <;> rfl
theorem State.queue_modQueue_of {s : State} {c : Nat} (hc : c < 32) {p : Nat} (hp : p < 16) (f : Queue → Queue) (q : Nat) :
    (s.modQueue c p f).queue c q = if q = p then f (s.queue c p) else s.queue c q := by
  rw [State.queue, s.ctx_modQueue_same hc, Ctx.queue_setQueue]
  by_cases h : q = p
  · rw [if_pos ⟨h.symm, h ▸ hp⟩, if_pos h]
  · rw [if_neg (fun x => h x.1.symm), if_neg h]
    rfl

/-- A queue of a context as its turn to wake comes. -/
def State.wakeOne (t : State) (c q : Nat) : State :=
  match (t.queue c q).state, (t.queue c q).kwait with
  | .waiting, some h => if t.instLive c h then t else t.modQueue c q fun k => { k with state := .running, kwait := none }
  | _, _ => t
theorem State.wake_eq (s : State) (c : Nat) : s.wake c = (List.range 16).foldl (fun t q => t.wakeOne c q) s := rfl
theorem State.wakeOne_cases (t : State) (c q : Nat) :
    t.wakeOne c q = t ∧ (t.queue c q).woken (t.instLive c) = t.queue c q ∨
      t.wakeOne c q = t.modQueue c q (fun k => { k with state := .running, kwait := none }) ∧
        (t.queue c q).woken (t.instLive c) = { t.queue c q with state := .running, kwait := none } := by
  unfold State.wakeOne
  split
  · rename_i h hw hk
    split
    · rename_i hl
      exact .inl ⟨rfl, Queue.woken_other fun _ h' hk' => by rw [hk] at hk'; exact Option.some.inj hk' ▸ hl⟩
    · rename_i hl
      exact .inr ⟨rfl, Queue.woken_ended hw hk (by simpa using hl)⟩
  · rename_i hn
    exact .inl ⟨rfl, Queue.woken_other fun hw h' hk' => absurd hk' (by intro hk'; exact hn h' hw hk')⟩
/-- What wakes a queue leaves all but the queues of its context. -/
theorem State.wakeOne_keeps (t : State) (c q d h : Nat) :
    (t.wakeOne c q).inst? d h = t.inst? d h ∧ ((t.wakeOne c q).ctx d).trail = (t.ctx d).trail ∧ (t.wakeOne c q).cores = t.cores := by
  rcases t.wakeOne_cases c q with ⟨he, -⟩ | ⟨he, -⟩
  · rw [he]
    exact ⟨rfl, rfl, rfl⟩
  · rw [he]
    exact ⟨t.inst?_modQueue _ _ _ _ _, t.trail_modQueue _ _ _ _, rfl⟩
theorem State.queue_wakeOne {t : State} {c q : Nat} (hc : c < 32) (hq : q < 16) (p : Nat) :
    (t.wakeOne c q).queue c p = if p = q then (t.queue c q).woken (t.instLive c) else t.queue c p := by
  rcases t.wakeOne_cases c q with ⟨he, hk⟩ | ⟨he, hk⟩
  · rw [he, hk]
    split
    · rename_i h
      rw [h]
    · rfl
  · rw [he, hk, State.queue_modQueue_of hc hq]
theorem State.trail_wake (s : State) (c d : Nat) : ((s.wake c).ctx d).trail = (s.ctx d).trail :=
  foldl_keeps (P := fun t => (t.ctx d).trail) (fun t q => (t.wakeOne_keeps c q d 0).2.1) _ _
theorem State.queue_wake {s : State} {c q : Nat} (hc : c < 32) (hq : q < 16) : (s.wake c).queue c q = (s.queue c q).woken (s.instLive c) := by
  have h : ∀ (l : List Nat) (t : State), l.Nodup → (∀ x ∈ l, x < 16) → t.instLive c = s.instLive c →
      (l.foldl (fun t q => t.wakeOne c q) t).queue c q = if q ∈ l then (t.queue c q).woken (s.instLive c) else t.queue c q := by
    intro l
    induction l with
    | nil => exact fun t _ _ _ => rfl
    | cons x l ih =>
      intro t hn hl ht
      obtain ⟨hx, hn⟩ := List.nodup_cons.1 hn
      have hlive : (t.wakeOne c x).instLive c = s.instLive c := by
        refine Eq.trans ?_ ht
        funext h
        rw [State.instLive, (t.wakeOne_keeps c x c h).1, State.instLive]
      rw [List.foldl_cons, ih _ hn (fun y hy => hl y (List.mem_cons_of_mem _ hy)) hlive, State.queue_wakeOne hc (hl x List.mem_cons_self), ht]
      by_cases hqx : q = x
      · simp [hqx, hx]
      · simp [hqx]
  rw [State.wake_eq, h _ s List.nodup_range (fun x hx => List.mem_range.1 hx) rfl, if_pos (List.mem_range.2 hq)]

/-! Records and divergences. -/

/-- A record that is its queue's only one leaves none. -/
theorem State.dropRecord_only {s : State} {c q id : Nat} {r : FaultRec} (hc : c < 32) (hq : q < 16) (hf : (s.queue c q).faults = [(id, r)]) :
    s.dropRecord c q id = s.modQueue c q fun k => { k with faults := k.faults.filter (·.1 != id) } := by
  have hn : ((s.modQueue c q fun k => { k with faults := k.faults.filter (·.1 != id) }).queue c q).faults = [] := by
    rw [State.queue_modQueue_same s hc hq]
    simp [hf]
  unfold State.dropRecord
  dsimp only
  rw [hn]
  rfl
/-- Table 11-5: a queue that nothing holds returns to its prior state. -/
theorem State.queue_unpark {s : State} {c q : Nat} (hc : c < 32) (hq : q < 16) (hp : (s.queue c q).state = .parked) (hf : (s.queue c q).faults = [])
    (hd : (s.queue c q).divParked = false) :
    (s.unpark c q).queue c q = ({ s.queue c q with state := (s.queue c q).prior } : Queue).woken (s.instLive c) := by
  unfold State.unpark
  rw [State.queue_wake hc hq, State.queue_modQueue_same s hc hq, if_pos ⟨hp, hf, by simp [hd]⟩]
  congr 1
  funext h
  rw [State.instLive, State.inst?_modQueue, State.instLive]
theorem State.unpark_keeps (s : State) (c q d : Nat) : (s.unpark c q).hbm = s.hbm ∧ ((s.unpark c q).ctx d).trail = (s.ctx d).trail :=
  ⟨(State.wake_hbm _ _).trans rfl, (State.trail_wake _ _ _).trans (s.trail_modQueue _ _ _ _)⟩
/-- A divergence with no request of the host held ends without an effect on memory (R391). -/
theorem State.endDivergence_quiet {s : State} {c : Nat} (hc : c < 32) (hq : (s.ctx c).trail.hostq = []) :
    (s.endDivergence c).hbm = s.hbm ∧ ((s.endDivergence c).ctx c).trail.mode = 0 ∧ ((s.endDivergence c).ctx c).trail.div = false := by
  have hf : s.flushHost c = s.modTrail c fun t => { t with hostq := [] } := by rw [State.flushHost, hq]; rfl
  have hk : ∀ (l : List Nat) (t : State), (let u := l.foldl (fun t q => if (t.queue c q).divParked then (t.modQueue c q fun k => { k with divParked := false }).unpark c q else t) t
      (u.hbm, (u.ctx c).trail)) = (t.hbm, (t.ctx c).trail) := fun l t => by
    refine foldl_keeps (P := fun u => (u.hbm, (u.ctx c).trail)) (fun t q => ?_) l t
    split
    · obtain ⟨hh, ht⟩ := (t.modQueue c q fun k => { k with divParked := false }).unpark_keeps c q c
      rw [hh, ht, State.trail_modQueue]
      rfl
    · rfl
  have he := hk (List.range 16) ((s.flushHost c).modTrail c Trail.off)
  have ht : (((s.flushHost c).modTrail c Trail.off).ctx c).trail = Trail.off ((s.flushHost c).ctx c).trail := by
    rw [State.modTrail, State.ctx_modCtx_same _ hc]
  unfold State.endDivergence
  obtain ⟨hh, htr⟩ := Prod.mk.inj he
  rw [hh, htr, ht, hf]
  exact ⟨rfl, rfl, rfl⟩
theorem Ctx.held_of_going {c : Ctx} (hg : c.going = true) : c.state ≠ .free := by
  intro hf
  simp [Ctx.going, hf] at hg

section
variable {s : State} (hi : s.idleGuide) {op : BitVec 496} (hn : opCx op < 32) (hg : (s.ctx (opCx op)).going = true)
  (rec : State → Nat → Nat → FaultRec → State) (div : State → State)
include hi hn hg

theorem answerTo_record {q : Nat} {r : FaultRec} (hr : (s.ctx (opCx op)).recordOf (opF op 1 2) = some (q, r)) :
    s.answerTo op rec div = .next ((rec s q (opF op 1 2) r).mbEnd 0 0) := by
  unfold State.answerTo
  dsimp only
  rw [State.command_ok hi _ (by simp [State.cxHeld_of hn (Ctx.held_of_going hg), hg, hr]), hr]
theorem answerTo_divergence (hr : (s.ctx (opCx op)).recordOf (opF op 1 2) = none) (hd : (s.ctx (opCx op)).trail.div = true)
    (hid : (s.ctx (opCx op)).trail.divId = opF op 1 2) : s.answerTo op rec div = .next ((div s).mbEnd 0 0) := by
  unfold State.answerTo
  dsimp only
  rw [State.command_ok hi _ (by simp [State.cxHeld_of hn (Ctx.held_of_going hg), hg, hd, hid]), hr]
theorem answerTo_nothing (hr : (s.ctx (opCx op)).recordOf (opF op 1 2) = none) (hd : (s.ctx (opCx op)).trail.div = false) :
    ∃ t, s.answerTo op rec div = .next t ∧ t.ended 1 10 ∧ s.guideOnly t := by
  unfold State.answerTo
  dsimp only
  refine State.commandBy_fails hi (c := (false, 10)) (State.command.eq_1 _ _ _) ?_
  simp [State.cxHeld_of hn (Ctx.held_of_going hg), hr, hd]
end

section
variable {s : State} {c q id : Nat} {r : FaultRec} (hc : c < 32) (hq : q < 16) (hf : (s.queue c q).faults = [(id, r)]) (hqt : r.qt = true)
  (hp : (s.queue c q).state = .parked)
include hc hq hf

theorem State.queue_dropRecord : (s.dropRecord c q id).queue c q = { s.queue c q with faults := [] } := by
  rw [State.dropRecord_only hc hq hf, State.queue_modQueue_same s hc hq]
  simp [hf]
theorem State.hbm_dropRecord : (s.dropRecord c q id).hbm = s.hbm := by
  rw [State.dropRecord_only hc hq hf]
  rfl
theorem State.instLive_dropRecord : (s.dropRecord c q id).instLive c = s.instLive c := by
  funext h
  rw [State.dropRecord_only hc hq hf, State.instLive, State.inst?_modQueue, State.instLive]
include hqt hp
/-- R412: RESOLVE of a thread's only record. -/
theorem State.resolveRecord_thread (hd : (s.queue c q).divParked = false) : (s.resolveRecord c q id r).hbm = s.hbm ∧
    (s.resolveRecord c q id r).queue c q = ({ s.queue c q with faults := [], state := (s.queue c q).prior } : Queue).woken (s.instLive c) := by
  have hk := State.queue_dropRecord hc hq hf
  unfold State.resolveRecord
  dsimp only
  rw [if_pos hqt]
  constructor
  · rw [(State.unpark_keeps _ _ _ 0).1, State.hbm_dropRecord hc hq hf]
  · rw [State.queue_unpark hc hq (by rw [hk]; exact hp) (by rw [hk]) (by rw [hk]; exact hd), State.instLive_dropRecord hc hq hf, hk]
/-- R320: DENY of a thread's only record. -/
theorem State.denyRecord_thread : (s.denyRecord c q id r).hbm = s.hbm ∧
    (s.denyRecord c q id r).queue c q = { s.queue c q with faults := [], state := .faulted, lastCause := 17 } := by
  have hk := State.queue_dropRecord hc hq hf
  unfold State.denyRecord
  dsimp only
  rw [if_pos hqt]
  constructor
  · rw [State.endQueue_hbm, State.hbm_dropRecord hc hq hf]
  · unfold State.endQueue
    dsimp only
    rw [if_pos (by rw [hk]; exact .inr (.inr hp)), State.queue, (State.msix_guideOnly _ _ _).ctx]
    refine (State.queue_modQueue_same _ hc hq _).trans ?_
    rw [hk]
    rfl
end
theorem Queue.faults_woken (k : Queue) (live : Nat → Bool) : (k.woken live).faults = k.faults := by
  unfold Queue.woken
  split
  · cases k.kwait with
    | none => rfl
    | some h =>
      simp only [Option.map_some, Option.getD_some]
      split <;> rfl
  · rfl
theorem State.denyDivergence_unowned {s : State} {c : Nat} (ho : (s.ctx c).trail.divOwner = none) : s.denyDivergence c = s.endDivergence c := by
  unfold State.denyDivergence
  dsimp only
  rw [ho]

end Sys2Proof.Machine
end

section
open Sys2Proof Sys2Proof.Machine

/-- Settles O50: the record's queue has no other, so that RESOLVE returns it to its prior state and wakes it where its instance has ended. -/
theorem faultAnswers : Obligations.FaultAnswers := by
  unfold Obligations.FaultAnswers
  intro s op q r hi hn hq hg
  refine ⟨fun hr hf hqt hp hd => ⟨?_, ?_⟩, fun hr hdiv hid ho hhq i hio => ?_, fun hr hd => ?_⟩
  · obtain ⟨hh, hk⟩ := State.resolveRecord_thread hn hq hf hqt hp hd
    refine ⟨(s.resolveRecord (opCx op) q (opF op 1 2) r).mbEnd 0 0, ?_, State.mbEnd_ended _ _ _, ?_, ?_, fun hw => ?_, fun h hw hkw hno => ?_⟩
    · show execResolve op s = _
      rw [execResolve, answerTo_record hi hn hg _ _ hr]
    · rw [State.queue, State.mbEnd_ctx]
      exact (congrArg Queue.faults hk).trans (Queue.faults_woken _ _)
    · exact ((State.mbEnd_guideOnly _ _ _).hbm).trans hh
    · rw [State.queue, State.mbEnd_ctx]
      refine (congrArg Queue.state hk).trans (congrArg Queue.state (Queue.woken_other fun hpw h hkw => ?_))
      obtain ⟨i, hii, hil⟩ := hw hpw h hkw
      rw [State.instLive, hii]
      exact hil
    · rw [State.queue, State.mbEnd_ctx]
      have hl : s.instLive (opCx op) h = false := by
        rw [State.instLive, hno]
        rfl
      exact congrArg Queue.state (hk.trans (Queue.woken_ended (k := { s.queue (opCx op) q with faults := [], state := (s.queue (opCx op) q).prior }) hw hkw hl))
  · obtain ⟨hh, hk⟩ := State.denyRecord_thread hn hq hf hqt hp
    have hkq : ((s.denyRecord (opCx op) q (opF op 1 2) r).mbEnd 0 0).queue (opCx op) q =
        { s.queue (opCx op) q with faults := [], state := .faulted, lastCause := 17 } := by
      rw [State.queue, State.mbEnd_ctx]
      exact hk
    refine ⟨(s.denyRecord (opCx op) q (opF op 1 2) r).mbEnd 0 0, ?_, State.mbEnd_ended _ _ _, by rw [hkq], by rw [hkq], by rw [hkq], ?_⟩
    · show execDeny op s = _
      rw [execDeny, answerTo_record hi hn hg _ _ hr]
    · exact ((State.mbEnd_guideOnly _ _ _).hbm).trans hh
  · obtain ⟨hh, hm, hdf⟩ := State.endDivergence_quiet hn hhq
    refine ⟨(s.endDivergence (opCx op)).mbEnd 0 0, ?_, State.mbEnd_ended _ _ _, ?_, ?_, ?_⟩
    · rcases hio with rfl | rfl
      · show execResolve op s = _
        rw [execResolve, answerTo_divergence hi hn hg _ _ hr hdiv hid]
      · show execDeny op s = _
        rw [execDeny, answerTo_divergence hi hn hg _ _ hr hdiv hid, State.denyDivergence_unowned ho]
    · rw [State.mbEnd_ctx, hm]
    · rw [State.mbEnd_ctx, hdf]
    · exact ((State.mbEnd_guideOnly _ _ _).hbm).trans hh
  · show ∃ t, execResolve op s = .next t ∧ _
    rw [execResolve]
    exact answerTo_nothing hi hn hg _ _ hr hd

end

section
/-! Quality of service (R321, R322, R427 to R434). -/
namespace Sys2Proof.Machine

/-! Contexts. -/

/-- What of a context the counters leave. -/
def Ctx.shares (c : Ctx) : List (Nat × List Req) × List (Nat × Nat) := (c.requests, c.buckets)
theorem State.ctx_perf (s : State) (d i k c : Nat) : ∃ p, (s.perf d i k).ctx c = { s.ctx c with perf := p } := by
  rw [State.perf, State.ctx_modCtx]
  split
  · exact ⟨_, rfl⟩
  · exact ⟨_, rfl⟩
theorem State.shares_perf (s : State) (d i k c : Nat) : ((s.perf d i k).ctx c).shares = (s.ctx c).shares := by
  obtain ⟨p, hp⟩ := s.ctx_perf d i k c
  rw [hp]
  rfl
theorem Ctx.queue_map (c : Ctx) (f : Queue → Queue) {q : Nat} (hq : q < 16) : ({ c with queues := c.queues.map f } : Ctx).queue q = f (c.queue q) := by
  simp [Ctx.queue, vget, hq]
/-- A fold over different contexts, each step of which changes its own. -/
theorem State.ctx_foldl_modCtx (f : Ctx → Ctx) {l : List Nat} (hl : l.Nodup) (s : State) {c : Nat} (hc : c < 32) :
    (l.foldl (fun t n => t.modCtx n f) s).ctx c = if c ∈ l then f (s.ctx c) else s.ctx c := by
  induction l generalizing s with
  | nil => rfl
  | cons x l ih =>
    obtain ⟨hx, hl⟩ := List.nodup_cons.1 hl
    rw [List.foldl_cons, ih hl, State.ctx_modCtx]
    by_cases hcx : x = c
    · subst hcx
      simp [hx, hc]
    · simp [hcx, Ne.symm hcx]
theorem State.mem_live {s : State} {n : Nat} : n ∈ s.live ↔ n < 32 ∧ (s.ctx n).state.held = true := by simp [State.live]
theorem Ctx.not_stretched {c : Ctx} (hn : ∀ q, (c.queue q).np = false) : c.stretched = false := by
  unfold Ctx.stretched
  rw [List.any_eq_false]
  intro k hk
  obtain ⟨q, hq, rfl⟩ := List.getElem_of_mem hk
  have h := hn q
  rw [Vector.length_toList] at hq
  simpa [Ctx.queue, vget, hq] using h

/-! Stretches and quanta (R321, R322). -/

theorem State.ctxs_clearValid (s : State) (a : Nat) : (s.clearValid a).ctxs = s.ctxs := s.ctxs_physWrite _ _ _
/-- What of a context a pre-emption's start sets, with its queues. -/
theorem State.ctx_beginStop {s : State} {c : Nat} (hc : c < 32) (cls a : Nat) :
    ∃ p st, (s.beginStop c cls a).ctx c = { (s.ctx c).startStop cls a with perf := p, state := st } ∧ ((s.ctx c).state = .running → st = .quiescing) := by
  have h1 : ((s.clearValid a).modCtx c (·.startStop cls a)).ctx c = (s.ctx c).startStop cls a := by
    rw [State.ctx_modCtx_same _ hc, State.ctx, s.ctxs_clearValid]
    rfl
  unfold State.beginStop
  dsimp only
  split
  · obtain ⟨p, hp⟩ := ((s.clearValid a).modCtx c (·.startStop cls a)).ctx_perf c 11 1 c
    refine ⟨p, .quiescing, ?_, fun _ => rfl⟩
    rw [State.ctx_cxGoto hc, hp, h1]
  · rename_i hn
    exact ⟨_, _, h1, fun h => absurd h hn⟩
theorem Ctx.queue_startStop (c : Ctx) (cls a : Nat) {q : Nat} (hq : q < 16) : (c.startStop cls a).queue q = { c.queue q with deferring := false } :=
  c.queue_map _ hq
/-- A queue's debt grows by the delay where its stretch deferred (R321). -/
def Queue.delayed (k : Queue) (d : BitVec 64) : Queue := if k.deferring then { k with qdebt := k.qdebt + d } else k
theorem exec_deferredPreemptStart {s : State} {c cls a t : Nat} (hd : (s.ctx c).deferred = some (cls, a, t)) (hn : ∀ q, ((s.ctx c).queue q).np = false) :
    exec (.deferredPreemptStart c) s =
      .next ((s.modCtx c fun c => { c with queues := c.queues.map (·.delayed (BitVec.ofNat 64 (s.pcyc - t))) }).beginStop c cls a) := by
  show execDeferredPreemptStart c s = _
  rw [execDeferredPreemptStart, hd]
  dsimp only
  rw [Ctx.not_stretched hn, if_neg (by decide)]
  rfl

/-! Buckets, rates and slots (R427 to R434). -/

theorem Ctx.refill_rates {c : Ctx} (hm : c.clmask ≠ 0) (b : Nat) :
    (c.refill b).rateFab = nextRate c.rateFab c.frw 5104 c.markFab ∧ (c.refill b).rateHost = nextRate c.rateHost c.frw 257 c.markHost ∧
      (c.refill b).markFab = false ∧ (c.refill b).active = false := by
  unfold Ctx.refill
  dsimp only
  rw [if_neg hm]
  exact ⟨rfl, rfl, rfl, rfl⟩
/-- What a context is lent at a refill (R431). -/
def State.lent (s : State) (c : Ctx) : Nat :=
  let sum := fun (on : Bool) => (s.live.filter fun n => (s.ctx n).active == on).foldl (fun a n => a + (s.ctx n).tok) 0
  if c.active && decide (0 < sum true) then c.tok * sum false / sum true else 0
theorem Ctx.refill_portless {c : Ctx} (hm : c.clmask = 0) (b : Nat) : c.refill b = c := by
  unfold Ctx.refill
  dsimp only
  rw [if_pos hm]
/-- A refill changes each context that is in use, and only by its own refill. -/
theorem State.ctx_refillAll (s : State) {c : Nat} (hc : c < 32) :
    s.refillAll.ctx c = if (s.ctx c).state.held then (s.ctx c).refill (s.lent (s.ctx c)) else s.ctx c := by
  have hl : s.live.Nodup := List.nodup_range.filter _
  have hf : s.refillAll = s.live.foldl (fun t n => t.modCtx n fun c => c.refill (s.lent c)) s := rfl
  rw [hf, State.ctx_foldl_modCtx _ hl s hc]
  simp only [State.mem_live.trans (and_iff_right hc)]
theorem Ctx.throttled_shares {c d : Ctx} (h : d.shares = c.shares) (p : Nat) : d.throttled p = c.throttled p := by
  obtain ⟨hr, hb⟩ := Prod.mk.inj h
  rw [Ctx.throttled, Ctx.throttled, hr, hb]

/-- The first part of a slot's cycle: each context in which a port is throttled counts the cycle. -/
def State.slotCount (s : State) : State :=
  (List.range 32).foldl (fun t n =>
    match (t.ctx n).requests with
    | [] => t
    | l => t.perf n 5 (bitAt (l.any fun x => (t.ctx n).throttled x.1) 0)) s
/-- The second part: the ports of the slot's owner inject. -/
def State.slotOwned (s : State) (n : Nat) : State :=
  let r := ((s.ctx n).requests.map (·.1)).foldl (fun (a : State × Nat) p => let x := a.1.inject n p; (x.1, a.2 + x.2)) (s, 0)
  r.1.perf n 4 r.2
theorem State.slotCycle_eq (s : State) : s.slotCycle =
    if (s.guide.timetable.getD (s.pcyc % 256) 0).toNat = 0 then s.slotCount else s.slotCount.slotOwned ((s.guide.timetable.getD (s.pcyc % 256) 0).toNat - 1) := rfl
theorem State.shares_slotCount (s : State) (c : Nat) : (s.slotCount.ctx c).shares = (s.ctx c).shares := by
  unfold State.slotCount
  refine foldl_keeps (P := fun t => (t.ctx c).shares) (fun t n => ?_) _ s
  split
  · rfl
  · exact t.shares_perf _ _ _ _
theorem State.slotCount_idle {s : State} (hr : ∀ n, n < 32 → (s.ctx n).requests = []) : s.slotCount = s := by
  unfold State.slotCount
  refine foldl_induct (P := fun t => t = s) (fun t n hn ht => ?_) rfl
  rw [ht, hr n (List.mem_range.1 hn)]
/-- A port with a token and one line for local HBM lets it leave (R430). -/
theorem State.inject_line {s : State} {c p : Nat} {r : Req} (hc : c < 32) (hr : (s.ctx c).requests = [(p, [r])]) (hp : p < 1024) (hl : r.lines = 1)
    (hd : r.dest = .hbm) (ht : (s.ctx c).throttled p = false) :
    (((s.inject c p).1).ctx c).requests = [] ∧ (((s.inject c p).1).ctx c).active = true ∧
      aget? (((s.inject c p).1).ctx c).buckets p = some ((aget? (s.ctx c).buckets p).getD 0 - 1) := by
  have hg : (aget? (s.ctx c).requests p).getD [] = [r] := by simp [hr, aget?]
  have he : (s.inject c p).1 = (s.modCtx c fun x => x.leave p (s.pcyc / 64) s.pcyc r []).tick 1 := by
    unfold State.inject
    dsimp only
    rw [ht, if_neg (by decide), hg]
    dsimp only
    rw [if_neg (by simp [Ctx.paces, hd]), if_pos (by simp [State.canLeave, hd])]
  have hx : ((s.inject c p).1).ctx c = (s.ctx c).leave p (s.pcyc / 64) s.pcyc r [] := by
    rw [he]
    exact State.ctx_modCtx_same s hc fun x => x.leave p (s.pcyc / 64) s.pcyc r []
  rw [hx]
  unfold Ctx.leave
  dsimp only
  rw [if_pos (Nat.le_of_eq hl)]
  refine ⟨?_, ?_, ?_⟩
  · simp [hr]
  · simp [hd, hp]
  · rw [if_pos (by simp [hd, hp]), aget?_aset_same]

theorem State.slotCycle_line {s : State} {c p : Nat} {r : Req} (hc : c < 32) (hr : (s.ctx c).requests = [(p, [r])]) (hp : p < 1024) (hl : r.lines = 1)
    (hd : r.dest = .hbm) (ht : (s.ctx c).throttled p = false) (ho : s.guide.timetable.getD (s.pcyc % 256) 0 = BitVec.ofNat 6 (c + 1)) :
    ((s.slotCycle).ctx c).requests = [] ∧ ((s.slotCycle).ctx c).active = true ∧
      aget? ((s.slotCycle).ctx c).buckets p = some ((aget? (s.ctx c).buckets p).getD 0 - 1) := by
  have hown : (s.guide.timetable.getD (s.pcyc % 256) 0).toNat = c + 1 := by
    rw [ho, BitVec.toNat_ofNat]
    omega
  have hs := s.shares_slotCount c
  obtain ⟨hr1, hb1⟩ := Prod.mk.inj hs
  have he : s.slotCycle = ((s.slotCount.inject c p).1).perf c 4 (0 + (s.slotCount.inject c p).2) := by
    rw [State.slotCycle_eq, hown, if_neg (by omega), Nat.add_sub_cancel, State.slotOwned, hr1, hr]
    simp only [List.map_cons, List.map_nil, List.foldl_cons, List.foldl_nil]
  obtain ⟨k, hk⟩ := State.ctx_perf (s.slotCount.inject c p).1 c 4 (0 + (s.slotCount.inject c p).2) c
  obtain ⟨h1, h2, h3⟩ := State.inject_line hc (hr1.trans hr) hp hl hd ((Ctx.throttled_shares hs p).trans ht)
  rw [he, hk]
  exact ⟨h1, h2, h3.trans (by rw [hb1])⟩

end Sys2Proof.Machine
end

section
open Sys2Proof Sys2Proof.Machine

/-- Settles O44: each event acts on one context or queue, and what it leaves is read off its own change. -/
theorem qualityOfService : Obligations.QualityOfService := by
  unfold Obligations.QualityOfService
  intro s c q hc hq
  refine ⟨fun hn hb => ?_, fun hn hw he => ?_, fun hn => ?_, fun cls a t hd hn _ => ?_, fun hqn hsl => ?_, fun h0 hf => ?_, fun h0 hst hm => ?_, fun h0 => ?_,
    fun tb h0 => ⟨fun ht => ?_, fun ht => ?_⟩, fun h0 => ?_, fun p r _ hr hp hl hd ht ho => ?_, fun hr ho => ?_, ?_, ?_⟩
  · show execNpBoundExpired c q s = _
    rw [execNpBoundExpired, State.modQueue, State.modQueue, if_pos (by simp [hn, hb])]
  · show execWatchdog c q s = _
    rw [execWatchdog]
    dsimp only
    rw [if_pos (by simp only [hn, hw, Bool.not_false, Bool.and_self, Bool.true_and, decide_eq_true_eq]; exact he)]
  · show execWatchdog c q s = _
    rw [execWatchdog]
    dsimp only
    rw [if_neg (by simp [hn])]
  · obtain ⟨p, st, hx, hst⟩ := State.ctx_beginStop
      (s := s.modCtx c fun c => { c with queues := c.queues.map (·.delayed (BitVec.ofNat 64 (s.pcyc - t))) }) hc cls a
    rw [State.ctx_modCtx_same s hc] at hx hst
    refine ⟨_, exec_deferredPreemptStart hd hn, by rw [hx]; rfl, by rw [hx]; rfl, by rw [hx]; rfl, fun hr => by rw [hx]; exact hst hr, fun hk => ?_⟩
    rw [State.queue, hx]
    have hkx := Ctx.queue_startStop { s.ctx c with queues := (s.ctx c).queues.map (·.delayed (BitVec.ofNat 64 (s.pcyc - t))) } cls a hq
    rw [Ctx.queue_map _ _ hq] at hkx
    exact (congrArg Queue.qdebt hkx).trans (congrArg Queue.qdebt (if_pos hk))
  · have hqs : ¬((s.ctx c).quant.toNat = 0 ∨ 1 < (s.ctx c).slice) := fun h => h.elim (fun h => hqn (BitVec.eq_of_toNat_eq h)) (by omega)
    refine ⟨_, rfl, ?_, ?_⟩
    · rw [State.ctx_modCtx_same s hc, if_neg hqs]
      rfl
    · rw [State.queue, State.ctx_modCtx_same s hc, if_neg hqs]
      exact congrArg Queue.qdebt (Ctx.queue_map (s.ctx c) _ hq)
  · refine ⟨_, congrArg Host.Outcome.next (if_pos h0), ?_⟩
    rw [State.ctx_refillAll s hc]
    rcases hf with hf | hf
    · rw [if_neg (by rw [hf]; decide)]
    · split
      · exact Ctx.refill_portless hf _
      · rfl
  · refine ⟨_, congrArg Host.Outcome.next (if_pos h0), ?_⟩
    rw [State.ctx_refillAll s hc, if_pos (by rw [hst]; rfl)]
    exact Ctx.refill_rates hm _
  · show execTokenRefill s = _
    rw [execTokenRefill, if_neg h0]
  · show execTimetableChange s = _
    rw [execTimetableChange, if_neg (Decidable.not_not.2 h0)]
    simp [State.modGuide, ht]
  · show execTimetableChange s = _
    rw [execTimetableChange, if_neg (Decidable.not_not.2 h0)]
    simp [State.modGuide, ht]
  · show execTimetableChange s = _
    rw [execTimetableChange, if_pos h0]
  · exact ⟨_, rfl, State.slotCycle_line hc hr hp hl hd ht ho⟩
  · exact congrArg Host.Outcome.next ((State.slotCycle_eq s).trans (by rw [ho, if_pos (by decide), State.slotCount_idle hr]))
  · rfl
  · rfl

end

section
/-! Translation: walks, invalidations, tier fetches and peers (R348, R400 to R410). -/
namespace Sys2Proof.Machine

/-! What parks a job leaves the cores as they are. -/

theorem State.cores_pauseCore (s : State) (n bit : Nat) : (s.pauseCore n bit).cores = s.cores := by
  unfold State.pauseCore
  split <;> rfl
theorem State.cores_standCore (s : State) (n : Nat) : (s.standCore n).cores = s.cores := by
  unfold State.standCore
  split <;> rfl
theorem State.cores_parkQueue (s : State) (d q : Nat) : (s.parkQueue d q).cores = s.cores := by
  have parked : ∀ (t : State) (l : List Nat), (l.foldl (fun t n => t.pauseCore n 2) t).cores = t.cores := fun t l =>
    foldl_keeps (P := State.cores) (fun t n => t.cores_pauseCore n 2) l t
  unfold State.parkQueue
  dsimp only
  split <;> split
  · exact parked _ _
  · rfl
  · exact parked _ _
  · rfl
theorem State.cores_faultRecord (s : State) (d q : Nat) (r : FaultRec) : (s.faultRecord d q r).cores = s.cores := by
  unfold State.faultRecord
  dsimp only
  split
  · exact (State.event_guideOnly _ _ _ _ _ _).cores
  · rfl
/-- R320: the core of a job that a stage-2 fault parks. -/
theorem State.take_parked {s : State} {n : Nat} (hs : (s.core n).stop = none) (e : Engine) (cause faddr : Nat) (r : FaultRec) :
    (s.take (.job n e) cause faddr (some r)).core n =
      { s.core n with stop := some { cause := cause, strm := e, faddr := faddr, held := false, parked := true, cycle := s.now n } } := by
  have h1 : ((s.parkJob n e cause faddr).standCore n).core n =
      { s.core n with stop := some { cause := cause, strm := e, faddr := faddr, held := false, parked := true, cycle := s.now n } } := by
    rw [State.core_of_cores (State.cores_standCore _ _), State.parkJob, if_neg (by simp [hs]), State.core_of_cores (State.cores_pauseCore _ _ _),
      State.core_modCore_same]
  unfold State.take
  dsimp only
  rw [if_neg (by simp [hs])]
  split
  · rw [State.core_of_cores (State.cores_parkQueue _ _ _), State.core_of_cores (State.cores_faultRecord _ _ _ _), h1]
  · exact h1

/-! Tier fetches (R409, R410). -/

/-- The end of a tier fetch: no copy waits for the page any more. -/
def State.tierLanded (s : State) (c key : Nat) : State :=
  ((s.ctx c).runCores.foldl (fun t n => t.modCore n fun x => { x with copies := x.copies.map (·.tierDone key) }) s).modCtx c fun x =>
    { x with tiers := x.tiers.filter (·.1 != key) }
theorem State.tiers_tierLanded {s t : State} {c : Nat} (hc : c < 32) (ht : t.ctxs = s.ctxs) (key : Nat) :
    ((t.tierLanded c key).ctx c).tiers = (s.ctx c).tiers.filter (·.1 != key) := by
  have hk : ((t.ctx c).runCores.foldl (fun t n => t.modCore n fun x => { x with copies := x.copies.map (·.tierDone key) }) t).ctxs = t.ctxs := by
    refine foldl_keeps (P := State.ctxs) (fun t n => ?_) _ t
    rfl
  rw [State.tierLanded, State.ctx_modCtx_same _ hc, State.ctx, hk, ht]
  rfl
theorem State.ctxs_withHbm (t : State) (m : Mem) : ({ t with hbm := m } : State).ctxs = t.ctxs := rfl
/-- The frame's bytes and the leaf, as a served tier fetch writes them. -/
def State.tierWritten (s : State) (c ipa key la lv : Nat) : State :=
  let src := s.tierSource c ipa lv
  let cur := leNat (s.hbm.read la 8)
  let same := cur / 256 = lv / 256 ∧ cur % 128 = lv % 128
  let s1 := s.physWrite c (.hbm (tierFrame key * 65536) (if same then la else 0)) ((List.range 65536).map fun k => (s.physByte (src.add k), s.physTaint1 (src.add k)))
  if same then ({ s1 with hbm := s1.hbm.set la (s1.hbm.get la &&& 0xF3) } : State).llcWrite la 1 else s1
theorem State.tierLand_some {s : State} {c ipa key la lv : Nat} (ht : (s.ctx c).tierAt ipa = some (key, la, lv)) :
    s.tierLand c ipa = if !s.tierServed c ipa lv then s else (s.tierWritten c ipa key la lv).tierLanded c key := by
  rw [State.tierLand, ht]
  rfl
theorem State.ctxs_tierWritten (s : State) (c ipa key la lv : Nat) : (s.tierWritten c ipa key la lv).ctxs = s.ctxs := by
  unfold State.tierWritten
  dsimp only
  split
  · rw [State.ctxs_llcWrite, State.ctxs_withHbm, State.ctxs_physWrite]
  · rw [State.ctxs_physWrite]
theorem State.tiers_tierLand {s : State} {c ipa key la lv : Nat} (hc : c < 32) (ht : (s.ctx c).tierAt ipa = some (key, la, lv)) :
    ((s.tierLand c ipa).ctx c).tiers = if s.tierServed c ipa lv then (s.ctx c).tiers.filter (·.1 != key) else (s.ctx c).tiers := by
  rw [State.tierLand_some ht]
  by_cases hs : s.tierServed c ipa lv = true
  · rw [if_neg (by simp [hs]), if_pos hs]
    exact State.tiers_tierLanded hc (s.ctxs_tierWritten c ipa key la lv) key
  · rw [if_pos (by simpa using hs), if_neg hs]

theorem State.tierFail_idle {s : State} {c ipa key la lv : Nat} (hc : c < 32) (ht : (s.ctx c).tierAt ipa = some (key, la, lv)) (hi : (s.ctx c).insts = []) :
    ((s.tierFail c ipa).ctx c).tiers = (s.ctx c).tiers.filter (·.1 != key) := by
  unfold State.tierFail
  rw [ht]
  dsimp only
  rw [State.ctx_modCtx_same _ hc, Ctx.runCores]
  dsimp only
  rw [hi]
  exact congrArg Ctx.tiers (State.ctx_modCtx_same s hc _)
/-- A core whose XFETCH waits for the page parks its job with reason 5. -/
theorem State.tierFail_waits {s : State} {c ipa key la lv n va ia lvl : Nat} {x : Copy} (hc : c < 32) (ht : (s.ctx c).tierAt ipa = some (key, la, lv))
    (hr : (s.ctx c).runCores = [n]) (hs : (s.core n).stop = none)
    (hx : (s.core n).copies.find? (fun x => x.form == .xfetch && x.waitTier.contains key) = some x) (hb : x.tierByte key = some (va, ia, lvl)) :
    ∃ k, ((s.tierFail c ipa).core n).stop = some { cause := 17, strm := .X, faddr := va, held := false, parked := true, cycle := k } := by
  have hrun : ((s.modCtx c fun c => { c with tiers := c.tiers.filter (·.1 != key) }).ctx c).runCores = [n] := by
    rw [State.ctx_modCtx_same _ hc]
    exact hr
  refine ⟨(s.modCtx c fun c => { c with tiers := c.tiers.filter (·.1 != key) }).now n, ?_⟩
  unfold State.tierFail
  rw [ht]
  dsimp only
  rw [hrun, List.foldl_cons, List.foldl_nil, State.core_modCtx, hx]
  dsimp only
  rw [hb]
  exact congrArg Core.stop (State.take_parked (s := s.modCtx c fun c => { c with tiers := c.tiers.filter (·.1 != key) }) hs .X 17 va _)

/-! Accesses from peers (R405). -/

theorem exec_peerRequest {s : State} (hf : s.fabricLive = true) (dcn off : Nat) (w : Bool) (bs : List Byte) :
    exec (.peerRequest dcn off w bs) s = .next (s.fromPeer dcn off w bs) := by
  show execPeerRequest dcn off w bs s = _
  rw [execPeerRequest, if_pos hf]
theorem bits_opc (opc off : Nat) (ho : off < 2 ^ 55) (hc : opc < 16) : bits (opc * 2 ^ 55 + off) 58 55 = opc ∧ (opc * 2 ^ 55 + off) % 2 ^ 55 = off := by
  unfold bits
  omega
theorem State.fromPeer_atomic {s : State} {dcn off opc d : Nat} {bs : List Byte} (ho : off < 2 ^ 55) (h1 : 1 ≤ opc) (h2 : opc ≤ 12)
    (hw : Config.openWindow dcn off true = some d) (hd : d + bs.length ≤ hbmTop) :
    s.fromPeer dcn (opc * 2 ^ 55 + off) true bs = s.peerAtomic dcn d opc bs := by
  obtain ⟨hb, hm⟩ := bits_opc opc off ho (by omega)
  unfold State.fromPeer
  dsimp only
  rw [hb, hm, hw]
  dsimp only
  rw [if_pos (by simpa using hd), if_pos ⟨rfl, h1, h2⟩]
/-- An offset below 2^55 holds no operation. -/
theorem State.fromPeer_plain (s : State) {off : Nat} (ho : off < 2 ^ 55) (dcn : Nat) (w : Bool) (bs : List Byte) :
    s.fromPeer dcn off w bs = (Config.openWindow dcn off w).elim (s.answerPeer dcn 4 []) fun d =>
      if d + bs.length ≤ hbmTop then
        (if w then
          (((s.tick 1).physWrite 0 (.hbm d noLeaf) (tainted (Config.freeBit s.free) bs)).plainWrote (s.ctxAt d) (.hbm d noLeaf) bs.length).answerPeer dcn 2 []
        else s.answerPeer dcn 3 ((List.range bs.length).map fun k => (s.physByte (.hbm (d + k) 0), s.physTaint1 (.hbm (d + k) 0))))
      else s.answerPeer dcn 4 [] := by
  have hb : bits off 58 55 = 0 := by
    unfold bits
    omega
  unfold State.fromPeer
  dsimp only
  rw [Nat.mod_eq_of_lt ho, hb]
  cases Config.openWindow dcn off w with
  | none => rfl
  | some d =>
    dsimp only [Option.elim]
    simp only [decide_eq_true_eq]
    split
    · rw [if_neg (by omega)]
    · rfl

/-! Commands (Table 16-5). -/

/-- A command that stays under way until its invalidation is complete. -/
def State.awaits (s : State) (n : Nat) (o : Out) (k : InvScope) (P : State → Prop) : Prop :=
  ∃ t, o = .next t ∧ t.guide.waitInv = some n ∧ t.guide.busy = s.guide.busy ∧ (t.ctx n).s2inv = some (s.watches n k) ∧ t.hbm = s.hbm ∧ t.cores = s.cores ∧ P t
theorem State.ctx_awaitInv {s : State} {n : Nat} (hn : n < 32) (h2 : (s.ctx n).s2inv = none) (k : InvScope) :
    ((s.awaitInv n k).ctx n).s2inv = some (s.watches n k) ∧ ((s.awaitInv n k).ctx n).s2root = (s.ctx n).s2root ∧ ((s.awaitInv n k).ctx n).wins = (s.ctx n).wins := by
  have hctx : (s.awaitInv n k).ctx n = (s.startS2Inv n k).ctx n := rfl
  rw [hctx, State.startS2Inv, State.ctx_modCtx_same _ hn, h2]
  exact ⟨rfl, rfl, rfl⟩
section
variable {s : State} {n : Nat} {o : Out} {conds : List (Bool × Nat)} {k : InvScope} {P : State → Prop} (hi : s.idleGuide) (hn : n < 32)
  (h2 : (s.ctx n).s2inv = none) {act : State → State} (he : o = s.commandBy conds act) (hc : ∀ c ∈ conds, c.1 = true)
include hi hn h2 he hc
theorem State.awaits_inv (ha : act s = s.awaitInv n k) (hP : P (s.awaitInv n k)) : s.awaits n o k P :=
  ⟨_, he.trans ((State.commandBy_ok hi act hc).trans (congrArg _ ha)), rfl, rfl, (State.ctx_awaitInv hn h2 k).1, rfl, rfl, hP⟩
theorem State.awaits_set {f : Ctx → Ctx} (ha : act s = (s.awaitInv n k).modCtx n f) (hf : ∀ c, (f c).s2inv = c.s2inv)
    (hP : P ((s.awaitInv n k).modCtx n f)) : s.awaits n o k P := by
  refine ⟨_, he.trans ((State.commandBy_ok hi act hc).trans (congrArg _ ha)), rfl, rfl, ?_, rfl, rfl, hP⟩
  rw [State.ctx_modCtx_same _ hn, hf, (State.ctx_awaitInv hn h2 k).1]
end

/-- R348: the walk that an instance's only group waits for has ended. -/
theorem State.walk_ends {s : State} {c : Nat} (hc : c < 32) {i : Inst} {g : Group} (hi : (s.ctx c).insts = [i]) (hg : i.groups = [g]) :
    (s.modGroup c i.handle g.gidx (·.unpause 1)).group? c i.handle g.gidx = some (g.unpause 1) := by
  have hgr : s.group? c i.handle g.gidx = some g := by
    rw [State.group?, State.inst?, Ctx.inst?, hi]
    simp [Inst.group?, hg]
  rw [State.group?_modGroup hc (fun x => x.gidx_unpause 1), hgr, Option.map_some]

end Sys2Proof.Machine
end

section
open Sys2Proof Sys2Proof.Machine

/-- Settles O45: invalidations and tier fetches change their context's lists alone; a peer's access is what its offset's high bits and the open
windows make of it. -/
theorem translationEvents : Obligations.TranslationEvents := by
  unfold Obligations.TranslationEvents
  refine ⟨fun s c hc => ⟨fun i g hi hg hst hp => ?_, fun l hl => ⟨fun hd => ?_, fun hd => ?_⟩, fun l hl => ⟨fun hd => ?_, fun hd hw => ?_, fun hd hw => ?_⟩,
    fun ipa key la lv ht => ⟨⟨_, rfl, State.tiers_tierLand hc ht⟩, fun hi => ⟨_, rfl, State.tierFail_idle hc ht hi⟩, fun n x va ia lvl hr hs hx hb => ?_⟩,
    fun dcn off w bs hf => ?_, fun dcn off bs hf ho => ⟨fun opc d h1 h2 hw hd => ?_, ?_, ?_⟩⟩, fun s op hi hn hst h2 => ?_⟩
  · have he : exec (.translationComplete c) s = .next (s.modGroup c i.handle g.gidx (·.unpause 1)) := by
      show execTranslationComplete c s = _
      simp only [execTranslationComplete, hi, hg, List.foldl_cons, List.foldl_nil]
    have hu : g.unpause 1 = { g with state := g.ret, prsn := 0 } := by
      unfold Group.unpause
      rw [hst, hp]
      exact if_pos (by decide)
    exact ⟨_, he, (State.walk_ends hc hi hg).trans (by rw [hu])⟩
  · show execS1invComplete c s = _
    rw [execS1invComplete, hl]
    exact congrArg _ (if_pos hd)
  · show execS1invComplete c s = _
    rw [execS1invComplete, hl]
    exact congrArg _ (if_neg (by simp [hd]))
  · show execInvalidationComplete c s = _
    rw [execInvalidationComplete, hl]
    exact congrArg _ (if_neg (by simp [hd]))
  · show execInvalidationComplete c s = _
    rw [execInvalidationComplete, hl]
    exact congrArg _ ((if_pos hd).trans (if_neg hw))
  · refine ⟨(s.modCtx c fun c => { c with s2inv := none }).mbEnd 0 0, ?_, State.mbEnd_ended _ _ _, ?_⟩
    · show execInvalidationComplete c s = _
      rw [execInvalidationComplete, hl]
      exact congrArg _ ((if_pos hd).trans (if_pos hw))
    · rw [State.mbEnd_ctx, State.ctx_modCtx_same _ hc]
  · obtain ⟨k, hk⟩ := State.tierFail_waits hc ht hr hs hx hb
    exact ⟨_, rfl, by rw [hk]; rfl⟩
  · show execPeerRequest dcn off w bs s = _
    rw [execPeerRequest, if_neg (by simp [hf])]
  · rw [exec_peerRequest hf, State.fromPeer_atomic ho h1 h2 hw hd]
  · rw [exec_peerRequest hf, State.fromPeer_plain s ho]
    cases Config.openWindow dcn off true <;> rfl
  · rw [exec_peerRequest hf, State.fromPeer_plain s ho]
    cases Config.openWindow dcn off false <;> rfl
  · have hh := State.cxHeld_of hn hst
    refine ⟨fun ha => ?_, fun h0 => ?_, fun h1 => ?_, fun hw => ?_⟩
    · refine State.awaits_set hi hn h2 (execS2root.eq_1 op s) (by simp [hh, ha]) rfl (fun c => rfl) ?_
      rw [State.ctx_modCtx_same _ hn]
    · exact State.awaits_inv hi hn h2 (execS2inv.eq_1 op s) (by simp [hh, h0]) (by rw [if_pos h0]) (State.ctx_awaitInv hn h2 _).2.1
    · exact State.awaits_inv hi hn h2 (execS2inv.eq_1 op s) (by simp [hh, h1]) (by rw [if_neg (by rw [h1]; decide)]) (State.ctx_awaitInv hn h2 _).2.1
    · refine State.awaits_set hi hn h2 (execWinset.eq_1 op s) (by simp [hh, hw]) rfl (fun c => rfl) ?_
      rw [State.ctx_modCtx_same _ hn, (State.ctx_awaitInv hn h2 _).2.2]

end

section
/-! Ports, errors, cache lines and power (R22, R420, R435, R438 to R451, R463). -/
namespace Sys2Proof.Machine

/-! Ports (Table 17-1). -/

section
variable {s : State} {k : Nat} (hk : k < 25)
include hk
theorem State.portRow_from {l : List PortState} {f : Port → Port} (hp : (s.port k).state ∈ l) :
    s.portRow k l f = (s.setPort k (f (s.port k))).portEvent k := by
  rw [State.portRow, if_pos ⟨hk, by simpa using hp⟩]
theorem State.setPort_self : s.setPort k (s.port k) = s := by
  have h : s.guide.ports.setIfInBounds k (s.port k) = s.guide.ports := by
    ext j hj
    simp only [State.port, vget, Vector.getElem_setIfInBounds]
    split
    · subst k
      simp [hj]
    · rfl
  rw [State.setPort, State.modGuide, h]
end
theorem State.portRow_other {s : State} {k : Nat} {l : List PortState} {f : Port → Port} (hp : (s.port k).state ∉ l) : s.portRow k l f = s := by
  rw [State.portRow, if_neg (fun h => hp (by simpa using h.2))]

/-! Cancels (R439). -/

theorem Core.psb_releaseChan (c : Core) (x : Option (Nat × Nat)) : (c.releaseChan x).psb = c.psb := by
  unfold Core.releaseChan
  split <;> rfl
theorem Core.psb_abandonMmas (c : Core) (free : Nat) : (c.abandonMmas free).1.psb = c.psb := by
  unfold Core.abandonMmas
  refine foldl_induct (P := fun x : Core × Nat => x.1.psb = c.psb) (fun x m _ hx => ?_) rfl
  exact (Core.psb_releaseChan _ _).trans ((Core.psb_releaseChan _ _).trans hx)
theorem Core.psb_restore (c : Core) : c.restore.psb = c.psb := by
  unfold Core.restore
  split <;> rfl
theorem State.psb_cancelPhase (s : State) (n : Nat) : ((s.cancelPhase n).core n).psb = [] := by
  have h : ∀ t : State, ((t.core n).dropPhase.abandonMmas t.free).1.psb = [] := fun t => (Core.psb_abandonMmas _ _).trans rfl
  unfold State.cancelPhase
  dsimp only
  rw [State.perf, State.core_modCtx, show ∀ (t : State) (f : Nat), ({ t with free := f } : State).core n = t.core n from fun _ _ => rfl, State.core_setCore_same]
  exact h _
/-- R439: what a cancel leaves of the core. -/
theorem State.core_cancelNow (s : State) (n : Nat) (e : Engine) (cause faddr : Nat) :
    ∃ k, ((s.cancelNow n e cause faddr).core n).stop = some { cause := cause, strm := e, faddr := faddr, held := false, parked := false, cycle := k } ∧
      ((s.cancelNow n e cause faddr).core n).psb = [] := by
  refine ⟨s.now n - 1, ?_⟩
  unfold State.cancelNow
  rw [State.core_of_cores (State.cores_pauseCore _ _ _), State.core_modCore_same]
  exact ⟨rfl, (Core.psb_restore _).trans (s.psb_cancelPhase n)⟩
/-- With the trail off a cancel writes no record. -/
theorem State.cancelTrap_off {s : State} {n : Nat} {e : Engine} (hs : (s.core n).stop = none) (hm : (s.ctx (s.cxnOf (.job n e))).trail.mode = 0)
    (cause faddr clk : Nat) : s.cancelTrap n e cause faddr clk = s.cancelNow n e cause faddr := by
  have h1 : ¬ (s.ctx (s.cxnOf (.job n e))).trail.mode = 1 := by rw [hm]; decide
  unfold State.cancelTrap
  rw [hs]
  dsimp only
  rw [if_neg (by decide), if_neg (fun h => h1 h.1), if_neg (fun h => h1 h.1), if_neg h1]
/-- An error of a stream of a job that goes on: its record, and its cancel (R439, R445). -/
theorem State.error_cancels {s : State} {n : Nat} {e : Engine} (hs : (s.core n).stop = none) (hm : (s.ctx (s.cxnOf (.job n e))).trail.mode = 0)
    (bank : Nat) (r : ErrRec) (cause clk : Nat) :
    (((s.report bank r).cancelTrap n e cause 0 clk).core n).stop.map (fun x => (x.cause, x.strm)) = some (cause, e) ∧
      (((s.report bank r).cancelTrap n e cause 0 clk).core n).psb = [] := by
  have hg := s.report_guideOnly bank r
  have hc := State.core_of_cores hg.cores n
  have hx : (s.report bank r).cxnOf (.job n e) = s.cxnOf (.job n e) := by
    simp only [State.cxnOf, hc]
  rw [State.cancelTrap_off (by rw [hc]; exact hs) (by rw [hx, hg.ctx]; exact hm)]
  obtain ⟨k, hk, hp⟩ := (s.report bank r).core_cancelNow n e cause 0
  exact ⟨by rw [hk]; rfl, hp⟩

theorem exec_sramEccError {s : State} {n : Nat} {e : Engine} (hj : (s.core n).job.isSome = true) (hs : (s.core n).stop = none) :
    exec (.sramEccError n e true) s = .next ((s.report (coreDie n) (s.jobRec n e 1 1 34)).cancelTrap n e 34 0 (s.now n)) := by
  show execSramEccError n e true s = _
  rw [execSramEccError, if_neg (by decide), if_neg (by simpa [Option.isNone_iff_eq_none, Option.isSome_iff_ne_none] using hj), if_neg (by simp [hs])]
theorem exec_pipelineError {s : State} {n : Nat} {e : Engine} (hj : (s.core n).job.isSome = true) (hs : (s.core n).stop = none) :
    exec (.pipelineError (.stream n e)) s = .next ((s.report (coreDie n) (s.jobRec n e 0 1 28)).cancelTrap n e 28 0 (s.now n)) := by
  show Host.Outcome.next (s.streamError n e) = _
  obtain ⟨j, hj⟩ := Option.isSome_iff_exists.1 hj
  rw [State.streamError, hj, hs]

/-! Cache lines (R22, R65). -/

theorem LlcLine.use_has (x : LlcLine) (words : BitVec 16) (write : Bool) :
    words &&& ~~~(x.use words write).valid = 0 ∧ (write = true → words &&& ~~~(x.use words write).dirty = 0) := by
  have hor : ∀ v : BitVec 16, words &&& ~~~(v ||| words) = 0 := fun v => by
    ext k hk
    rw [BitVec.getElem_and, BitVec.getElem_not, BitVec.getElem_or]
    refine Eq.trans ?_ (BitVec.getElem_zero hk).symm
    cases v[k] <;> cases words[k] <;> rfl
  unfold LlcLine.use
  cases write with
  | true => exact ⟨hor _, fun _ => hor _⟩
  | false =>
    refine ⟨?_, fun h => by cases h⟩
    rw [if_neg (by decide)]
    dsimp only
    split
    · assumption
    · ext k hk
      simp
theorem LlcLine.line_use (x : LlcLine) (words : BitVec 16) (write : Bool) : (x.use words write).line = x.line := by
  unfold LlcLine.use
  split <;> rfl
/-- An access leaves its line in the cache, used. -/
theorem State.llcTake_line (s : State) (line : Nat) (words : BitVec 16) (write : Bool) : ∃ x : LlcLine, (s.llcTake line words write).llcLine? line = some (x.use words write) := by
  unfold State.llcTake
  by_cases h : (s.llcLine? line).isSome = true
  · obtain ⟨x, hx⟩ := Option.isSome_iff_exists.1 h
    rw [if_pos h]
    refine ⟨x, ?_⟩
    have hm := find?_map_key (key := LlcLine.line) (f := fun x => x.use words write) (fun x => x.line_use words write) line s.llc
    exact hm.trans (by rw [show s.llc.find? (fun x => x.line == line) = some x from hx]; rfl)
  · rw [if_neg h]
    refine ⟨{ line := line, way := s.llcWay line, valid := 0, dirty := 0 }, ?_⟩
    have hno : ∀ x ∈ s.llc, ¬(x.line == line) = true := List.find?_eq_none.1 (by simpa [State.llcLine?] using h)
    have hd : (s.llcDrop fun x => (s.llcVictim line).any (·.line == x.line)).llc.find? (·.line == line) = none :=
      List.find?_eq_none.2 fun x hx => hno x (List.mem_filter.1 hx).1
    dsimp only [State.llcLine?]
    rw [List.find?_append, hd, Option.none_or, List.find?_cons_of_pos]
    rw [LlcLine.line_use]
    exact beq_self_eq_true line

/-! Power (R463). -/

theorem State.darkStep_empty {t : State} (hi : t.inbox = []) : darkStep t = .fault .powerRemoved := by rw [darkStep, hi]
theorem State.darkStep_reset {t : State} {rest : List Instr} (hi : t.inbox = .coldReset :: rest) : darkStep t = execColdReset { t with inbox := rest } := by
  rw [darkStep, hi]
  exact if_pos rfl

end Sys2Proof.Machine
end

section
open Sys2Proof Sys2Proof.Machine

/-- Settles O46: with the trail off a cancel follows the error at once; a line that an access uses holds the words it names. -/
theorem linkAndErrorEvents : Obligations.LinkAndErrorEvents := by
  unfold Obligations.LinkAndErrorEvents
  refine ⟨fun s k width hk => ⟨fun hp => ⟨?_, ?_, ?_⟩, fun hp => ?_, fun hp => ?_, fun hp hf => ?_, fun hf => ?_, fun hp hr => ?_, fun hp => ?_, fun hr => ?_, fun hr => ?_⟩,
    fun s n e part die => ⟨rfl, fun hj hs hm => ⟨⟨_, exec_sramEccError hj hs, State.error_cancels hs hm _ _ _ _⟩, ⟨_, exec_pipelineError hj hs, State.error_cancels hs hm _ _ _ _⟩⟩, fun hj => ?_, fun hh => ⟨fun hd => ?_, fun hd => ?_, fun double => ?_, fun i hi => ?_⟩,
      fun line words write => ?_, rfl, fun hl hd => ?_, fun hl => ?_, rfl, ?_⟩⟩
  · exact congrArg _ (State.portRow_from hk (by simp [hp]))
  · exact congrArg _ (State.portRow_from hk (by simp [hp]))
  · exact congrArg _ (State.portRow_from hk (by simp [hp]))
  · exact congrArg _ (State.portRow_other (by simpa using hp))
  · exact congrArg _ (State.portRow_from hk (by simp [hp]))
  · show execDrainComplete k s = _
    rw [execDrainComplete, if_neg (by simp [hf])]
    exact congrArg _ (State.portRow_from hk (by simp [hp]))
  · show execDrainComplete k s = _
    rw [execDrainComplete, if_pos hf]
  · show execLinkReplayExhausted k s = _
    rw [execLinkReplayExhausted, if_pos ⟨hk, by rcases hp with h | h <;> simp [Port.carries, h]⟩]
    dsimp only
    rw [hr]
    exact congrArg _ (State.portRow_from hk (by rcases hp with h | h <;> simp [h]))
  · show execLinkReplayExhausted k s = _
    rw [execLinkReplayExhausted, if_neg (by simp [Port.carries, hp])]
  · show execLinkLevelReplay k s = _
    rw [execLinkLevelReplay, if_pos hk, Nat.min_eq_left (by omega), BitVec.ofNat_add, BitVec.ofNat_toNat, BitVec.setWidth_eq]
    rfl
  · show execLinkLevelReplay k s = _
    rw [execLinkLevelReplay, if_pos hk, hr, Nat.min_eq_right (by omega), ← hr, BitVec.ofNat_toNat, BitVec.setWidth_eq]
    exact congrArg _ (State.setPort_self hk)
  · show Host.Outcome.next (s.streamError n e) = _
    rw [State.streamError, hj]
  · show execLlcEccError part true true s = _
    rw [execLlcEccError, if_neg (by simpa [inHbm] using hh), if_pos ⟨rfl, rfl, hd⟩]
  · show execLlcEccError part true true s = execLlcEccError part true false s
    rw [execLlcEccError, execLlcEccError, if_neg (by simpa [inHbm] using hh), if_neg (by simp [hd]), if_neg (by simpa [inHbm] using hh), if_neg (by simp)]
  · show execLlcEccError part double false s = _
    rw [execLlcEccError, if_neg (by simpa [inHbm] using hh), if_neg (by simp)]
  · have he : ∀ bad, exec (i bad) s = .next (s.hbmError part bad) := fun bad => by rcases hi with rfl | rfl <;> rfl
    have hin : ¬ (!inHbm (16 * part)) = true := by simpa [inHbm] using hh
    rw [he, he]
    unfold State.hbmError
    dsimp only
    rw [if_neg hin, if_neg hin]
    exact ⟨congrArg _ (if_pos rfl), congrArg _ (if_neg (by decide))⟩
  · obtain ⟨x, hx⟩ := s.llcTake_line line words write
    exact ⟨_, hx, x.use_has words write⟩
  · show execDectedSwitchComplete die s = _
    rw [execDectedSwitchComplete, if_pos ⟨hl, by simp [hd]⟩]
  · show execDectedSwitchComplete die s = _
    rw [execDectedSwitchComplete, if_neg (by simp [hl])]
  · refine ⟨_, rfl, rfl, fun hi => ?_, fun rest hi => ?_⟩
    · exact (if_pos rfl).trans (State.darkStep_empty hi)
    · exact ⟨_, (if_pos rfl).trans (State.darkStep_reset hi), rfl, rfl, rfl⟩

end

section
/-! The statement about the trail and replay. -/
open Sys2Proof Sys2Proof.Machine

/-- Core 0 replays; the ring's first record is the restart of its S stream's phase with cause 28 at this cycle, and its part is poisoned. -/
def Sys2Proof.Machine.poisonedRestart : State :=
  let s := State.reset.place1 (.job 0 .S) []
  let t := s.placeBytes 0x50000 (leBytes 8 (mkQ0 (s.now 0) 0x0B (s.issJob 0 .S 0)) ++ leBytes 8 28)
  { t.modTrail 0 fun r => { r with mode := 2, widx := 1, ridx := 0, sz := 16, pages := [(0x50000, 0)] } with hbmP := t.hbmP.add (0x50000 / 16) }

/-- Refutes O43: a phase-restart record whose part is poisoned is not applied: it parks what runs of the context (R391, R449), and the job goes on
without a stop. -/
theorem not_trailAndReplay : ¬ Obligations.TrailAndReplay := by
  intro hall
  obtain ⟨hrestart, -⟩ := hall.2 poisonedRestart 0 .S 0 (by decide +kernel) (by decide +kernel)
  obtain ⟨t, ht, hstop⟩ := hrestart (by decide +kernel) (by decide +kernel)
  have unstopped : (match exec (.replayPhaseRestart 0) poisonedRestart with | .next t => (t.core 0).stop.isNone | _ => false) = true := by
    decide +kernel
  rw [ht] at unstopped
  dsimp only at unstopped
  rw [Option.isNone_iff_eq_none.1 unstopped] at hstop
  cases hstop
end

section
/-! Strong accesses at their home (R367, R370, Table 14-3). -/
namespace Sys2Proof.Machine

theorem map_fst_tainted (t : Bool) (bs : List Byte) : (tainted t bs).map Prod.fst = bs := by
  simp [tainted, Function.comp_def]
/-- A write to local HBM of a context that tracks no pages. -/
theorem State.hbm_physWrite {s : State} {c : Nat} (d leaf : Nat) (hl : ¬((s.ctx c).track = true ∧ inHbm leaf = true)) (bs : List (Byte × Bool)) :
    (s.physWrite c (.hbm d leaf) bs).hbm = s.hbm.write d (bs.map Prod.fst) := by
  unfold State.physWrite
  dsimp only
  rw [State.llcWrite_hbm]
  refine (foldl_keeps (P := State.hbm) (fun t k => ?_) _ _).trans ?_
  · rfl
  · rw [State.setDirty, if_neg hl]

/-! What of a core and of memory the marks and tags of an access leave. -/

theorem State.lineEvents_other {x : Strong} (hx : x.op ≠ .fadd) (s : State) (ag : Agent) : s.lineEvents ag x = s := by
  unfold State.lineEvents
  dsimp only
  split
  · exact absurd ‹x.op = StrongOp.fadd› hx
  · rfl
theorem State.cores_modCtx (s : State) (c : Nat) (f : Ctx → Ctx) : (s.modCtx c f).cores = s.cores := rfl
theorem State.cores_tagMix (s : State) (ag : Agent) (x : Strong) : (s.tagMix ag x).cores = s.cores := by
  unfold State.tagMix
  dsimp only
  split
  · rfl
  · split
    · rfl
    · rw [State.cores_modCtx, State.cores_dropMix]
theorem State.cores_markTnt (s : State) (ag : Agent) (det t : Bool) : (s.markTnt ag det t).cores = s.cores := by
  unfold State.markTnt
  split
  · split
    · split <;> rfl
    · rfl
  · rfl
theorem State.pend_noteMark (s : State) (ag : Agent) (x : Strong) (old wrote : Option Nat) (n : Nat) : ((s.noteMark ag x old wrote).core n).pend = (s.core n).pend := by
  unfold State.noteMark
  split
  · dsimp only
    split
    · split
      · rw [State.core_modCore]
        split <;> rfl
      · rfl
    · rfl
  · rfl
theorem State.pend_answer (s : State) (n : Nat) (e : Engine) (x : Strong) (v : Nat) (t : Bool) (poison : Nat) :
    ((s.answer (.job n e) x v t poison).core n).pend = replaceAwait x.id x.e (landings x v t poison) (s.core n).pend := by
  unfold State.answer
  dsimp only
  rw [State.core_modCore_same]

/-- The write of an access, where its operation makes one. -/
def State.strongWrite (s : State) (ag : Agent) (x : Strong) (v : Option Nat) (t : Bool) : State :=
  match v with
  | some v => (s.physWrite (s.cxnOf ag) x.loc (tainted t (leBytes x.size v))).markTnt ag x.det t
  | none => s
theorem State.cores_strongWrite (s : State) (ag : Agent) (x : Strong) (v : Option Nat) (t : Bool) : (s.strongWrite ag x v t).cores = s.cores := by
  cases v with
  | none => rfl
  | some v => exact (State.cores_markTnt _ _ _ _).trans (State.cores_physWrite _ _ _ _)
theorem State.undefine_nil (s : State) : s.undefine [] = s := rfl
/-- What an access reads, as a number. -/
def State.strongOld (s : State) (x : Strong) : Nat := if x.op.reads then leNat (s.physRead x.loc x.size) else 0
/-- R367: an access of local HBM with no undefined bytes under it. -/
theorem State.performStrong_local {s : State} {ag : Agent} {x : Strong} {d leaf : Nat} (hx : x.loc = .hbm d leaf) (hm : s.mixOpen ag x = []) :
    s.performStrong ag x =
      (((((s.strongWrite ag x (strongValue x.op x.size (s.strongOld x) x.x.toNat x.cmp.toNat).1 (x.op.taint (s.physTaint x.loc x.size) x.xT)).noteMark ag x
        (if x.op.reads then some (s.strongOld x) else none) (strongValue x.op x.size (s.strongOld x) x.x.toNat x.cmp.toNat).1).tagMix ag x).lineEvents ag x).answer ag x
          (strongValue x.op x.size (s.strongOld x) x.x.toNat x.cmp.toNat).2 (x.op.taint (s.physTaint x.loc x.size) x.xT)
          (if x.op.reads then s.physPoison x.loc x.size else 0)) := by
  unfold State.performStrong
  dsimp only
  rw [hm]
  simp only [hx, Bool.and_true, State.strongOld, State.undefine_nil, State.strongWrite] <;> rfl

section
variable {s : State} {ag : Agent} {x : Strong} (hn : s.nextStrong ag = some x)
include hn

theorem State.atomicStep_waits (h : s.reaches x.loc = false ∨ s.sent ag x = false) : s.atomicStep ag = s := by
  unfold State.atomicStep
  rw [hn]
  exact if_pos (by rcases h with h | h <;> simp [h])
theorem State.ackContribution_waits (h : s.sent ag x = false) : s.ackContribution ag = s := by
  unfold State.ackContribution
  rw [hn]
  cases ag with
  | job n e => exact if_neg (by simp [h])
  | thread c q => rfl
section
variable (hop : x.op.isAred = false) (hr : s.reaches x.loc = true) (hs : s.sent ag x = true)
include hop hr hs
theorem State.atomicStep_clash (hc : s.mixClash (s.cxnOf ag) x.size x.loc = true) : s.atomicStep ag = s.mixStop ag x := by
  unfold State.atomicStep
  rw [hn]
  exact (if_neg (by simp [hop, hr, hs])).trans (if_pos hc)
theorem State.atomicStep_off (hc : s.mixClash (s.cxnOf ag) x.size x.loc = false) (hm : (s.ctx (s.cxnOf ag)).trail.mode = 0) :
    s.atomicStep ag = s.performStrong ag x := by
  unfold State.atomicStep
  rw [hn]
  refine (if_neg (by simp [hop, hr, hs])).trans ((if_neg (by simp [hc])).trans ?_)
  split
  · rfl
  · dsimp only
    rw [State.gate_off hm]
end
end

/-- What an access writes to local HBM of a context that tracks no pages. -/
theorem State.hbm_strongWrite {s : State} {ag : Agent} {x : Strong} {d leaf : Nat} (hx : x.loc = .hbm d leaf) (ht : (s.ctx (s.cxnOf ag)).track = false)
    (v : Option Nat) (t : Bool) : (s.strongWrite ag x v t).hbm = v.elim s.hbm fun v => s.hbm.write d (leBytes x.size v) := by
  cases v with
  | none => rfl
  | some v =>
    dsimp only [State.strongWrite, Option.elim]
    rw [State.markTnt_hbm, hx, State.hbm_physWrite d leaf (by simp [ht]), map_fst_tainted]
theorem State.hbm_performStrong {s : State} {ag : Agent} {x : Strong} {d leaf : Nat} (hx : x.loc = .hbm d leaf) (hm : s.mixOpen ag x = [])
    (ht : (s.ctx (s.cxnOf ag)).track = false) (hf : x.op ≠ .fadd) :
    (s.performStrong ag x).hbm = (strongValue x.op x.size (s.strongOld x) x.x.toNat x.cmp.toNat).1.elim s.hbm fun v => s.hbm.write d (leBytes x.size v) := by
  rw [State.performStrong_local hx hm, State.answer_hbm, State.lineEvents_other hf, State.tagMix_hbm, State.noteMark_hbm, State.hbm_strongWrite hx ht]
theorem State.pend_performStrong {s : State} {n : Nat} {e : Engine} {x : Strong} {d leaf : Nat} (hx : x.loc = .hbm d leaf) (hm : s.mixOpen (.job n e) x = [])
    (hf : x.op ≠ .fadd) (hp : s.physPoison x.loc x.size = 0) :
    ((s.performStrong (.job n e) x).core n).pend = replaceAwait x.id x.e (landings x (strongValue x.op x.size (s.strongOld x) x.x.toNat x.cmp.toNat).2
      (x.op.taint (s.physTaint x.loc x.size) x.xT) 0) (s.core n).pend := by
  rw [State.performStrong_local hx hm, State.pend_answer, State.lineEvents_other hf, State.core_of_cores (State.cores_tagMix _ _ _), State.pend_noteMark,
    State.core_of_cores (State.cores_strongWrite _ _ _ _ _), hp, ite_self]

/-- R370: a contribution to an instance none of whose context's instances has a slot opens one. -/
theorem State.contribute_opens {s : State} {c h i p k d leaf : Nat} {x : Strong} {y : Inst} (hop : x.op = .ared i p k) (hx : x.loc = .hbm d leaf)
    (hy : s.inst? c h = some y) (hz : ∀ z ∈ (s.ctx c).insts, z.slots = []) :
    (s.contribute c h x).inst? c h = some { y with slots :=
      [{ ea := x.va, dpa := d, leaf := leaf, handle := y.handle, det := x.det, overrun := false, bad := false, lost := false,
         contribs := [{ i := i, p := p, n := k, taint := x.xT, x := x.x.setWidth 32 }] }] } := by
  have hys : y.slots = [] := hz y (List.mem_of_find?_eq_some hy)
  have hfull : (s.ctx c).slotFull y x.va (homeSlice d) = false := by
    have hnone : (s.ctx c).insts.flatMap (fun j => j.slots.filter fun z => homeSlice z.dpa == homeSlice d) = [] :=
      List.flatMap_eq_nil_iff.2 fun z hzm => by rw [hz z hzm]; rfl
    unfold Ctx.slotFull
    rw [hys, hnone]
    rfl
  have he : s.contribute c h x = s.modInst c h fun y => y.contribute x.va d leaf x.det { i := i, p := p, n := k, taint := x.xT, x := x.x.setWidth 32 } := by
    unfold State.contribute
    rw [hop, hx]
    dsimp only
    rw [hy]
    exact if_neg (by simp [hfull])
  rw [he, State.inst?_modInst (State.lt_of_inst? hy) (fun z => ?_), hy, Option.map_some]
  · unfold Inst.contribute
    simp only [hys, List.any_nil, Bool.false_eq_true, if_false, List.nil_append]
  · unfold Inst.contribute
    split <;> rfl

/-- R370: the contribution of a job's stream is performed where its instance stands. -/
theorem State.ackContribution_performed {s : State} {n : Nat} {e : Engine} {x : Strong} {i p k c h g o : Nat} (hn : s.nextStrong (.job n e) = some x)
    (hop : x.op = .ared i p k) (hs : s.sent (.job n e) x = true) (hmem : (s.core n).member = some (c, h, g, o)) :
    s.ackContribution (.job n e) = (s.contribute c h x).answer (.job n e) x 0 false 0 := by
  unfold State.ackContribution
  rw [hn]
  refine (if_pos (by rw [hop, hs]; rfl)).trans ?_
  rw [hmem]

/-! Values (Table 14-3). -/

theorem sextTo_toNat (old : BitVec 32) : sextTo 64 (8 * 4) old.toNat = old.signExtend 64 := by
  rw [sextTo, BitVec.signExtend, BitVec.toInt_eq_toNat_cond]
  have h := old.isLt
  congr 1
  split <;> split <;> omega
theorem mod_toNat (x : BitVec 32) : x.toNat % 2 ^ (8 * 4) = x.toNat := Nat.mod_eq_of_lt x.isLt

end Sys2Proof.Machine
end

section
open Sys2Proof Sys2Proof.Machine

/-- Settles O34: with the trail off an access is performed where it can go, and what follows its write leaves memory and the core's other pending
entries. -/
theorem strongPerformance : Obligations.StrongPerformance := by
  unfold Obligations.StrongPerformance
  refine ⟨fun s ag x hn => ⟨fun h => congrArg Host.Outcome.next (State.atomicStep_waits hn h), fun h => congrArg Host.Outcome.next (State.ackContribution_waits hn h),
    fun hop hr hs hc => ⟨_, congrArg Host.Outcome.next (State.atomicStep_clash hn hop hr hs hc), State.mixStop_hbm _ _ _⟩,
    fun hop hr hs hc hm ho => ⟨_, congrArg Host.Outcome.next (State.atomicStep_off hn hop hr hs hc hm), fun d leaf hx ht hf => ⟨fun hv => ?_, fun v hv => ?_, fun n e hag hp => ?_⟩⟩,
    fun n e i p k d leaf c h g o y hag hs hop hx hmem hy hz => ?_⟩, fun old x c => ?_⟩
  · refine (State.hbm_performStrong hx ho ht hf).trans ?_
    rw [show (strongValue x.op x.size (s.strongOld x) x.x.toNat x.cmp.toNat).1 = none from hv]
    rfl
  · refine (State.hbm_performStrong hx ho ht hf).trans ?_
    rw [show (strongValue x.op x.size (s.strongOld x) x.x.toNat x.cmp.toNat).1 = some v from hv]
    rfl
  · subst hag
    exact State.pend_performStrong hx ho hf hp
  · subst hag
    refine ⟨_, _, congrArg Host.Outcome.next (State.ackContribution_performed hn hop hs hmem), ?_, State.contribute_opens hop hx hy hz, rfl⟩
    rw [State.answer_hbm, State.contribute_hbm]
  · dsimp only [strongValue]
    rw [mod_toNat, mod_toNat, toS_toNat, toS_toNat, sextTo_toNat]
    refine ⟨rfl, rfl, rfl, rfl, ?_, ?_, rfl, rfl, rfl, ?_⟩
    · rw [apply_ite BitVec.toNat]
      rfl
    · rw [apply_ite BitVec.toNat]
      rfl
    · simp only [BitVec.toNat_inj]

end

section
/-! The matrix engine (R222 to R248). -/
namespace Sys2Proof.Machine

/-! The array's own events. -/

theorem Core.m_releaseChan (c : Core) (h : Option (Nat × Nat)) : (c.releaseChan h).m = c.m := by
  cases h <;> rfl
/-- R231: an MMA whose steps and last cycle are over ends and is counted. -/
theorem Core.m_mmaFin {c : Core} {now : Nat} {m : Mma} {ms : List Mma} (hm : c.m.mmas = m :: ms) (hs : m.steps ≤ m.fstep) (hf : m.fin ≤ now) :
    (c.mmaFin now).m = { c.m with mmas := ms, mcnt := c.m.mcnt + 1 } := by
  unfold Core.mmaFin
  rw [hm]
  dsimp only
  rw [if_pos ⟨hs, hf⟩]
  dsimp only
  rw [Core.m_releaseChan, Core.m_releaseChan]
theorem Core.mmaFin_other {c : Core} {now : Nat} {m : Mma} {ms : List Mma} (hm : c.m.mmas = m :: ms) (h : m.fstep < m.steps ∨ now < m.fin) :
    c.mmaFin now = c := by
  unfold Core.mmaFin
  rw [hm]
  exact if_neg (by omega)
/-- R231: one cycle of the one MMA that runs. -/
theorem Core.mmas_arrayCycle {c : Core} {now : Nat} {m : Mma} (hm : c.m.mmas = [m]) (hs : m.started = true) (hr : m.resume ≤ now) (hf : m.fstep < m.steps) :
    (c.arrayCycle now).m.mmas = [m.advance] := by
  have hrun : m.running now = true := by simp [Mma.running, hs, hr, hf]
  unfold Core.arrayCycle
  dsimp only
  rw [hm, List.map_singleton, if_pos hrun]
theorem State.core_setCore_ne {s : State} {n k : Nat} (h : k ≠ n) (c : Core) : (s.setCore n c).core k = s.core k := by
  rw [State.core_setCore, if_neg h]
/-- R235: MZERO on an idle array. -/
theorem State.joined_mzero {s : State} {n : Nat} (h : s.cur = .job n .M) (hm : (s.core n).m.mmas = []) :
    s.mWord 4 (s.tryMzero n) = s.jobDid n .M 4 1 fun c => { c with m := { c.m with cells := [], cellT := [] } } := by
  refine Eq.trans ?_ (State.fin_modCore h 4 1 (fun c => { c with m := { c.m with cells := [], cellT := [] } }) rfl)
  unfold State.tryMzero State.join
  rw [hm]
  split <;> rfl

end Sys2Proof.Machine
end

section
open Sys2Proof Sys2Proof.Machine

/-- Settles O30: each event writes its core alone, and what it does to the accepted MMAs stands in its own equation. -/
theorem arrayEvents : Obligations.ArrayEvents := by
  unfold Obligations.ArrayEvents
  intro s n
  refine ⟨⟨_, rfl, ⟨rfl, fun k hk => State.core_setCore_ne hk _⟩, State.core_setCore_same _ _ _⟩, fun hst => ?_, ?_, fun x y g hh hm hd => ?_⟩
  · refine ⟨_, congrArg Host.Outcome.next (if_neg (by simp [hst])), ⟨rfl, fun k hk => State.core_setCore_ne hk _⟩, State.core_setCore_same _ _ _,
      fun m hm hs hr hf => ?_⟩
    exact (congrArg (·.m.mmas) (State.core_setCore_same s n _)).trans (Core.mmas_arrayCycle hm hs hr hf)
  · exact ⟨_, rfl, ⟨rfl, fun k hk => State.core_setCore_ne hk _⟩,
      fun m ms hm hs hf => (congrArg (·.m) (State.core_setCore_same s n _)).trans (Core.m_mmaFin hm hs hf),
      fun m ms hm h => (State.core_setCore_same s n _).trans (Core.mmaFin_other hm h)⟩
  · show execJoinStart n s = _
    rw [execJoinStart, hh]
    dsimp only
    rw [hm]
    refine congrArg Host.Outcome.next ?_
    refine Eq.trans ?_ (State.joined_mzero (s := { s with cur := .job n .M }) rfl hm)
    unfold State.joinHead
    dsimp only
    have hpc : ({ s with cur := .job n .M } : State).stream (.job n .M) = (s.core n).strM := rfl
    rw [hpc, hd]
    rfl

end

section
/-! The M words and posted commands (R222 to R240). -/
namespace Sys2Proof.Machine

/-! What the array's operations leave of their core. -/

theorem Core.member_spWrite (c : Core) (a : Nat) (bs : List (Byte × Bool)) : (c.spWrite a bs).member = c.member := by
  unfold Core.spWrite
  refine foldl_induct (P := fun d : Core => d.member = c.member) (fun _ _ _ h => ?_) rfl
  exact h
theorem Core.member_spill (c : Core) (a : Nat) (bs : List (Byte × Bool)) : (c.spill a bs).member = c.member := Core.member_spWrite c a bs
theorem Core.member_takeChan (c : Core) (h : Option (Nat × Nat)) (n : Nat) : (c.takeChan h n).member = c.member := by cases h <;> rfl
theorem Core.m_takeChan (c : Core) (h : Option (Nat × Nat)) (n : Nat) : (c.takeChan h n).m = c.m := by cases h <;> rfl
theorem Core.member_mmaAccept (c : Core) (x : MmaWord) (now : Nat) : (c.mmaAccept x now).member = c.member := by
  unfold Core.mmaAccept
  exact (Core.member_takeChan _ _ _).trans (Core.member_takeChan _ _ _)
theorem Core.follow_mmaAccept (c : Core) (x : MmaWord) (now : Nat) : (c.mmaAccept x now).m.follow = c.m.follow := by
  unfold Core.mmaAccept
  dsimp only
  rw [Core.m_takeChan, Core.m_takeChan]

/-! An address of a scalar, mapped. -/

theorem bits_lt (x hi lo : Nat) : bits x hi lo < 2 ^ (hi + 1 - lo) := Nat.mod_lt _ (Nat.two_pow_pos _)
theorem mapWin_lt {w : W64} {a n y : Nat} (h : mapWin w a n = some (some y)) : y < 2 ^ 32 := by
  have hb : bits w.toNat 15 0 < 2 ^ (15 + 1 - 0) := bits_lt _ _ _
  have hz : bits w.toNat 31 16 < 2 ^ (31 + 1 - 16) := bits_lt _ _ _
  have he : ∀ p : Bool, (if p = true then 1 else 0) ≤ 1 := by decide
  unfold mapWin W64.f at h
  dsimp only at h
  have h1 := he (w.getLsbD 62)
  generalize (if w.getLsbD 62 = true then 1 else 0) = cur at h h1
  have hcur : bits w.toNat 31 16 * 64 * cur ≤ bits w.toNat 31 16 * 64 :=
    Nat.le_trans (Nat.mul_le_mul_left _ h1) (Nat.le_of_eq (Nat.mul_one _))
  have hcur' : bits w.toNat 31 16 * 64 * (1 - cur) ≤ bits w.toNat 31 16 * 64 :=
    Nat.le_trans (Nat.mul_le_mul_left _ (Nat.sub_le _ _)) (Nat.le_of_eq (Nat.mul_one _))
  split at h
  · simp at h
  · split at h
    · split at h
      · cases h; omega
      · cases h
    · split at h
      · split at h
        · cases h; omega
        · cases h
      · cases h
theorem Core.window_lt {c : Core} {a n y : Nat} (ha : a < 2 ^ 32) (h : c.window a n = some y) : y < 2 ^ 32 := by
  unfold Core.window at h
  split at h
  · cases h
  · rename_i x hx
    cases h
    exact mapWin_lt hx
  · split at h
    · cases h
    · rename_i x hx
      cases h
      exact mapWin_lt hx
    · cases h
      exact ha
theorem Core.toNat_mapped (c : Core) (x : W64) (n : Nat) : (c.mapped x n).toNat = (c.window (W64.f x 31 0) n).getD 0 := by
  unfold Core.mapped
  rw [BitVec.toNat_ofNat]
  refine Nat.mod_eq_of_lt ?_
  cases h : c.window (W64.f x 31 0) n with
  | none => decide
  | some y => exact Nat.lt_trans (Core.window_lt (bits_lt x.toNat 31 0) h) (by decide)

/-! Attempts that meet no cause. -/

theorem mCheck_ok {l : List (Bool × Nat)} (h : lowest l = 0) (k : MTry) : mCheck l k = k := if_pos h

/-- What an attempt of one engine change ends with. -/
def State.didM (s : State) (n : Nat) (f : MEng → MEng) : MTry := .done (s.modCore n fun c => { c with m := f c.m }) 1

section
variable {s : State} {n : Nat}

/-- R232. -/
theorem State.preload_done {a : F6} {y : Nat} (put : MEng → BitVec 32 → MEng) (hc : (s.core n).chanOk a = true)
    (hv : isChan a = true → ((s.core n).chan (a.toNat - 48)).avail ≠ 0) (hb : (s.core n).mmaBase a 0 % 16 = 0)
    (hw : (s.core n).window ((s.core n).mmaBase a 0) 16 = some y) : s.preload n a put = s.didM n fun m => put m (BitVec.ofNat 32 y) := by
  unfold State.preload
  refine (mCheck_ok (by simp [lowest, hc, hb, hw]) _).trans ((if_neg fun h => hv h.1 h.2).trans ?_)
  rw [hw]
  rfl
/-- R226. -/
theorem State.tryMldas_done {a : F6} (ha : sOk a = true) (h4 : (s.rs a).toNat % 4 = 0) :
    s.tryMldas n a = s.didM n fun m => { m with sca := (s.rs a).setWidth 32 } := mCheck_ok (by simp [lowest, ha, h4]) _
theorem State.tryMldbs_done {a : F6} (ha : sOk a = true) (h4 : (s.rs a).toNat % 4 = 0) :
    s.tryMldbs n a = s.didM n fun m => { m with scb := (s.rs a).setWidth 32 } := mCheck_ok (by simp [lowest, ha, h4]) _
/-- R223. -/
theorem State.tryMcfg_done {a : F6} (ha : sOk a = true) : s.tryMcfg n a = s.didM n fun m => { m with mctl := s.rs a &&& mctlMask } :=
  mCheck_ok (by simp [lowest, ha]) _
/-- R227 to R231. -/
theorem State.tryMma_done {x : MmaWord} (hx : lowest ((s.core n).mmaCauses x) = 0) (hr : (s.core n).mmaReady x = true) :
    s.tryMma n x = .done (s.modCore n fun c => c.mmaAccept x (s.now n)) 1 := (mCheck_ok hx _).trans (if_pos hr)
theorem State.tryMma_hold {x : MmaWord} (hx : lowest ((s.core n).mmaCauses x) = 0) (hr : (s.core n).mmaReady x = false) :
    s.tryMma n x = .hold s := (mCheck_ok hx _).trans (if_neg (by simp [hr]))

section
variable (hh : ∀ x y, (s.core n).strM.hold ≠ .join x y)
include hh

/-- R235: a join that has not issued checks its conditions, and runs on an idle array. -/
theorem State.join_done (hm : (s.core n).m.mmas = []) {x y : W64} {causes : W64 → W64 → List (Bool × Nat)} (hl : lowest (causes x y) = 0)
    (work : State → W64 → W64 → State × Nat) : s.join n x y causes work = .done (work s x y).1 (work s x y).2 := by
  unfold State.join
  split
  · exact absurd ‹_› (hh _ _)
  · exact (mCheck_ok hl _).trans (if_pos (by rw [hm]; rfl))
theorem State.join_hold (hm : (s.core n).m.mmas ≠ []) {x y : W64} {causes : W64 → W64 → List (Bool × Nat)} (hl : lowest (causes x y) = 0)
    (work : State → W64 → W64 → State × Nat) :
    s.join n x y causes work = .hold (s.modCore n fun c => c.setStr .M { c.str .M with hold := .join x y }) := by
  unfold State.join
  split
  · exact absurd ‹_› (hh _ _)
  · exact (mCheck_ok hl _).trans (if_neg (by simpa using hm))

variable (hm : (s.core n).m.mmas = [])
include hm

theorem State.tryMzero_done : s.tryMzero n = s.didM n fun m => { m with cells := [], cellT := [] } := State.join_done hh hm rfl _
/-- R237. -/
theorem State.tryMshift_done {d a : F6} (hd : sOk d = true) (ha : sOk a = true) (h1 : 1 ≤ (s.rs a).toNat) (h2 : (s.rs a).toNat ≤ 128)
    (h3 : (s.rs d).toNat % 512 = 0) (h4 : (s.rs d).toNat + 512 * (s.rs a).toNat ≤ 65536 * (s.core n).ag) :
    s.tryMshift n d a = .done (s.modCore n (·.shiftOut (s.rs d).toNat (s.rs a).toNat)) (s.rs a).toNat :=
  State.join_done hh hm (by simp [lowest, hd, ha, h1, h2, h3, h4]) _
/-- R238. -/
theorem State.tryMspill_done {d : F6} (hd : sOk d = true) (h16 : W64.f (s.rs d) 31 0 % 16 = 0)
    (hw : ((s.core n).window (W64.f (s.rs d) 31 0) (spillSize (s.rs d)).1).isSome = true)
    (hr : (s.rs d).getLsbD 63 = true → (W64.f (s.rs d) 47 32 + W64.f (s.rs d) 55 48 + 1) * 512 ≤ 65536 * (s.core n).ag) :
    s.tryMspill n d = .done (s.modCore n fun c =>
      c.spill (((s.core n).window (W64.f (s.rs d) 31 0) (spillSize (s.rs d)).1).getD 0) (c.spillBytes (s.rs d) (s.now n))) (spillSize (s.rs d)).2 := by
  have hrow : (!(s.rs d).getLsbD 63 || decide ((W64.f (s.rs d) 47 32 + W64.f (s.rs d) 55 48 + 1) * 512 ≤ 65536 * (s.core n).ag)) = true := by
    cases hb : (s.rs d).getLsbD 63 with
    | false => rfl
    | true => simp [hr hb]
  unfold State.tryMspill
  refine (State.join_done hh hm (by simp only [lowest, hd, h16, hw, hrow, decide_true, if_true]) _).trans ?_
  dsimp only
  rw [Core.toNat_mapped]
/-- R244. -/
theorem State.tryMfill_done {d : F6} (hd : sOk d = true) (h16 : W64.f (s.rs d) 31 0 % 16 = 0)
    (hw : ((s.core n).window (W64.f (s.rs d) 31 0) 67712).isSome = true)
    (hi : (s.core n).imageOk ((s.core n).fillImage ((s.core n).mapped (s.rs d) 67712)) = true) :
    s.tryMfill n d = .done (s.modCore n fun c => { c with m := { c.m.load ((s.core n).fillImage ((s.core n).mapped (s.rs d) 67712)) with
      mmas := (imageMmas ((s.core n).fillImage ((s.core n).mapped (s.rs d) 67712))
        (s.now n + fillTime ((s.core n).fillImage ((s.core n).mapped (s.rs d) 67712))) fun _ => 0).map fun y => { y with ach := none, bch := none } } })
      (fillTime ((s.core n).fillImage ((s.core n).mapped (s.rs d) 67712))) := by
  unfold State.tryMfill
  exact State.join_done hh hm (by simp [lowest, hd, h16, hw, hi]) _
/-- R239. -/
theorem State.tryMstat_done {d : F6} (hd : sOk d = true) :
    s.tryMstat n d = .done (s.modCore n (·.addPend (s.now n + 1) false
      (.s .M d.toNat (BitVec.ofNat 64 ((s.core n).m.mcnt.toNat + bitAt (!(s.core n).m.cellT.isEmpty) 16)) false))) 1 :=
  State.join_done hh hm (by simp [lowest, hd]) _

end
end

/-! An M word in its own place. -/

section
variable {s : State} {n : Nat} (h : s.cur = .job n .M) {g : Guard} (hg : (s.core n).guardOpen g) {t : State → Nat → MTry} (len : Nat)
include h hg

theorem State.mExec_open : s.mExec g len t = .next (s.mWord len (t s n)) := by
  rw [State.mExec, State.engineOnly_job h, State.guarded_open h hg]
theorem State.mExec_done {f : Core → Core} {k : Nat} (ht : t s n = .done (s.modCore n f) k) (hm : (f (s.core n)).member = (s.core n).member) :
    s.mExec g len t = .next (s.jobDid n .M len k f) := by
  rw [State.mExec_open h hg, ht]
  exact congrArg Host.Outcome.next (State.fin_modCore h len k f hm)
theorem State.mExec_hold {u : State} (ht : t s n = .hold u) : s.mExec g len t = .next u := by
  rw [State.mExec_open h hg, ht]
  rfl
end

/-! A posted command (R240). -/

theorem State.execMwaitf_open {s : State} {n : Nat} (h : s.cur = .job n .M) {g : Guard} (hg : (s.core n).guardOpen g) :
    exec (.mwaitf g) s = .next (s.mwaitf n) := by
  show execMwaitf g s = _
  rw [execMwaitf, State.engineOnly_job h, State.guarded_open h hg]

/-- How MWAITF ends with the attempt of the posted command. -/
def State.followRun (s : State) (n : Nat) (t : MTry) : State :=
  match t with
  | .cause c => s.cause c
  | .hold u => u
  | .done u i => (u.popFollow n).fin 4 i

section
variable {s : State} {n : Nat} {w p : W32}

/-- A posted command that may be posted: its guard, and its attempt. -/
theorem State.followCmd_may {i : Instr} {g : Guard} {len : Nat} {d : F6} (hcmd : decodeM w p = .ok i) (hi : guardedWord i = some (g, len))
    (hl : (∃ pk, i = .mlda g d pk ∨ i = .mldb g d pk) ∨ i = .mldas g d ∨ i = .mldbs g d ∨ i = .mcfg g d ∨ i = .mzero g ∨
      ∃ b pk z pr fa fb km, i = .mma g d b pk z pr fa fb km) : ∃ t, s.followCmd n w p = (g, t) := by
  unfold State.followCmd
  rw [hcmd]
  obtain ⟨pk, rfl | rfl⟩ | rfl | rfl | rfl | rfl | ⟨b, pk, z, pr, fa, fb, km, rfl⟩ := hl <;> exact ⟨_, rfl⟩
/-- R240: a word that may not be posted. -/
theorem State.followCmd_other {i : Instr} {g : Guard} {d b : F6} (hcmd : decodeM w p = .ok i)
    (hl : i = .mshift g d b ∨ i = .mspill g d ∨ i = .mfill g d ∨ i = .mstat g d ∨ i = .mwaitf g) : s.followCmd n w p = (0, .cause 10) := by
  unfold State.followCmd
  rw [hcmd]
  obtain rfl | rfl | rfl | rfl | rfl := hl <;> rfl
theorem State.followCmd_error {r : DecodeReject} (hcmd : decodeM w p = .error r) : s.followCmd n w p = (r.guard, .cause r.cause) := by
  unfold State.followCmd
  rw [hcmd]
end

theorem State.mwaitf_none {s : State} {n : Nat} (hf : (s.core n).m.follow = []) : s.mwaitf n = s := by
  unfold State.mwaitf
  rw [hf]

section
variable {s : State} {n posted : Nat} {w p : W32} {rest : List (W32 × W32 × Nat)} (hf : (s.core n).m.follow = (w, p, posted) :: rest)
include hf

theorem State.mwaitf_early (hp : s.now n ≤ posted) : s.mwaitf n = s := by
  unfold State.mwaitf
  rw [hf]
  exact if_pos hp

variable (hp : posted < s.now n)
include hp

theorem State.mwaitf_open {g : Guard} {t : MTry} (hcmd : s.followCmd n w p = (g, t)) (hg : (s.core n).guardOpen g) : s.mwaitf n = s.followRun n t := by
  unfold State.mwaitf
  rw [hf]
  dsimp only
  rw [if_neg (Nat.not_le.2 hp), hcmd]
  dsimp only
  split
  · exact if_pos (by simp)
  · obtain rfl | rfl | ⟨h1, h2⟩ := hg
    · rfl
    · rfl
    · rw [h1, h2]
      exact (congrArg (ite _ _) ((if_neg (by decide)).trans (if_pos rfl))).trans (ite_self _)

variable (hh : ∀ x y, (s.core n).strM.hold ≠ .join x y)
include hh

theorem State.mwaitf_guard {g : Guard} {t : MTry} (hcmd : s.followCmd n w p = (g, t)) (h0 : g ≠ 0) (h16 : g ≠ 16) :
    s.mwaitf n = if !(s.core n).gres.getLsbD (g.toNat % 16) then s
      else if (s.core n).gval.getLsbD (g.toNat % 16) = decide (16 ≤ g.toNat) then s.followRun n t else (s.popFollow n).fin 4 1 := by
  unfold State.mwaitf
  rw [hf]
  dsimp only
  rw [if_neg (Nat.not_le.2 hp), hcmd]
  dsimp only
  split
  · exact absurd ‹_› (hh _ _)
  · exact if_neg (by simpa using ⟨h0, h16⟩)

theorem State.mwaitf_shut {g : Guard} {t : MTry} (hcmd : s.followCmd n w p = (g, t)) (hg : (s.core n).guardShut g) :
    s.mwaitf n = (s.popFollow n).fin 4 1 := by
  obtain ⟨h0, h16, hr, hv⟩ := hg
  rw [State.mwaitf_guard hf hp hh hcmd h0 h16, hr]
  exact (if_neg (by decide)).trans (if_neg hv)
theorem State.mwaitf_unresolved {g : Guard} {t : MTry} (hcmd : s.followCmd n w p = (g, t)) (h0 : g ≠ 0) (h16 : g ≠ 16)
    (hr : (s.core n).gres.getLsbD (g.toNat % 16) = false) : s.mwaitf n = s := by
  rw [State.mwaitf_guard hf hp hh hcmd h0 h16, hr]
  rfl
end

section
variable {s : State} {n posted : Nat} {w p : W32} {rest : List (W32 × W32 × Nat)} (hf : (s.core n).m.follow = (w, p, posted) :: rest)
  (h : s.cur = .job n .M)
include hf h

/-- The posted command leaves its queue as MWAITF goes past. -/
theorem State.popFollow_fin {f : Core → Core} (hm : (f (s.core n)).member = (s.core n).member) (hfl : (f (s.core n)).m.follow = (s.core n).m.follow) (k : Nat) :
    (((s.modCore n f).popFollow n).fin 4 k) = s.jobDid n .M 4 k fun c => { f c with m := { (f c).m with follow := rest } } := by
  have he : (s.modCore n f).popFollow n = s.modCore n fun c => { f c with m := { (f c).m with follow := rest } } := by
    unfold State.popFollow State.modM
    rw [State.modCore_modCore]
    refine State.modCore_congr _ _ _ _ ?_
    dsimp only [Function.comp]
    rw [hfl, hf]
    rfl
  rw [he]
  exact State.fin_modCore h 4 k (fun c => { f c with m := { (f c).m with follow := rest } }) hm
theorem State.popFollow_alone (k : Nat) :
    (s.popFollow n).fin 4 k = s.jobDid n .M 4 k fun c => { c with m := { c.m with follow := rest } } := by
  refine (State.fin_modCore h 4 k (fun c => { c with m := { c.m with follow := c.m.follow.drop 1 } }) rfl).trans (State.jobDid_congr _ _ _ _ _ _ _ ?_)
  rw [hf]
  rfl
theorem State.followRun_done {f : Core → Core} (hm : (f (s.core n)).member = (s.core n).member) (hfl : (f (s.core n)).m.follow = (s.core n).m.follow) (k : Nat) :
    s.followRun n (.done (s.modCore n f) k) = s.jobDid n .M 4 k fun c => { f c with m := { (f c).m with follow := rest } } :=
  State.popFollow_fin hf h hm hfl k
end

end Sys2Proof.Machine
end

section
open Sys2Proof Sys2Proof.Machine

/-- Settles O29: each word's attempt meets no cause by its conditions; in its own word it goes past itself, as a posted command MWAITF takes it off. -/
theorem matrixResults : Obligations.MatrixResults := by
  unfold Obligations.MatrixResults
  refine ⟨fun s n g a p x h hg => ⟨fun y hc hv hb hw => ?_, fun ha h4 => ?_, fun ha => ?_, fun hx hcs => ?_⟩,
    fun s n g d a h hg hh => ⟨fun hm => ?_, fun hm => ?_, fun hf => ?_, fun w p posted rest hf hp => ?_, fun w p posted rest hf hp => ?_⟩⟩
  · exact ⟨State.mExec_done h hg 4 (State.preload_done _ hc hv hb hw) rfl, State.mExec_done h hg 4 (State.preload_done _ hc hv hb hw) rfl⟩
  · exact ⟨State.mExec_done h hg 4 (State.tryMldas_done ha h4) rfl, State.mExec_done h hg 4 (State.tryMldbs_done ha h4) rfl⟩
  · exact State.mExec_done h hg 4 (State.tryMcfg_done ha) rfl
  · have he : (⟨s.wordD (.job n .M), x.a, x.b, x.p, x.z, x.prof, x.fa, x.fb, x.km1⟩ : MmaWord) = x := by rw [← hx]
    refine ⟨fun hr => State.mExec_done h hg 8 ?_ (Core.member_mmaAccept _ _ _), fun hr => State.mExec_hold h hg 8 ?_⟩
    · rw [he]
      exact State.tryMma_done hcs hr
    · rw [he]
      exact State.tryMma_hold hcs hr
  · refine ⟨State.mExec_done h hg 4 (State.tryMzero_done hh hm) rfl,
      fun hd ha h1 h2 h3 h4 => State.mExec_done h hg 4 (State.tryMshift_done hh hm hd ha h1 h2 h3 h4) rfl,
      fun hd h16 hsp => ?_, fun hd h16 hw hi => State.mExec_done h hg 4 (State.tryMfill_done hh hm hd h16 hw hi) rfl,
      fun hd => State.mExec_done h hg 4 (State.tryMstat_done hh hm hd) rfl⟩
    refine (State.mExec_done h hg 4 (State.tryMspill_done hh hm hd h16 hsp.1 hsp.2) (Core.member_spill _ _ _)).trans ?_
    exact congrArg Host.Outcome.next (State.jobDid_congr _ _ _ _ _ _ _ rfl)
  · exact State.mExec_hold h hg 4 (State.join_hold hh hm rfl _)
  · exact (State.execMwaitf_open h hg).trans (congrArg Host.Outcome.next (State.mwaitf_none hf))
  · have posted_done : ∀ {pg : Guard} {f : Core → Core}, (s.core n).guardOpen pg → s.followCmd n w p = (pg, .done (s.modCore n f) 1) →
        (f (s.core n)).member = (s.core n).member → (f (s.core n)).m.follow = (s.core n).m.follow →
        exec (.mwaitf g) s = .next (s.jobDid n .M 4 1 fun c => { f c with m := { (f c).m with follow := rest } }) := fun hpg hcmd hm hfl =>
      (State.execMwaitf_open h hg).trans (congrArg Host.Outcome.next
        ((State.mwaitf_open hf hp hcmd hpg).trans (State.followRun_done hf h hm hfl 1)))
    refine ⟨fun pg hpg => ⟨fun b pk y hc hv hb hw => ⟨fun hcmd => ?_, fun hcmd => ?_⟩, fun b hb h4 => ⟨fun hcmd => ?_, fun hcmd => ?_⟩, fun b hb hcmd => ?_,
      fun hm hcmd => ?_, fun v hv hcmd hcs => ⟨fun hr => ?_, fun hr => ?_⟩, fun r hcmd hr hs => ?_⟩, fun i pg len hcmd hi hl => ?_, fun i pg b hcmd hl hs => ?_⟩
    · exact posted_done hpg (by rw [State.followCmd, hcmd]; exact congrArg _ (State.preload_done _ hc hv hb hw)) rfl rfl
    · exact posted_done hpg (by rw [State.followCmd, hcmd]; exact congrArg _ (State.preload_done _ hc hv hb hw)) rfl rfl
    · exact posted_done hpg (by rw [State.followCmd, hcmd]; exact congrArg _ (State.tryMldas_done hb h4)) rfl rfl
    · exact posted_done hpg (by rw [State.followCmd, hcmd]; exact congrArg _ (State.tryMldbs_done hb h4)) rfl rfl
    · exact posted_done hpg (by rw [State.followCmd, hcmd]; exact congrArg _ (State.tryMcfg_done hb)) rfl rfl
    · exact posted_done hpg (by rw [State.followCmd, hcmd]; exact congrArg _ (State.tryMzero_done hh hm)) rfl rfl
    · refine posted_done hpg ?_ (Core.member_mmaAccept _ _ _) (Core.follow_mmaAccept _ _ _)
      rw [State.followCmd, hcmd]
      dsimp only
      rw [← hv]
      exact congrArg _ (State.tryMma_done hcs hr)
    · refine (State.execMwaitf_open h hg).trans (congrArg Host.Outcome.next ((State.mwaitf_open hf hp (g := pg) (t := .hold s) ?_ hpg).trans rfl))
      rw [State.followCmd, hcmd]
      dsimp only
      rw [← hv]
      exact congrArg _ (State.tryMma_hold hcs hr)
    · subst hr
      exact ⟨_, (State.execMwaitf_open h hg).trans (congrArg Host.Outcome.next (State.mwaitf_open hf hp (State.followCmd_error hcmd) hpg)),
        State.trapsTo_cause h _ hs 0⟩
    · obtain ⟨t, ht⟩ := State.followCmd_may (s := s) (n := n) hcmd hi hl
      refine ⟨fun hs => (State.execMwaitf_open h hg).trans (congrArg Host.Outcome.next ?_),
        fun h0 h16 hr => (State.execMwaitf_open h hg).trans (congrArg Host.Outcome.next (State.mwaitf_unresolved hf hp hh ht h0 h16 hr))⟩
      exact (State.mwaitf_shut hf hp hh ht hs).trans (State.popFollow_alone hf h 1)
    · exact ⟨_, (State.execMwaitf_open h hg).trans (congrArg Host.Outcome.next (State.mwaitf_open hf hp (State.followCmd_other hcmd hl) (.inl rfl))),
        State.trapsTo_cause h _ hs 0⟩
  · exact (State.execMwaitf_open h hg).trans (congrArg Host.Outcome.next (State.mwaitf_early hf hp))

end

section
/-! Copies in flight: their entries, and what an element of scratchpad changes (R252 to R259). -/
namespace Sys2Proof.Machine

/-! The cycle of a core, which its group keeps. -/

theorem State.now_of {s t : State} {n : Nat} (hm : (t.core n).member = (s.core n).member) (hi : ∀ c, (t.ctx c).insts = (s.ctx c).insts) :
    t.now n = s.now n := by
  have hg : t.groupOf n = s.groupOf n := by
    unfold State.groupOf State.group? State.inst? Ctx.inst?
    rw [hm]
    split
    · rw [hi]
    · rfl
  rw [State.now, hg, State.now]
theorem State.insts_modCtx {s : State} {c : Nat} {f : Ctx → Ctx} (hf : ∀ x, (f x).insts = x.insts) (k : Nat) : ((s.modCtx c f).ctx k).insts = (s.ctx k).insts := by
  rw [State.ctx_modCtx]
  split
  · rename_i h
    rw [hf]
  · rfl

/-! A core's copies, tags and channels. -/

theorem Core.copy?_tag {c : Core} {tag : Nat} {x : Copy} (h : c.copy? tag = some x) : x.tag = tag := by
  simpa using List.find?_some h
theorem Core.copy?_setCopy {c : Core} {tag : Nat} {x y : Copy} (h : c.copy? tag = some x) (hy : y.tag = tag) : (c.setCopy y).copy? tag = some y := by
  have hmap : (c.setCopy y).copy? tag = (c.copies.map fun z => if z.tag = tag then (fun _ => y) z else z).find? (fun z => z.tag == tag) := by
    rw [← hy]
    rfl
  have hfind := List.find?_map (f := fun z => if z.tag = tag then y else z) (p := fun z : Copy => z.tag == tag) (l := c.copies)
  rw [hmap, hfind]
  have hp : ((fun z : Copy => z.tag == tag) ∘ fun z => if z.tag = tag then y else z) = fun z => z.tag == tag := by
    funext z
    dsimp only [Function.comp]
    split
    · rename_i hz
      simp [hz, hy]
    · rfl
  rw [hp]
  show Option.map _ (c.copy? tag) = _
  rw [h, Option.map_some, if_pos (Core.copy?_tag h)]
theorem Core.copy?_dropCopy (c : Core) (tag : Nat) : (c.dropCopy tag).copy? tag = none := by
  refine List.find?_eq_none.2 fun z hz => ?_
  have := (List.mem_filter.1 hz).2
  simpa using this
theorem Core.tag_setTag (c : Core) {tag : Nat} (ht : tag < 64) (x : Tag) : (c.setTag tag x).tag tag = x := by
  unfold Core.tag Core.setTag
  dsimp only
  rw [vget_setIfInBounds, if_pos ⟨rfl, by omega⟩]
theorem Core.chan_setChan (c : Core) (k : Nat) (x : Chan) : (c.setChan k x).chan k = x := by
  unfold Core.chan Core.setChan
  dsimp only
  rw [vget_setIfInBounds, if_pos ⟨rfl, Nat.mod_lt _ (by decide)⟩]

/-! An element of scratchpad. -/

/-- A state that differs in the pool of one core, in requests' traffic, and in the count of free values alone. -/
structure State.OnlyPool (s t : State) (n : Nat) : Prop where
  cores : ∀ m, m ≠ n → t.core m = s.core m
  hbm : t.hbm = s.hbm
  own : t.core n = { s.core n with pool := (t.core n).pool, poolT := (t.core n).poolT }

theorem State.OnlyPool.refl (s : State) (n : Nat) : s.OnlyPool s n := ⟨fun _ _ => rfl, rfl, rfl⟩
theorem State.OnlyPool.trans {s t u : State} {n : Nat} (h : s.OnlyPool t n) (k : t.OnlyPool u n) : s.OnlyPool u n :=
  ⟨fun m hm => (k.cores m hm).trans (h.cores m hm), k.hbm.trans h.hbm, by rw [k.own, h.own]⟩
theorem Core.spWrite_own (c : Core) (a : Nat) (bs : List (Byte × Bool)) :
    c.spWrite a bs = { c with pool := (c.spWrite a bs).pool, poolT := (c.spWrite a bs).poolT } := by
  unfold Core.spWrite
  refine foldl_induct (P := fun d : Core => d = { c with pool := d.pool, poolT := d.poolT }) (fun d k _ hd => ?_) rfl
  unfold Core.setPartT
  dsimp only
  rw [hd]

/-- What a cover of scratchpad's parts does: the taint of full parts, and the note of those that are not. -/
structure State.CoversSp (s : State) (x : Copy) (r : State × Copy) (n : Nat) : Prop where
  only : s.OnlyPool r.1 n
  pool : (r.1.core n).pool = (s.core n).pool
  copy : r.2 = { x with cover := r.2.cover }

theorem State.CoversSp.trans {s : State} {x : Copy} {r u : State × Copy} {n : Nat} (h : s.CoversSp x r n) (k : r.1.CoversSp r.2 u n) :
    s.CoversSp x u n := ⟨h.only.trans k.only, k.pool.trans h.pool, by rw [k.copy, h.copy]⟩
theorem State.coverPart_sp (s : State) (n : Nat) (x : Copy) (part : Nat) (mask : BitVec 16) (t p : Bool) :
    s.CoversSp x (s.coverPart n x 0 part mask t p) n := by
  unfold State.coverPart
  dsimp only
  split
  · exact ⟨.refl s n, rfl, rfl⟩
  · split
    · exact ⟨⟨fun m hm => by rw [State.coveredPart, State.core_modCore, if_neg hm], rfl, by rw [State.coveredPart, State.core_modCore_same]; rfl⟩,
        by rw [State.coveredPart, State.core_modCore_same]; rfl, rfl⟩
    · exact ⟨.refl s n, rfl, rfl⟩
theorem State.coverElt_sp (s : State) (n : Nat) (x : Copy) (a : Nat) (bs : List (Byte × Bool)) (p : Bool) :
    s.CoversSp x (s.coverElt n x (.sp a) bs p) n := by
  unfold State.coverElt Core.partSpace
  dsimp only
  refine foldl_induct (P := fun r => s.CoversSp x r n) (fun r k _ hr => ?_) ⟨.refl s n, rfl, rfl⟩
  exact hr.trans (r.1.coverPart_sp n r.2 _ _ _ p)

/-- R254: one element from scratchpad to scratchpad. -/
structure State.MovesSp (s : State) (x : Copy) (da sa : Nat) (m : Move) (r : State × Copy) (n : Nat) : Prop where
  only : s.OnlyPool r.1 n
  pool : (r.1.core n).pool = ((s.core n).spWrite da (((s.core n).spRead sa m.n).map fun b => (b.1, b.2 || m.idxT))).pool
  copy : r.2 = { x with cover := r.2.cover }

theorem State.moveOne_sp (s : State) (n : Nat) (x : Copy) {m : Move} {da sa : Nat} (hd : m.dst = .sp da) (hs : m.src = .sp sa) :
    s.MovesSp x da sa m (s.moveOne n x m) n := by
  unfold State.moveOne
  rw [hs, hd]
  dsimp only [State.readLoc]
  have hw : s.OnlyPool ((s.tick m.n).modCore n (·.spWrite da (((s.core n).spRead sa m.n).map fun b => (b.1, b.2 || m.idxT)))) n :=
    ⟨fun k hk => (State.core_modCore _ _ _ _).trans (if_neg hk), rfl, by rw [State.core_modCore_same]; exact Core.spWrite_own _ _ _⟩
  have hc := State.coverElt_sp ((s.tick m.n).modCore n (·.spWrite da (((s.core n).spRead sa m.n).map fun b => (b.1, b.2 || m.idxT)))) n x da
    (((s.core n).spRead sa m.n).map fun b => (b.1, b.2 || m.idxT)) false
  exact ⟨hw.trans hc.only, hc.pool.trans (congrArg (·.pool) (State.core_modCore_same _ _ _)), hc.copy⟩

/-- One element of a slot or of a copy, performed. -/
theorem State.moveAll_sp (s : State) (n : Nat) (x : Copy) {m : Move} {da sa : Nat} (hd : m.dst = .sp da) (hs : m.src = .sp sa) :
    ∃ r, s.MovesSp x da sa m r n ∧ s.moveAll n x [m] = (r.1, { r.2 with hist := r.2.hist ++ [m], done := r.2.done + 1 }, []) := by
  refine ⟨_, s.moveOne_sp n x hd hs, ?_⟩
  have hst : s.stuck n x m = false := by
    unfold State.stuck
    rw [hs]
    exact Bool.and_false _
  unfold State.moveAll
  rw [hst]
  rfl

theorem State.traffic_askCopy (s : State) (n gen : Nat) (need : Need) (srcs dsts : List Move) : s.SameButTraffic (s.askCopy n gen need srcs dsts) := by
  unfold State.askCopy
  dsimp only
  split
  · exact .rfl' s
  · exact s.traffic_requests _ _ _ _ _ _

/-- A core whose copy has claimed one more slot of its channel, at a cycle. -/
def Core.claimed (c : Core) (x : Copy) (ch : Chan) (now : Nat) (sl : CopySlot) : Core :=
  ({ (c.setChan x.chan ch) with seq := c.seq + 1 }).setCopy
    { x with claimed := x.claimed + 1, nextClaim := now + cdiv x.slotSize 64, slots := x.slots ++ [sl] }

/-! The events of a copy (R252, R254, R258, R259, R480). -/

section
variable {s : State} {n tag : Nat} {x : Copy} (hx : (s.core n).copy? tag = some x)
include hx

theorem State.completeCopy_eq : s.completeCopy n tag = if x.ripe (s.now n) ∧ (s.core n).foRoom x then
    (if x.form = .xfetchTry then s.endTry n x false false else s.endCopy n x false false) else s := by
  unfold State.completeCopy
  rw [hx]
/-- R254: the one element left of an affine copy within scratchpad. -/
theorem State.copyMoves_sp {m : Move} {da sa k : Nat} (hf : x.form = .xcopy) (hw : x.waitTier = []) (hfell : x.fell = none) (hsl : x.slots = [])
    (hm : x.moves = [m]) (hd : m.dst = .sp da) (hs : m.src = .sp sa) (hk : 0 < k) :
    ∃ r, s.MovesSp { x with moves := [] } da sa m r n ∧
      s.copyMoves n tag k = r.1.modCore n fun c => c.setCopy { r.2 with hist := r.2.hist ++ [m], done := r.2.done + 1, moves := [] } := by
  obtain ⟨r, hr, he⟩ := s.moveAll_sp n { x with moves := [] } hd hs
  refine ⟨r, hr, ?_⟩
  have hl : s.copyLinked x = true := by simp [State.copyLinked, hm, hsl, hd, hs, hf, Loc.phys?, CopyForm.isColl]
  have hmay : x.mayMove = true := by simp [Copy.mayMove, hw, hfell, hf, CopyForm.isColl]
  obtain ⟨k, rfl⟩ : ∃ j, k = j + 1 := ⟨k - 1, by omega⟩
  unfold State.copyMoves
  rw [hx]
  dsimp only
  rw [if_neg (by simp [hf, CopyForm.isSlot, hl]), if_neg (by simp [hf, CopyForm.isColl]), hx]
  dsimp only
  rw [if_neg (by simp [hmay]), hm]
  rw [List.take_succ_cons, List.take_nil, List.drop_succ_cons, List.drop_nil, he]
  rfl

theorem State.fillReserve_slot (hf : x.form = .xfill) (hc : x.claimed < x.nslots) (ht : x.nextClaim ≤ s.now n) (hfree : 0 < ((s.core n).chan x.chan).free) :
    ∃ sl, (s.setCore n ((s.core n).claimed x (((s.core n).chan x.chan).reserve (s.core n).seq) (s.now n) sl)).SameButTraffic (s.fillReserve n tag) := by
  unfold State.fillReserve
  dsimp only
  rw [hx]
  dsimp only
  rw [if_pos ⟨hf, hc, ht, hfree⟩]
  exact ⟨_, State.traffic_askCopy _ _ _ _ _ _⟩
theorem State.drainTake_slot (hf : x.form = .xdrain) (hc : x.claimed < x.nslots) (ht : x.nextClaim ≤ s.now n) (hfree : 0 < ((s.core n).chan x.chan).avail) :
    ∃ sl, (s.setCore n ((s.core n).claimed x (((s.core n).chan x.chan).take 1) (s.now n) sl)).SameButTraffic (s.drainTake n tag) := by
  unfold State.drainTake
  dsimp only
  rw [hx]
  dsimp only
  rw [if_pos ⟨hf, hc, ht, hfree⟩]
  exact ⟨_, State.traffic_askCopy _ _ _ _ _ _⟩
theorem State.fillLand_sp {sl : CopySlot} {rest : List CopySlot} {m : Move} {da sa : Nat} (hf : x.form = .xfill) (hsl : x.slots = sl :: rest)
    (ht : sl.claimed + x.slotLat ≤ s.now n) (hm : sl.moves = [m]) (hd : m.dst = .sp da) (hs : m.src = .sp sa) :
    ∃ r, s.MovesSp { x with slots := rest } da sa m r n ∧ s.fillLand n tag = r.1.modCore n fun c =>
      (c.setChan x.chan ((c.chan x.chan).land sl.seq sl.epoch)).setCopy { r.2 with hist := r.2.hist ++ [m], done := x.done + 1 } := by
  obtain ⟨r, hr, he⟩ := s.moveAll_sp n { x with slots := rest } hd hs
  refine ⟨r, hr, ?_⟩
  unfold State.fillLand
  rw [hx]
  dsimp only
  rw [hsl]
  dsimp only
  rw [if_pos ⟨hf, ht⟩, hm, he]
/-- R259: the one slot of a drain, read and released; what then leaves its slots changes no channel. -/
theorem State.drainRelease_sp {sl : CopySlot} {m : Move} {da sa : Nat} (hf : x.form = .xdrain) (hsl : x.slots = [sl]) (hrel : sl.released = false)
    (ht : sl.claimed + cdiv x.slotSize 64 ≤ s.now n) (hm : sl.moves = [m]) (hd : m.dst = .sp da) (hs : m.src = .sp sa) :
    ∃ y r g, s.MovesSp y da sa m r n ∧ (∀ c, (g c).chans = c.chans) ∧
      s.drainRelease n tag = (r.1.modCore n fun c => (c.setChan x.chan ((c.chan x.chan).release 1 sl.epoch)).setCopy
        { r.2 with hist := r.2.hist ++ [m], done := x.done }).modCore n g := by
  have hfind : ([sl].find? fun z => !z.released && decide (z.claimed + cdiv x.slotSize 64 ≤ s.now n)) = some sl := by simp [hrel, ht]
  unfold State.drainRelease
  rw [hx]
  dsimp only
  rw [if_neg (by simp [hf]), hsl, hfind]
  dsimp only
  rw [hm]
  obtain ⟨r, hr, he⟩ := s.moveAll_sp n
    { x with slots := [sl].map fun (z : CopySlot) => if z.seq = sl.seq then { z with released := true } else z } hd hs
  rw [he]
  refine ⟨_, r, _, hr, fun c => ?_, rfl⟩
  split <;> rfl
/-- R480. -/
theorem State.lateCause_kept {cause va : Nat} (hf : x.form ≠ .xfetchTry) (hc : x.cause = some (cause, va)) (hr : x.ripe (s.now n) = true) :
    s.lateCause n tag = s.raiseLanding n .X cause va := by
  have hfb : s.fallsBack n x = none := if_pos hf
  unfold State.lateCause
  rw [hx]
  dsimp only
  rw [hc, hfb]
  exact if_pos (by simp [hr, Core.foRoom, hc])
theorem State.lateCause_none (hc : x.cause = none) : s.lateCause n tag = s := by
  unfold State.lateCause
  rw [hx]
  dsimp only
  rw [hc]
end

end Sys2Proof.Machine
end

section
/-! How a copy ends (R252, R253, R260, R267). -/
namespace Sys2Proof.Machine

theorem NSet.has_add (l : NSet) (k j : Nat) : NSet.has (NSet.add l k) j = (k == j || NSet.has l j) := by
  induction l with
  | nil => rfl
  | cons x l ih =>
    unfold NSet.add
    split
    · rename_i h
      subst h
      simp [NSet.has]
    · split
      · rfl
      · have hx : NSet.has (x :: NSet.add l k) j = (x == j || NSet.has (NSet.add l k) j) := rfl
        rw [hx, ih, Bool.or_left_comm]
        rfl

/-- R252: the tag of a copy that ends is ready, and the copy is gone. -/
theorem State.core_endCopy (s : State) (n : Nat) (x : Copy) (fb abs : Bool) {tag : Nat} (hx : x.tag = tag) (ht : tag < 64) :
    ((s.endCopy n x fb abs).core n).copy? tag = none ∧
      ((s.endCopy n x fb abs).core n).tag tag = { infl := false, fb := fb, abs := abs, readyAt := s.now n } := by
  subst hx
  unfold State.endCopy
  dsimp only
  rw [State.core_modCore_same]
  have hc := (s.core n).copy?_dropCopy x.tag
  have hg := ((s.core n).dropCopy x.tag).tag_setTag ht { infl := false, fb := fb, abs := abs, readyAt := s.now n }
  have both : ∀ c : Core, c.copies = ((s.core n).dropCopy x.tag).copies →
      c.tags = (((s.core n).dropCopy x.tag).setTag x.tag { infl := false, fb := fb, abs := abs, readyAt := s.now n }).tags →
      c.copy? x.tag = none ∧ c.tag x.tag = { infl := false, fb := fb, abs := abs, readyAt := s.now n } := by
    intro c h1 h2
    unfold Core.copy? Core.tag
    rw [h1, h2]
    exact ⟨hc, hg⟩
  split <;> split <;> exact both _ rfl rfl
theorem State.core_endCopy_ne (s : State) (n : Nat) (x : Copy) (fb abs : Bool) {m : Nat} (hm : m ≠ n) : (s.endCopy n x fb abs).core m = s.core m :=
  (State.core_modCore _ _ _ _).trans (if_neg hm)

theorem State.hbm_endCopy (s : State) (n : Nat) (x : Copy) (fb abs : Bool) : (s.endCopy n x fb abs).hbm = s.hbm := rfl
theorem State.hbmT_endCopy (s : State) (n : Nat) (x : Copy) (fb abs : Bool) : (s.endCopy n x fb abs).hbmT = s.hbmT := rfl

/-! The fallback of an XFETCH.TRY (R267, R268). -/

/-- The part of its destination that an element of a fetch taints as it falls back. -/
def State.taintDst (n : Nat) (s : State) (m : Move) : State :=
  match m.dst with
  | .sp a => s.modCore n fun c => c.setPartT ((c.spBase + a) / 16) true
  | .cm _ (.hbm d _) _ => { s with hbmT := s.hbmT.add (d / 16) }
  | .cm _ (.peer dev a) _ => s.setPeerTaint (peerKey dev a / 16) true
  | _ => s
theorem State.endTry_fallback {s : State} {n : Nat} {x : Copy} {abs : Bool} (hm : (s.ctx (s.cxnOf (.job n .X))).trail.mode = 0) :
    s.endTry n x true abs = ((x.hist ++ x.moves).foldl (State.taintDst n) (s.perf (s.cxnOf (.job n .X)) 10 1)).endCopy n { x with cause := none } true abs := by
  unfold State.endTry
  dsimp only
  rw [State.gate_off hm]
  rfl
theorem State.taintDst_keeps (n : Nat) (s : State) (m : Move) :
    (s.taintDst n m).hbm = s.hbm ∧ (s.taintDst n m).ctxs = s.ctxs ∧ ((s.taintDst n m).core n).member = (s.core n).member := by
  unfold State.taintDst
  split
  · exact ⟨rfl, rfl, by rw [State.core_modCore_same]; rfl⟩
  all_goals exact ⟨rfl, rfl, rfl⟩
theorem State.taintDst_has (n : Nat) (s : State) (m : Move) (k : Nat) (h : s.hbmT.has k = true) : (s.taintDst n m).hbmT.has k = true := by
  unfold State.taintDst
  split
  · exact h
  · exact (NSet.has_add _ _ _).trans (by rw [h, Bool.or_true])
  all_goals exact h
theorem State.taintDst_own (n : Nat) (s : State) (m : Move) : ∀ va d leaf det, m.dst = .cm va (.hbm d leaf) det → (s.taintDst n m).hbmT.has (d / 16) = true := by
  intro va d leaf det hd
  unfold State.taintDst
  rw [hd]
  exact (NSet.has_add _ _ _).trans (by rw [beq_self_eq_true, Bool.true_or])

theorem State.now_taintDst (n : Nat) (s : State) (l : List Move) : (l.foldl (State.taintDst n) s).now n = s.now n := by
  refine State.now_of (foldl_keeps (P := fun t : State => (t.core n).member) (fun t m => (t.taintDst_keeps n m).2.2) _ _) fun c => ?_
  have hc : (l.foldl (State.taintDst n) s).ctxs = s.ctxs := foldl_keeps (P := State.ctxs) (fun t m => (t.taintDst_keeps n m).2.1) _ _
  rw [State.ctx, hc, State.ctx]
theorem State.now_perf (s : State) (c i k n : Nat) : (s.perf c i k).now n = s.now n :=
  State.now_of rfl (State.insts_modCtx (f := fun c => { c with perf := _ }) fun _ => rfl)
theorem State.fetchAnswer_off {s : State} {n : Nat} {x : Copy} (hm : (s.ctx (s.cxnOf (.job n .X))).trail.mode = 0) : s.fetchAnswer n x = none :=
  if_neg (by rw [hm]; decide)

section
variable {s : State} {n tag : Nat} {x : Copy} {abs : Bool} (hx : (s.core n).copy? tag = some x) (hf : x.form = .xfetchTry) (hfell : x.fell = some abs)
  (hm : (s.ctx (s.cxnOf (.job n .X))).trail.mode = 0)
include hx hf hfell hm

theorem State.tryFallback_eq : s.tryFallback n tag = (s.modCore n (·.setCopy x)).endTry n x true abs := by
  have hm1 : ((s.modCore n (·.setCopy x)).ctx ((s.modCore n (·.setCopy x)).cxnOf (.job n .X))).trail.mode = 0 := by
    rw [State.cxnOf_modCore _ _ _ _ rfl, State.ctx_modCore, hm]
  have hun : s.unfall n x = x := by
    unfold State.unfall
    rw [State.fetchAnswer_off hm, hfell]
    cases abs <;> rfl
  have hfb : (s.modCore n (·.setCopy x)).fallsBack n x = some abs := by
    unfold State.fallsBack
    rw [if_neg (by simp [hf]), State.fetchAnswer_off hm1, hfell]
  unfold State.tryFallback
  rw [hx]
  dsimp only
  rw [hun, hfb]
/-- R267: the tag is ready with FB and ABS, memory keeps its bytes, and every part of the destination in local HBM is tainted. -/
theorem State.tryFallback_ends (ht : tag < 64) :
    ((s.tryFallback n tag).core n).copy? tag = none ∧
      ((s.tryFallback n tag).core n).tag tag = { infl := false, fb := true, abs := abs, readyAt := s.now n } ∧ (s.tryFallback n tag).hbm = s.hbm ∧
      ∀ m ∈ x.hist ++ x.moves, ∀ va d leaf det, m.dst = .cm va (.hbm d leaf) det → (s.tryFallback n tag).hbmT.has (d / 16) = true := by
  have hm1 : ((s.modCore n (·.setCopy x)).ctx ((s.modCore n (·.setCopy x)).cxnOf (.job n .X))).trail.mode = 0 := by
    rw [State.cxnOf_modCore _ _ _ _ rfl, State.ctx_modCore, hm]
  rw [State.tryFallback_eq hx hf hfell hm, State.endTry_fallback hm1]
  have hmem : ((s.modCore n (·.setCopy x)).core n).member = (s.core n).member := by
    rw [State.core_modCore_same]
    rfl
  have hsame : (s.modCore n (·.setCopy x)).hbm = s.hbm ∧ (s.modCore n (·.setCopy x)).ctxs = s.ctxs := ⟨rfl, rfl⟩
  generalize s.modCore n (·.setCopy x) = v at hmem hsame
  have hxt : x.tag = tag := Core.copy?_tag hx
  obtain ⟨hcopy, htag⟩ := State.core_endCopy ((x.hist ++ x.moves).foldl (State.taintDst n) (v.perf (v.cxnOf (.job n .X)) 10 1)) n
    { x with cause := none } true abs hxt ht
  refine ⟨hcopy, htag.trans ?_, (State.hbm_endCopy _ _ _ _ _).trans ?_, fun m hmem => ?_⟩
  · rw [State.now_taintDst, State.now_perf, State.now_of hmem fun c => by rw [State.ctx, hsame.2, State.ctx]]
  · rw [foldl_keeps (P := State.hbm) (fun t m => (t.taintDst_keeps n m).1)]
    exact hsame.1
  · rw [State.hbmT_endCopy]
    exact foldl_establishes (P := fun (t : State) (m : Move) => ∀ va d leaf det, m.dst = .cm va (.hbm d leaf) det → t.hbmT.has (d / 16) = true)
      (fun t m => t.taintDst_own n m) (fun t m m' h va d leaf det hd => t.taintDst_has n m _ (h va d leaf det hd)) _ _ m hmem
end

end Sys2Proof.Machine
end

section
open Sys2Proof Sys2Proof.Machine

/-- Settles O33: an element of scratchpad changes the pool of its core alone; a slot's claim, landing and release set its channel and the copy's entry. -/
theorem copyEvents : Obligations.CopyEvents := by
  unfold Obligations.CopyEvents
  intro s n tag x ht hx
  have htag := Core.copy?_tag hx
  refine ⟨fun hf hc hfo => ⟨fun hr => ?_, fun hr => ?_⟩, fun m da sa k hf hw hfell hsl hm hd hs hk => ?_, fun hf hc hn hfree => ?_, fun hf hc hn hfree => ?_,
    fun sl rest m da sa hf hsl hn hm hd hs => ?_, fun sl m da sa hf hsl hrel hn hm hd hs => ?_, fun abs hf hfell hmode => ?_, fun cause va hf hc hr => ?_, fun hc => ?_⟩
  · have he : s.completeCopy n tag = s.endCopy n x false false :=
      (State.completeCopy_eq hx).trans ((if_pos ⟨hr, by simp [Core.foRoom, hfo]⟩).trans (if_neg hf))
    obtain ⟨hcopy, hready⟩ := s.core_endCopy n x false false htag ht
    exact ⟨_, congrArg Host.Outcome.next he, ⟨fun m hm => s.core_endCopy_ne n x false false hm, rfl⟩, hcopy, hready⟩
  · exact congrArg Host.Outcome.next ((State.completeCopy_eq hx).trans (if_neg (by simp [hr])))
  · obtain ⟨r, hr, he⟩ := State.copyMoves_sp hx hf hw hfell hsl hm hd hs hk
    refine ⟨_, congrArg Host.Outcome.next he, ⟨fun j hj => ?_, hr.only.hbm⟩, ⟨r.2.cover, ?_⟩, ?_⟩
    · rw [State.core_modCore, if_neg hj, hr.only.cores j hj]
    · rw [State.core_modCore_same, hr.copy]
      exact Core.copy?_setCopy (x := x) (by rw [hr.only.own]; exact hx) htag
    · rw [State.core_modCore_same]
      exact hr.pool
  · obtain ⟨sl, hsl⟩ := State.fillReserve_slot hx hf hc hn hfree
    refine ⟨_, rfl, ⟨fun j hj => ?_, hsl.hbm⟩, ?_, { x with claimed := x.claimed + 1, nextClaim := s.now n + cdiv x.slotSize 64, slots := x.slots ++ [sl] }, ?_, rfl, rfl⟩
    · exact (hsl.core j).trans (State.core_setCore_ne hj _)
    · show ((s.fillReserve n tag).core n).chan x.chan = _
      rw [hsl.core, State.core_setCore_same]
      exact Core.chan_setChan _ _ _
    · show ((s.fillReserve n tag).core n).copy? tag = _
      rw [hsl.core, State.core_setCore_same]
      exact Core.copy?_setCopy (x := x) hx htag
  · obtain ⟨sl, hsl⟩ := State.drainTake_slot hx hf hc hn hfree
    refine ⟨_, rfl, ⟨fun j hj => ?_, hsl.hbm⟩, ?_, { x with claimed := x.claimed + 1, nextClaim := s.now n + cdiv x.slotSize 64, slots := x.slots ++ [sl] }, ?_, rfl, rfl⟩
    · exact (hsl.core j).trans (State.core_setCore_ne hj _)
    · show ((s.drainTake n tag).core n).chan x.chan = _
      rw [hsl.core, State.core_setCore_same]
      exact Core.chan_setChan _ _ _
    · show ((s.drainTake n tag).core n).copy? tag = _
      rw [hsl.core, State.core_setCore_same]
      exact Core.copy?_setCopy (x := x) hx htag
  · obtain ⟨r, hr, he⟩ := State.fillLand_sp hx hf hsl hn hm hd hs
    refine ⟨_, congrArg Host.Outcome.next he, ⟨fun j hj => ?_, hr.only.hbm⟩, ?_, { r.2 with hist := r.2.hist ++ [m], done := x.done + 1 }, ?_, ?_, rfl⟩
    · rw [State.core_modCore, if_neg hj, hr.only.cores j hj]
    · rw [State.core_modCore_same, hr.only.own]
      exact Core.chan_setChan _ _ _
    · rw [State.core_modCore_same]
      exact Core.copy?_setCopy (x := x) (by rw [hr.only.own]; exact hx) (by rw [hr.copy]; exact htag)
    · rw [hr.copy]
  · obtain ⟨y, r, g, hr, hg, he⟩ := State.drainRelease_sp hx hf hsl hrel hn hm hd hs
    refine ⟨_, congrArg Host.Outcome.next he, ⟨fun j hj => ?_, hr.only.hbm⟩, ?_⟩
    · rw [State.core_modCore, if_neg hj, State.core_modCore, if_neg hj, hr.only.cores j hj]
    · rw [State.core_modCore_same, State.core_modCore_same, Core.chan, hg, hr.only.own]
      exact Core.chan_setChan _ _ _
  · exact ⟨_, rfl, State.tryFallback_ends hx hf hfell hmode ht⟩
  · exact congrArg Host.Outcome.next (State.lateCause_kept hx hf hc hr)
  · exact congrArg Host.Outcome.next (State.lateCause_none hx hc)

end

section
/-! Copies issue (R251 to R254). -/
namespace Sys2Proof.Machine

/-! Conditions in turn. -/

theorem lowest_append {l r : List (Bool × Nat)} (hl : lowest l = 0) (hr : lowest r = 0) : lowest (l ++ r) = 0 := by
  induction l with
  | nil => exact hr
  | cons x l ih =>
    obtain ⟨ok, c⟩ := x
    cases ok with
    | true => exact ih hl
    | false =>
      simp only [lowest, Bool.false_eq_true, if_false, List.cons_append] at hl ⊢
      split at hl
      · subst hl
        simp
      · rename_i h
        exact absurd (Or.inl hl) h
theorem lowest_cons_ok {b : Bool} {c : Nat} {l : List (Bool × Nat)} (hb : b = true) (hl : lowest l = 0) : lowest ((b, c) :: l) = 0 := by
  rw [lowest, if_pos hb, hl]
theorem isChan_of_sOk {f : F6} (h : sOk f = true) : isChan f = false := by
  unfold sOk at h
  unfold isChan
  simp only [decide_eq_true_eq] at h
  simp only [decide_eq_false_iff_not]
  omega
/-- R251, R252: a copy whose conditions and footprint are good goes on. -/
theorem State.issueCopy_ok {s : State} {early late : List (Bool × Nat)} {foot : Foot} (he : lowest early = 0) (hl : lowest late = 0) (hf : foot.fine)
    (go : State → State) : s.issueCopy early late foot go = go s := by
  unfold State.issueCopy
  rw [if_neg (fun h => h.1 he), hf.1, hf.2]
  exact if_neg (fun h => h (lowest_append he hl))

/-! The traffic of a copy leaves the groups of its context. -/

theorem State.ctxs_llcAccess (s : State) (a n : Nat) (w : Bool) : (s.llcAccess a n w).1.ctxs = s.ctxs := by
  obtain ⟨l, p, q, h⟩ := s.llcAccess_only a n w
  rw [h]
theorem State.ctxs_llcTouch (s : State) (p : Phys) (n : Nat) (w : Bool) : (s.llcTouch p n w).1.ctxs = s.ctxs := by
  unfold State.llcTouch
  split
  · split
    · rfl
    · exact State.ctxs_llcAccess _ _ _ _
  · refine foldl_keeps_fst (P := State.ctxs) (fun t a => ?_) _ _
    exact State.ctxs_llcAccess _ _ _ _
  · rfl
theorem State.ctxs_llcServe (s : State) (l : List (Phys × Nat × Bool)) : (s.llcServe l).1.ctxs = s.ctxs := by
  refine foldl_keeps_fst (P := State.ctxs) (fun t a => ?_) _ _
  exact State.ctxs_llcTouch _ _ _ _
theorem State.insts_perf (s : State) (d i k c : Nat) : ((s.perf d i k).ctx c).insts = (s.ctx c).insts := by
  obtain ⟨p, hp⟩ := s.ctx_perf d i k c
  rw [hp]
theorem State.ctx_tick (s : State) (k c : Nat) : (s.tick k).ctx c = s.ctx c := rfl
theorem State.insts_walk (s : State) (cxn gen : Nat) (vas : List Nat) (c : Nat) : ((s.walk cxn gen vas).1.ctx c).insts = (s.ctx c).insts := by
  unfold State.walk
  dsimp only
  rw [State.ctx_tick]
  refine State.insts_modCtx ?_ c
  exact fun _ => rfl
theorem State.insts_requests (s : State) (ag : Agent) (gen : Nat) (vas : List Nat) (need : Need) (l : List (Nat × Dest)) (touch : List (Phys × Nat × Bool))
    (c : Nat) : ((s.requests ag gen vas need l touch).ctx c).insts = (s.ctx c).insts := by
  have hw := s.insts_walk (s.cxnOf ag) gen vas c
  unfold State.requests
  dsimp only
  split
  · exact hw
  · rw [State.ctx_tick, State.insts_perf]
    refine (State.insts_modCtx ?_ c).trans ?_
    · exact fun _ => rfl
    · rw [State.ctx, State.ctxs_llcServe]
      exact hw
theorem State.insts_askCopy (s : State) (n gen : Nat) (need : Need) (srcs dsts : List Move) (c : Nat) :
    ((s.askCopy n gen need srcs dsts).ctx c).insts = (s.ctx c).insts := by
  unfold State.askCopy
  dsimp only
  split
  · rfl
  · exact State.insts_requests _ _ _ _ _ _ _ _

/-! A copy in flight that its stream has yet to go past. -/

/-- A state in which the copy of a tag has begun: in flight with its form and due cycle, and nothing else of the job changed. -/
structure State.CopyStarted (s u : State) (n tag : Nat) (form : CopyForm) (lat : Nat) : Prop where
  copy : ∃ x, (u.core n).copy? tag = some x ∧ x.form = form ∧ x.issue = s.now n ∧ x.due = s.now n + lat
  infl : ((u.core n).tag tag).infl = true
  strX : (u.core n).strX = (s.core n).strX
  stop : (u.core n).stop = (s.core n).stop
  member : (u.core n).member = (s.core n).member
  hbm : u.hbm = s.hbm
  others : ∀ m, m ≠ n → u.core m = s.core m
  cur : u.cur = s.cur
  insts : ∀ c, (u.ctx c).insts = (s.ctx c).insts

section
variable {s u : State} {n tag : Nat} {form : CopyForm} {lat : Nat} (h : s.CopyStarted u n tag form lat)
include h

theorem State.CopyStarted.traffic {v : State} (ht : u.SameButTraffic v) (hi : ∀ c, (v.ctx c).insts = (u.ctx c).insts) : s.CopyStarted v n tag form lat :=
  ⟨by rw [ht.core]; exact h.copy, by rw [ht.core]; exact h.infl, by rw [ht.core]; exact h.strX, by rw [ht.core]; exact h.stop,
    by rw [ht.core]; exact h.member, ht.hbm.trans h.hbm, fun m hm => (ht.core m).trans (h.others m hm), ht.cur.trans h.cur, fun c => (hi c).trans (h.insts c)⟩
/-- The copy's stream goes past its word. -/
theorem State.CopyStarted.issued (hcur : s.cur = .job n .X) (len k : Nat) : s.copyIssued (u.fin len k) n .X tag form lat len k := by
  have hnow : u.now n = s.now n := State.now_of h.member h.insts
  rw [State.fin_job (h.cur.trans hcur)]
  have hcore : (u.jobDid n .X len k id).core n = (u.core n).past .X (s.now n) len k := by
    rw [State.core_jobDid, hnow]
    rfl
  refine ⟨?_, ?_, ?_, ?_, ?_, h.hbm, fun m hm => (State.core_setCore_ne hm _).trans (h.others m hm)⟩
  · rw [hcore]
    exact h.copy
  · rw [hcore]
    exact h.infl
  · rw [hcore]
    show ((u.core n).strX.advance len).pc = _
    rw [h.strX]
    rfl
  · rw [hcore]
    rfl
  · rw [hcore]
    exact h.stop
end

theorem State.traffic_disownLines (s : State) (n tag : Nat) : s.SameButTraffic (s.disownLines n tag) := s.traffic_modCtx _ _
theorem State.insts_disownLines (s : State) (n tag c : Nat) : ((s.disownLines n tag).ctx c).insts = (s.ctx c).insts := by
  unfold State.disownLines
  refine State.insts_modCtx ?_ c
  exact fun _ => rfl
/-- R252, R253: a copy that has met no cause is in flight under its tag. -/
theorem State.startCopy_started {s : State} {n lat : Nat} {x : Copy} (ht : x.tag < 2 ^ 6) (hc : (s.core n).copy? x.tag = none) (hi : x.issue = s.now n)
    (hd : x.due = s.now n + lat) : s.CopyStarted (s.startCopy n x) n x.tag x.form lat := by
  have hfind : (s.core n).copies.find? (fun y => y.tag == x.tag) = none := hc
  have h1 : s.CopyStarted (s.modCore n fun c =>
      { (c.setTag x.tag { infl := true, fb := false, abs := false, readyAt := 0 }) with copies := c.copies ++ [x] }) n x.tag x.form lat := by
    refine ⟨⟨x, ?_, rfl, hi, hd⟩, ?_, ?_, ?_, ?_, rfl, fun m hm => State.core_setCore_ne hm _, rfl, fun _ => rfl⟩ <;> rw [State.core_modCore_same]
    · show ((s.core n).copies ++ [x]).find? _ = _
      rw [List.find?_append, hfind]
      simp
    · exact congrArg Tag.infl ((s.core n).tag_setTag ht _)
    all_goals rfl
  have h2 := h1.traffic (State.traffic_disownLines _ n x.tag) (State.insts_disownLines _ n x.tag)
  unfold State.startCopy
  dsimp only
  split
  · exact h2.traffic (State.traffic_askCopy _ _ _ _ _ _) (State.insts_askCopy _ _ _ _ _ _)
  · exact h2

section
variable {s u : State} {n tag : Nat} {form : CopyForm} {lat : Nat} (h : s.CopyStarted u n tag form lat)
include h

/-- The first slot of a fill or a drain, claimed as it issues, leaves its form and due cycle. -/
theorem State.CopyStarted.claimed {x : Copy} (hx : (u.core n).copy? tag = some x) (ch : Chan) (now : Nat) (sl : CopySlot) :
    s.CopyStarted (u.setCore n ((u.core n).claimed x ch now sl)) n tag form lat := by
  obtain ⟨y, hy, hform, hissue, hdue⟩ := h.copy
  obtain rfl : y = x := Option.some.inj (hy.symm.trans hx)
  have hy' : y.tag = tag := Core.copy?_tag hx
  refine ⟨⟨{ y with claimed := y.claimed + 1, nextClaim := now + cdiv y.slotSize 64, slots := y.slots ++ [sl] }, ?_, hform, hissue, hdue⟩,
    ?_, ?_, ?_, ?_, h.hbm, fun m hm => (State.core_setCore_ne hm _).trans (h.others m hm), h.cur, h.insts⟩
  all_goals rw [State.core_setCore_same]
  · exact Core.copy?_setCopy (x := y) hx hy'
  · exact h.infl
  · exact h.strX
  · exact h.stop
  · exact h.member
theorem State.CopyStarted.fillReserve : s.CopyStarted (u.fillReserve n tag) n tag form lat := by
  obtain ⟨x, hx, -⟩ := h.copy
  unfold State.fillReserve
  dsimp only
  rw [hx]
  dsimp only
  split
  · exact (h.claimed hx _ _ _).traffic (State.traffic_askCopy _ _ _ _ _ _) (State.insts_askCopy _ _ _ _ _ _)
  · exact h
theorem State.CopyStarted.drainTake : s.CopyStarted (u.drainTake n tag) n tag form lat := by
  obtain ⟨x, hx, -⟩ := h.copy
  unfold State.drainTake
  dsimp only
  rw [hx]
  dsimp only
  split
  · exact (h.claimed hx _ _ _).traffic (State.traffic_askCopy _ _ _ _ _ _) (State.insts_askCopy _ _ _ _ _ _)
  · exact h
end

/-! An X word (R249 to R262). -/

theorem State.xExec_open {s : State} {n : Nat} (h : s.cur = .job n .X) {g : Guard} (hg : (s.core n).guardOpen g) (len : Nat) (f : State → Nat → State) :
    s.xExec g len f = .next (f s n) := by
  rw [State.xExec, State.engineOnly_job h, State.guarded_open h hg]

/-! The affine forms: 0 a copy, 1 a fill, 2 a drain (R255 to R259). -/

/-- The operands of an affine form. -/
structure AffWord where
  kind : Nat
  d : F6
  a : F6
  b : F6
  tag : BitVec 6
  ndm1 : Nat
  es : Nat
  f : Nat
  due : Nat

section
variable (y : AffWord) (s : State) (n : Nat) (desc : BitVec 512)

def AffWord.chan : Nat := if y.kind = 1 then y.d.toNat - 48 else y.a.toNat - 48
def AffWord.width : Nat := [1, 2, 4, 16].getD y.es 1
def AffWord.total : Nat := affTotal desc (y.ndm1 + 1) y.width
def AffWord.dst : Option End := if y.kind = 1 then none else some (copyEnd (s.rs y.d))
def AffWord.src : Option End := if y.kind = 2 then none else some (copyEnd (s.rs y.a))
def AffWord.form : CopyForm := if y.kind = 0 then .xcopy else if y.kind = 1 then .xfill else .xdrain
/-- Its fields name channels where the form has one, and scalars else. -/
def AffWord.fields : Bool := decide (isChan y.d = decide (y.kind = 1)) && decide (isChan y.a = decide (y.kind = 2)) && sOk y.b
/-- Its conditions that the elements do not enter into. -/
def AffWord.early : List (Bool × Nat) :=
  let counts := decide (0 < y.total desc) && decide (y.total desc ≤ 2 ^ 24)
  [(y.fields, 10), (counts, 10), (decide (y.f = 0) || followOk (BitVec.ofNat 32 (descNat desc 48 4)), 10)] ++
    (if y.kind ≠ 0 ∧ y.fields ∧ counts then (s.core n).chanConds y.chan (y.total desc) else []) ++
    [((y.kind == 1 || (copyEnd (s.rs y.d)).ok) && (y.kind == 2 || (copyEnd (s.rs y.a)).ok), 16)]
def AffWord.elts : List Elt := affElts desc (y.ndm1 + 1) y.width (y.dst s) (y.src s)
def AffWord.foot : Foot :=
  if lowest (y.early s n desc) = 0 ∨ 16 < lowest (y.early s n desc) then s.footprint n accCopyRead (y.elts s desc) else .empty
def AffWord.lat : Nat :=
  if y.kind = 0 then max y.due (max (y.foot s n desc).src (y.foot s n desc).dst + cdiv (y.total desc) 64)
  else max y.due ((if y.kind = 1 then (y.foot s n desc).src else (y.foot s n desc).dst) + cdiv ((s.core n).chan y.chan).size 64)
/-- The copy as it is in flight. -/
def AffWord.copy : Copy :=
  { mkCopy y.tag.toNat y.form (s.genOf s.cur) (s.now n) (xWord (y.kind + 1) y.d y.a y.b 0)
      (BitVec.ofNat 32 (0xE0000000 + y.tag.toNat * 2 ^ 22 + y.ndm1 * 2 ^ 20 + y.es * 2 ^ 18 + y.f * 2 ^ 17 + y.due)) (s.rs y.d) (s.rs y.a) (s.rs y.b) desc with
    due := s.now n + y.lat s n desc, slotLat := y.lat s n desc, moves := (y.foot s n desc).moves.reverse
    fo := if y.f = 0 then none else some (BitVec.ofNat 32 (descNat desc 48 4), BitVec.ofNat 32 (descNat desc 52 4))
    chan := y.chan, slotSize := if y.kind = 0 then 0 else ((s.core n).chan y.chan).size
    nslots := if y.kind = 0 then 0 else y.total desc / ((s.core n).chan y.chan).size }
/-- A fill or a drain claims its first slot as it issues. -/
def AffWord.claim (t : State) : State := if y.kind = 1 then t.fillReserve n y.tag.toNat else if y.kind = 2 then t.drainTake n y.tag.toNat else t

theorem AffWord.affine_goes {y : AffWord} {s : State} {n : Nat} {desc : BitVec 512} (hdesc : (s.core n).descriptor (s.rs y.b) 64 = some desc)
    (he : lowest (y.early s n desc) = 0) (hal : affAligned desc (y.ndm1 + 1) y.width (y.dst s) (y.src s) = true)
    (hinfl : ((s.core n).tag y.tag.toNat).infl = false) (hfine : (y.foot s n desc).fine) :
    s.affine n y.kind y.d y.a y.b y.tag y.ndm1 y.es y.f y.due = (y.claim n (s.startCopy n (y.copy s n desc))).fin 8 2 := by
  have hl : lowest [(affAligned desc (y.ndm1 + 1) y.width (y.dst s) (y.src s), 24), (!((s.core n).tag y.tag.toNat).infl, 46)] = 0 :=
    lowest_cons_ok hal (lowest_cons_ok (by rw [hinfl]; rfl) rfl)
  unfold State.affine
  dsimp only
  rw [hdesc]
  exact State.issueCopy_ok (early := y.early s n desc) (foot := y.foot s n desc) he hl hfine _
/-- An affine form that meets no cause issues. -/
theorem AffWord.issues (y : AffWord) {s : State} {n : Nat} {desc : BitVec 512} (h : s.cur = .job n .X)
    (hdesc : (s.core n).descriptor (s.rs y.b) 64 = some desc) (he : lowest (y.early s n desc) = 0)
    (hal : affAligned desc (y.ndm1 + 1) y.width (y.dst s) (y.src s) = true) (hinfl : ((s.core n).tag y.tag.toNat).infl = false)
    (hfree : (s.core n).copy? y.tag.toNat = none) (hfine : (s.footprint n accCopyRead (y.elts s desc)).fine) :
    s.copyIssued (s.affine n y.kind y.d y.a y.b y.tag y.ndm1 y.es y.f y.due) n .X y.tag.toNat y.form (y.lat s n desc) 8 2 := by
  have hfoot : y.foot s n desc = s.footprint n accCopyRead (y.elts s desc) := if_pos (.inl he)
  rw [AffWord.affine_goes hdesc he hal hinfl (hfoot ▸ hfine)]
  have hst := State.startCopy_started (s := s) (n := n) (lat := y.lat s n desc) (x := y.copy s n desc) y.tag.isLt hfree rfl rfl
  refine State.CopyStarted.issued ?_ h 8 2
  unfold AffWord.claim
  split
  · exact hst.fillReserve
  · split
    · exact hst.drainTake
    · exact hst
end

theorem AffWord.early_ok {y : AffWord} {s : State} {n : Nat} {desc : BitVec 512} (hfields : y.fields = true) (hpos : 0 < y.total desc)
    (hmax : y.total desc ≤ 2 ^ 24) (hf : y.f = 0 ∨ followOk (BitVec.ofNat 32 (descNat desc 48 4)) = true)
    (hch : y.kind = 0 ∨ lowest ((s.core n).chanConds y.chan (y.total desc)) = 0) (hd : y.kind = 1 ∨ (copyEnd (s.rs y.d)).ok = true)
    (ha : y.kind = 2 ∨ (copyEnd (s.rs y.a)).ok = true) : lowest (y.early s n desc) = 0 := by
  have hends : ((y.kind == 1 || (copyEnd (s.rs y.d)).ok) && (y.kind == 2 || (copyEnd (s.rs y.a)).ok)) = true := by
    simpa using And.intro hd ha
  unfold AffWord.early
  dsimp only
  refine lowest_append (lowest_append (lowest_cons_ok hfields (lowest_cons_ok (by rw [decide_eq_true hpos, decide_eq_true hmax]; rfl) (lowest_cons_ok (by simpa using hf) rfl))) ?_)
    (lowest_cons_ok hends rfl)
  split
  · rename_i h
    exact hch.resolve_left h.1
  · rfl

/-- The latency of an affine form over its footprint. -/
def AffWord.latOver (y : AffWord) (s : State) (n : Nat) (desc : BitVec 512) (foot : Foot) : Nat :=
  if y.kind = 0 then max y.due (max foot.src foot.dst + cdiv (y.total desc) 64)
  else max y.due ((if y.kind = 1 then foot.src else foot.dst) + cdiv ((s.core n).chan y.chan).size 64)
/-- An affine form whose fields, descriptor, channel and ends are good issues, at its latency over what it moves. -/
theorem AffWord.issues_over (y : AffWord) {s : State} {n : Nat} {desc : BitVec 512} (h : s.cur = .job n .X)
    (hdesc : (s.core n).descriptor (s.rs y.b) 64 = some desc) (he : lowest (y.early s n desc) = 0)
    (hal : affAligned desc (y.ndm1 + 1) y.width (y.dst s) (y.src s) = true)
    (hfr : ((s.core n).tag y.tag.toNat).infl = false ∧ (s.core n).copy? y.tag.toNat = none) (hfine : (s.footprint n accCopyRead (y.elts s desc)).fine) :
    s.copyIssued (s.affine n y.kind y.d y.a y.b y.tag y.ndm1 y.es y.f y.due) n .X y.tag.toNat y.form
      (y.latOver s n desc (s.footprint n accCopyRead (y.elts s desc))) 8 2 := by
  have hfoot : y.foot s n desc = s.footprint n accCopyRead (y.elts s desc) := if_pos (.inl he)
  have hi := y.issues h hdesc he hal hfr.1 hfr.2 hfine
  rw [AffWord.lat, hfoot] at hi
  exact hi

/-! Gathers and scatters (R261, R262). -/

section
variable (s : State) (n : Nat) (gath : Bool) (d a b : F6) (desc : BitVec 512)

/-- Bytes of an index. -/
def idxBytes : Nat := if descNat desc 16 1 = 0 then 2 else 4
/-- The fields of a gather's descriptor are in their ranges. -/
def idxSane : Bool :=
  decide (1 ≤ descNat desc 4 4) && decide (descNat desc 4 4 ≤ 65536) && decide (4 ≤ descNat desc 8 4) && decide (descNat desc 8 4 ≤ 65536) &&
    decide (descNat desc 8 4 % 4 = 0) && decide (descNat desc 16 1 ≤ 1) && decide (descNat desc 4 4 * descNat desc 8 4 ≤ 2 ^ 24)
def State.idxEarly : List (Bool × Nat) :=
  [(sOk d && sOk a && sOk b, 10), (idxSane desc, 10), ((copyEnd (s.rs d)).ok && (copyEnd (s.rs a)).ok, 16)]
def State.idxBase : Option Nat := (s.core n).window (descNat desc 0 4) (descNat desc 4 4 * idxBytes desc)
/-- The index list at an address, each with its taint. -/
def State.idxList (base : Nat) : List (Nat × Bool) :=
  (List.range (descNat desc 4 4)).map fun q =>
    let l := (s.core n).spSeen .X (base + q * idxBytes desc) (idxBytes desc)
    (leNat (bytesOf l), taintOf l)
def State.idxLate : List (Bool × Nat) :=
  [(decide (descNat desc 0 4 % 4 = 0), 24), (!idxSane desc || (s.idxBase n desc).isSome, 24),
    (decide ((copyEnd (s.rs d)).addr % 4 = 0) && decide ((copyEnd (s.rs a)).addr % 4 = 0) && decide (descNat desc 12 4 % 4 = 0), 24),
    (!((s.core n).tag (descNat desc 17 1 % 64)).infl, 46)]
/-- The words it moves, for its index list. -/
def State.idxFoot (xs : List (Nat × Bool)) : Foot :=
  s.footprint n accCopyRead (idxElts gath (copyEnd (s.rs d)) (copyEnd (s.rs a)) (descNat desc 8 4) (descNat desc 12 4) (2 ^ (8 * idxBytes desc) - 1) xs)
/-- The latency of a gather or a scatter over its footprint. -/
def idxLat (foot : Foot) : Nat :=
  max (descNat desc 20 4) (max (max foot.src foot.dst) 4 + cdiv (descNat desc 4 4) 16 + cdiv (descNat desc 4 4 * descNat desc 8 4) 64)
def State.idxCopy (foot : Foot) : Copy :=
  { mkCopy (descNat desc 17 1 % 64) (if gath then .xgath else .xscat) (s.genOf s.cur) (s.now n) (xWord (if gath then 4 else 5) d a b 0) 0 (s.rs d) (s.rs a)
      (s.rs b) desc with
    due := s.now n + idxLat desc foot, moves := foot.moves.reverse }
end

theorem idxSane_ok {desc : BitVec 512} (h1 : 1 ≤ descNat desc 4 4) (h2 : descNat desc 4 4 ≤ 65536) (h3 : 4 ≤ descNat desc 8 4)
    (h4 : descNat desc 8 4 ≤ 65536) (h5 : descNat desc 8 4 % 4 = 0) (h6 : descNat desc 16 1 ≤ 1) (h7 : descNat desc 4 4 * descNat desc 8 4 ≤ 2 ^ 24) :
    idxSane desc = true := by
  unfold idxSane
  rw [decide_eq_true h1, decide_eq_true h2, decide_eq_true h3, decide_eq_true h4, decide_eq_true h5, decide_eq_true h6, decide_eq_true h7]
  rfl
theorem State.idxEarly_ok {s : State} {d a b : F6} {desc : BitVec 512} (hd : sOk d = true) (ha : sOk a = true) (hb : sOk b = true)
    (hsane : idxSane desc = true) (hde : (copyEnd (s.rs d)).ok = true) (hae : (copyEnd (s.rs a)).ok = true) : lowest (s.idxEarly d a b desc) = 0 :=
  lowest_cons_ok (by rw [hd, ha, hb]; rfl) (lowest_cons_ok hsane (lowest_cons_ok (by rw [hde, hae]; rfl) rfl))
theorem State.idxLate_ok {s : State} {n : Nat} {d a : F6} {desc : BitVec 512} (h4 : descNat desc 0 4 % 4 = 0) (hd : (copyEnd (s.rs d)).addr % 4 = 0)
    (ha : (copyEnd (s.rs a)).addr % 4 = 0) (hstr : descNat desc 12 4 % 4 = 0) (hinfl : ((s.core n).tag (descNat desc 17 1 % 64)).infl = false)
    {base : Nat} (hbase : s.idxBase n desc = some base) : lowest (s.idxLate n d a desc) = 0 :=
  lowest_cons_ok (decide_eq_true h4) (lowest_cons_ok (by rw [hbase]; exact Bool.or_true _)
    (lowest_cons_ok (by rw [decide_eq_true hd, decide_eq_true ha, decide_eq_true hstr]; rfl) (lowest_cons_ok (by rw [hinfl]; rfl) rfl)))

theorem State.indexed_issues {s : State} {n : Nat} (h : s.cur = .job n .X) {gath : Bool} {d a b : F6} {desc : BitVec 512}
    (hdesc : (s.core n).descriptor (s.rs b) 32 = some desc) (hsane : idxSane desc = true) (he : lowest (s.idxEarly d a b desc) = 0)
    (hl : lowest (s.idxLate n d a desc) = 0) {base : Nat} (hbase : s.idxBase n desc = some base)
    (hfree : (s.core n).copy? (descNat desc 17 1 % 64) = none) (hfine : (s.idxFoot n gath d a desc (s.idxList n desc base)).fine) :
    s.copyIssued (s.indexed n gath d a b) n .X (descNat desc 17 1 % 64) (if gath then .xgath else .xscat)
      (idxLat desc (s.idxFoot n gath d a desc (s.idxList n desc base))) 4 1 := by
  have hxs : (if idxSane desc = true ∧ (s.idxBase n desc).isSome = true then s.idxList n desc ((s.idxBase n desc).getD 0) else []) = s.idxList n desc base := by
    rw [if_pos ⟨hsane, by rw [hbase]; rfl⟩, hbase]
    rfl
  have hfoot : (if lowest (s.idxEarly d a b desc) = 0 then s.idxFoot n gath d a desc
      (if idxSane desc = true ∧ (s.idxBase n desc).isSome = true then s.idxList n desc ((s.idxBase n desc).getD 0) else []) else Foot.empty) =
      s.idxFoot n gath d a desc (s.idxList n desc base) := by
    rw [if_pos he, hxs]
  have hst := State.startCopy_started (s := s) (n := n) (lat := idxLat desc (s.idxFoot n gath d a desc (s.idxList n desc base)))
    (x := s.idxCopy n gath d a b desc (s.idxFoot n gath d a desc (s.idxList n desc base))) (Nat.mod_lt _ (by decide)) hfree rfl rfl
  have hgo : s.indexed n gath d a b = (s.startCopy n (s.idxCopy n gath d a b desc (s.idxFoot n gath d a desc (s.idxList n desc base)))).fin 4 1 := by
    rw [← hfoot] at hfine ⊢
    unfold State.indexed
    dsimp only
    rw [hdesc]
    exact State.issueCopy_ok (early := s.idxEarly d a b desc) (late := s.idxLate n d a desc) he hl hfine _
  rw [hgo]
  exact State.CopyStarted.issued hst h 4 1

end Sys2Proof.Machine
end

section
open Sys2Proof Sys2Proof.Machine

/-- Settles O31: each copy's conditions hold one by one, so that it starts over its footprint; a fill or a drain then claims its first slot. -/
theorem copiesIssue : Obligations.CopiesIssue := by
  unfold Obligations.CopiesIssue
  intro s n g d a b tag nd es f due desc h hg hb
  refine ⟨fun hdesc hf hpos hmax hfr => ⟨fun hd ha hde hae hal hfine => ?_, fun hd ha hae hal hch hfine => ?_, fun hd ha hde hal hch hfine => ?_⟩,
    fun hdesc hd ha hde hae h1 h2 h3 h4 h5 h6 h7 h8 h9 h10 h11 hfr base hbase => ?_⟩
  · have he := AffWord.early_ok (y := ⟨0, d, a, b, tag, nd.toNat, es.toNat, f.toNat, due.toNat⟩) (s := s) (n := n) (desc := desc)
      (by simp [AffWord.fields, isChan_of_sOk hd, isChan_of_sOk ha, hb]) hpos hmax (hf.imp (congrArg BitVec.toNat) id) (.inl rfl) (.inr hde) (.inr hae)
    exact ⟨_, State.xExec_open h hg 8 _, AffWord.issues_over ⟨0, d, a, b, tag, nd.toNat, es.toNat, f.toNat, due.toNat⟩ h hdesc he hal hfr hfine⟩
  · have he := AffWord.early_ok (y := ⟨1, d, a, b, tag, nd.toNat, es.toNat, f.toNat, due.toNat⟩) (s := s) (n := n) (desc := desc)
      (by simp [AffWord.fields, hd, isChan_of_sOk ha, hb]) hpos hmax (hf.imp (congrArg BitVec.toNat) id) (.inr hch) (.inl rfl) (.inr hae)
    exact ⟨_, State.xExec_open h hg 8 _, AffWord.issues_over ⟨1, d, a, b, tag, nd.toNat, es.toNat, f.toNat, due.toNat⟩ h hdesc he hal hfr hfine⟩
  · have he := AffWord.early_ok (y := ⟨2, d, a, b, tag, nd.toNat, es.toNat, f.toNat, due.toNat⟩) (s := s) (n := n) (desc := desc)
      (by simp [AffWord.fields, ha, isChan_of_sOk hd, hb]) hpos hmax (hf.imp (congrArg BitVec.toNat) id) (.inr hch) (.inr hde) (.inl rfl)
    exact ⟨_, State.xExec_open h hg 8 _, AffWord.issues_over ⟨2, d, a, b, tag, nd.toNat, es.toNat, f.toNat, due.toNat⟩ h hdesc he hal hfr hfine⟩
  · have hsane := idxSane_ok h1 h2 h3 h4 h5 h6 h7
    have he := State.idxEarly_ok (s := s) hd ha hb hsane hde hae
    have hl := State.idxLate_ok (s := s) (n := n) h8 h9 h10 h11 hfr.1 hbase
    refine ⟨fun hfine => ⟨_, State.xExec_open h hg 4 _, ?_⟩, fun hfine => ⟨_, State.xExec_open h hg 4 _, ?_⟩⟩
    · exact State.indexed_issues (gath := true) h hdesc hsane he hl hbase hfr.2 hfine
    · exact State.indexed_issues (gath := false) h hdesc hsane he hl hbase hfr.2 hfine

end

section
/-! Footprints of which every place translates (R251). -/
namespace Sys2Proof.Machine

/-- A footprint that found nothing wrong, and no end in a decoded view. -/
def Foot.clean (f : Foot) : Prop := f.fine ∧ f.view = false

theorem Foot.clean_empty : Foot.empty.clean := ⟨⟨rfl, rfl⟩, rfl⟩
theorem Foot.bad_note (f : Foot) (c va : Nat) (r : Option FaultRec) : (f.note c va r).bad ≠ none := by
  unfold Foot.note
  split
  · split
    · exact Option.some_ne_none _
    · rename_i h _
      rw [h]
      exact Option.some_ne_none _
  · exact Option.some_ne_none _

/-- A place of n bytes within one page that translates to no view. -/
def State.placeGood (s : State) (n : Nat) (k : Access) (p : Place) : Prop :=
  ∀ va, p = .cm va → ∃ ph det ipa l, s.translate (s.cxnOf (.job n .X)) (s.genOf (.job n .X)) va k = .ok ph det ipa l ∧ ph.isView = false
/-- A place that lies within one page. -/
def Place.inPage (p : Place) (len : Nat) : Prop := ∀ va, p = .cm va → (va + len - 1) / 65536 ≤ va / 65536

section
variable (s : State) (n : Nat) (k : Access) (w : Bool) {len : Nat} {p : Place} (hp : p.inPage len) (f : Foot)
include hp

/-- R251: an end of one element joins a clean footprint exactly when its place translates. -/
theorem State.footEnd_clean : (s.footEnd n k w len p f).2.clean ↔ f.clean ∧ s.placeGood n k p := by
  cases p with
  | sp a =>
    have hg : s.placeGood n k (.sp a) := fun va h => nomatch h
    unfold State.footEnd
    dsimp only
    cases w <;> exact ⟨fun h => ⟨h, hg⟩, fun h => h.1⟩
  | st o =>
    have hg : s.placeGood n k (.st o) := fun va h => nomatch h
    unfold State.footEnd
    dsimp only
    cases w <;> exact ⟨fun h => ⟨h, hg⟩, fun h => h.1⟩
  | cm va =>
    have hpast : s.footPast n k len va f = f := if_pos (hp va rfl)
    unfold State.footEnd
    dsimp only
    rw [hpast]
    constructor
    · intro h
      cases htr : s.translate (s.cxnOf (.job n .X)) (s.genOf (.job n .X)) va k with
      | ok ph det ipa l =>
        rw [htr] at h
        have hc : f.fine ∧ (f.view || ph.isView) = false := by
          dsimp only at h
          split at h <;> cases w <;> exact h
        obtain ⟨hfine, hview⟩ := hc
        obtain ⟨hf, hph⟩ := Bool.or_eq_false_iff.1 hview
        exact ⟨⟨hfine, hf⟩, fun va' hva => by cases hva; exact ⟨ph, det, ipa, l, htr, hph⟩⟩
      | fault c r =>
        rw [htr] at h
        exact absurd h.1.2 (f.bad_note c va r)
      | poison d =>
        rw [htr] at h
        exact absurd h.1.1 (Option.some_ne_none d)
    · rintro ⟨⟨hfine, hview⟩, hg⟩
      obtain ⟨ph, det, ipa, l, htr, hph⟩ := hg va rfl
      rw [htr]
      have hc : f.fine ∧ (f.view || ph.isView) = false := ⟨hfine, by rw [hview, hph]; rfl⟩
      dsimp only
      split <;> cases w <;> exact hc
end

/-- An element of which both ends lie within their page and translate. -/
def State.eltGood (s : State) (n : Nat) (rd : Access) (e : Elt) : Prop := s.placeGood n accCopyWrite e.dst ∧ s.placeGood n rd e.src
def Elt.inPage (e : Elt) : Prop := e.dst.inPage e.n ∧ e.src.inPage e.n

theorem Foot.foldl_clean_iff {α : Type} {step : Foot → α → Foot} {good : α → Prop} {l : List α} (h : ∀ f, ∀ e ∈ l, (step f e).clean ↔ f.clean ∧ good e) (f : Foot) :
    (l.foldl step f).clean ↔ f.clean ∧ ∀ e ∈ l, good e := by
  induction l generalizing f with
  | nil => simp
  | cons e l ih =>
    rw [List.foldl_cons, ih (fun f e he => h f e (List.mem_cons_of_mem _ he)), h f e List.mem_cons_self, List.forall_mem_cons]
    exact and_assoc
/-- R251: a footprint is clean exactly when every place of its elements translates to no view. -/
theorem State.footprint_clean_iff (s : State) (n : Nat) (rd : Access) {es : List Elt} (hes : ∀ e ∈ es, e.inPage) :
    (s.footprint n rd es).clean ↔ ∀ e ∈ es, s.eltGood n rd e := by
  refine (Foot.foldl_clean_iff (good := s.eltGood n rd) (fun f e he => ?_) .empty).trans (and_iff_right Foot.clean_empty)
  have hd := s.footEnd_clean n accCopyWrite true (hes e he).1 f
  have hs := s.footEnd_clean n rd false (hes e he).2 (s.footEnd n accCopyWrite true e.n e.dst f).2
  exact (hs.trans (and_congr_left' hd)).trans and_assoc

/-! The bytes of an end of a collective (R78, R254). -/

theorem Place.inPage_sp (a len : Nat) : (Place.sp a).inPage len := fun va h => nomatch h
theorem End.at_inPage_one (e : End) (i : Int) : (e.at i).inPage 1 := by
  intro va _
  omega
/-- Whole elements of a power of two at an aligned address lie within their page. -/
theorem End.at_inPage {e : End} {w : Nat} (hw : w = 1 ∨ w = 2 ∨ w = 4 ∨ w = 8) (ha : e.addr % w = 0) (k : Nat) : (e.at (w * k : Nat)).inPage w := by
  cases e with
  | sp a => exact Place.inPage_sp _ _
  | bad => exact Place.inPage_sp _ _
  | cm a =>
    intro va hva
    simp only [End.addr] at ha
    simp only [End.at, Place.cm.injEq] at hva
    obtain ⟨j, hj⟩ : ∃ j, va = w * j := by
      rcases hw with rfl | rfl | rfl | rfl
      · exact ⟨va, (Nat.one_mul _).symm⟩
      · exact ⟨va / 2, by omega⟩
      · exact ⟨va / 4, by omega⟩
      · exact ⟨va / 8, by omega⟩
    rcases hw with rfl | rfl | rfl | rfl <;> omega

/-- The bytes of an end, one by one. -/
def byteElts (e : End) (total : Nat) (dst : Bool) : List Elt :=
  (List.range total).map fun (k : Nat) => { dst := if dst then e.at k else .sp 0, src := if dst then .sp 0 else e.at k, n := 1, idxT := false }
theorem byteElts_inPage (e : End) (total : Nat) (dst : Bool) : ∀ x ∈ byteElts e total dst, x.inPage := by
  intro x hx
  obtain ⟨k, -, rfl⟩ := List.mem_map.1 hx
  cases dst
  · exact ⟨Place.inPage_sp _ _, e.at_inPage_one k⟩
  · exact ⟨e.at_inPage_one k, Place.inPage_sp _ _⟩
theorem collElts_inPage {e : End} {w : Nat} (hw : w = 1 ∨ w = 2 ∨ w = 4 ∨ w = 8) (total : Nat) (dst : Bool) : ∀ x ∈ collElts e w total dst, x.inPage := by
  intro x hx
  obtain ⟨k, -, rfl⟩ := List.mem_map.1 hx
  have hat : (e.at ((if e.addr % w = 0 then w else 1) * k : Nat)).inPage (if e.addr % w = 0 then w else 1) := by
    split
    · exact End.at_inPage hw ‹_› k
    · exact e.at_inPage_one _
  cases dst
  · exact ⟨Place.inPage_sp _ _, hat⟩
  · exact ⟨hat, Place.inPage_sp _ _⟩
/-- Each element of a collective's end stands where one of its bytes does. -/
theorem collElts_places {e : End} {w : Nat} (hw : 0 < w) {total : Nat} {dst : Bool} : ∀ x ∈ collElts e w total dst,
    ∃ y ∈ byteElts e total dst, y.dst = x.dst ∧ y.src = x.src := by
  intro x hx
  obtain ⟨k, hk, rfl⟩ := List.mem_map.1 hx
  have hu : 0 < (if e.addr % w = 0 then w else 1) := by split <;> omega
  generalize (if e.addr % w = 0 then w else 1) = u at hk hu
  have hlt : u * k < total := by
    have h1 : k + 1 ≤ total / u := List.mem_range.1 hk
    have h2 := (Nat.le_div_iff_mul_le hu).1 h1
    rw [Nat.add_mul, Nat.one_mul, Nat.mul_comm] at h2
    omega
  exact ⟨_, List.mem_map.2 ⟨u * k, List.mem_range.2 hlt, rfl⟩, rfl, rfl⟩
/-- R263: where the bytes of an end translate one by one, so do its elements. -/
theorem State.footprint_collElts {s : State} {n : Nat} {e : End} {w total : Nat} (hw : w = 1 ∨ w = 2 ∨ w = 4 ∨ w = 8) {dst : Bool}
    (h : (s.footprint n accCopyRead (byteElts e total dst)).clean) : (s.footprint n accCopyRead (collElts e w total dst)).clean := by
  refine (s.footprint_clean_iff n accCopyRead (collElts_inPage hw total dst)).2 fun x hx => ?_
  obtain ⟨y, hy, hd, hs⟩ := collElts_places (by omega) x hx
  have hg := (s.footprint_clean_iff n accCopyRead (byteElts_inPage e total dst)).1 h y hy
  rw [State.eltGood, hd, hs] at hg
  exact hg

end Sys2Proof.Machine
end

section
/-! The rank table of a collective (R263). -/
namespace Sys2Proof.Machine

/-- The pieces of a range: the first ends with the range or with its part, and the others are those of what is left. -/
theorem pieces_cons {a n : Nat} (hn : 0 < n) : pieces a n = (a, min n (16 - a % 16)) :: pieces (a + min n (16 - a % 16)) (n - min n (16 - a % 16)) := by
  have hhead : min (a + n) (a / 16 * 16 + 16) - a = min n (16 - a % 16) := by omega
  rw [pieces, partOffsets, if_neg (by omega), List.range_succ_eq_map, List.map_cons, List.map_cons, List.map_map, List.map_map, if_pos rfl, Nat.add_zero, hhead]
  refine congrArg _ ?_
  by_cases hfit : n ≤ 16 - a % 16
  · rw [Nat.min_eq_left hfit, Nat.sub_self, show (a + n - 1) / 16 - a / 16 = 0 by omega]
    rfl
  · have hm : min n (16 - a % 16) = 16 - a % 16 := Nat.min_eq_right (by omega)
    rw [hm, pieces, partOffsets, if_neg (by omega), List.map_map,
      show (a + (16 - a % 16) + (n - (16 - a % 16)) - 1) / 16 - (a + (16 - a % 16)) / 16 + 1 = (a + n - 1) / 16 - a / 16 by omega]
    refine List.map_congr_left fun i _ => ?_
    dsimp only [Function.comp]
    rw [if_neg (Nat.succ_ne_zero i)]
    split
    · subst_vars
      exact Prod.ext (by dsimp only; omega) (by dsimp only; omega)
    · exact Prod.ext (by dsimp only; omega) (by dsimp only; omega)

/-- Pieces that follow each other from an address, and cover n bytes. -/
def follows : Nat → Nat → List (Nat × Nat) → Prop
  | _, n, [] => n = 0
  | a, n, (b, m) :: l => b = a ∧ m ≤ n ∧ follows (a + m) (n - m) l

theorem follows_pieces (a n : Nat) : follows a n (pieces a n) := by
  induction n using Nat.strongRecOn generalizing a with
  | _ n ih =>
    by_cases hn : n = 0
    · subst hn
      rfl
    · rw [pieces_cons (by omega)]
      exact ⟨rfl, Nat.min_le_left _ _, ih _ (by omega) _⟩

/-! What a piece of the table reads. -/

section
variable (s : State) (n seed : Nat)

def State.rankPiece (p : Nat × Nat × Phys) : List (Byte × Bool) := (s.readLoc n 3 (seed + p.1 % 2 ^ 25) (.cm p.1 p.2.2 false) p.2.1).1
/-- The byte of the table at an address. -/
def State.rankByte (ps : List (Nat × Nat × Phys)) (a : Nat) : Option Byte :=
  (ps.find? fun p => decide (p.1 ≤ a) && decide (a < p.1 + p.2.1)).bind fun p => ((s.rankPiece n seed p)[a - p.1]?).map Prod.fst
theorem State.length_rankPiece (p : Nat × Nat × Phys) : (s.rankPiece n seed p).length = p.2.1 := by
  unfold State.rankPiece State.readLoc
  dsimp only
  split
  · simp [tainted, State.freeBytes]
  · simp
theorem State.rankEntry_eq (ps : List (Nat × Nat × Phys)) (a : Nat) : s.rankEntry n seed ps a =
    if ((List.range 8).filterMap fun k => s.rankByte n seed ps (a + k)).length = 8 then
      some (leNat ((List.range 8).filterMap fun k => s.rankByte n seed ps (a + k)) % 2 ^ 40) else none := rfl
/-- All bytes of the table, in order. -/
def State.rankBytesAll (ps : List (Nat × Nat × Phys)) : List Byte := ps.flatMap fun p => bytesOf (s.rankPiece n seed p)
theorem State.rankRead_fst (ps : List (Nat × Nat × Phys)) : (s.rankRead n seed ps).1 =
    (List.range ((s.rankBytesAll n seed ps).length / 8)).map fun k => leNat (((s.rankBytesAll n seed ps).drop (8 * k)).take 8) % 2 ^ 40 := by
  unfold State.rankRead State.rankBytesAll
  dsimp only
  rw [List.flatMap_map]
  rfl

theorem State.rankBytesAll_get {ps : List (Nat × Nat × Phys)} {a m : Nat} (h : follows a m (ps.map fun p => (p.1, p.2.1))) :
    (s.rankBytesAll n seed ps).length = m ∧ ∀ j, j < m → (s.rankBytesAll n seed ps)[j]? = s.rankByte n seed ps (a + j) := by
  induction ps generalizing a m with
  | nil =>
    obtain rfl : m = 0 := h
    exact ⟨rfl, fun j hj => absurd hj (Nat.not_lt_zero j)⟩
  | cons p l ih =>
    obtain ⟨hp, hle, hl⟩ := h
    obtain ⟨hlen, hget⟩ := ih hl
    have hpl : (bytesOf (s.rankPiece n seed p)).length = p.2.1 := by rw [bytesOf, List.length_map, State.length_rankPiece]
    have hall : s.rankBytesAll n seed (p :: l) = bytesOf (s.rankPiece n seed p) ++ s.rankBytesAll n seed l := rfl
    rw [hall]
    refine ⟨by rw [List.length_append, hpl, hlen]; omega, fun j hj => ?_⟩
    unfold State.rankByte
    rw [List.find?_cons]
    by_cases hjp : j < p.2.1
    · rw [List.getElem?_append_left (by rw [hpl]; exact hjp)]
      have hin : (decide (p.1 ≤ a + j) && decide (a + j < p.1 + p.2.1)) = true := by simp; omega
      rw [hin]
      dsimp only
      rw [Option.bind_some, show a + j - p.1 = j by omega, bytesOf, List.getElem?_map]
    · rw [List.getElem?_append_right (by rw [hpl]; omega), hpl, hget _ (by omega)]
      have hout : (decide (p.1 ≤ a + j) && decide (a + j < p.1 + p.2.1)) = false := by simp; omega
      rw [hout, show a + p.2.1 + (j - p.2.1) = a + j by omega]
      rfl
end

/-- Numbers looked up one by one are the stretch of the list where they stand. -/
theorem filterMap_range_of_get {α : Type} {l : List α} {f : Nat → Option α} {m k : Nat} (hf : ∀ j, j < k → f j = l[m + j]?) (hk : m + k ≤ l.length) :
    (List.range k).filterMap f = (l.drop m).take k := by
  induction k with
  | zero => simp
  | succ k ih =>
    rw [List.range_succ, List.filterMap_append, ih (fun j hj => hf j (by omega)) (by omega), List.take_add_one, List.getElem?_drop]
    refine congrArg _ ?_
    rw [List.filterMap_cons, hf k (by omega)]
    cases l[m + k]? <;> rfl
/-- R263: the entry of a rank, read alone, is that of the table. -/
theorem State.rankEntry_getD {s : State} {n seed : Nat} {ps : List (Nat × Nat × Phys)} {a nr r : Nat} (h : follows a (8 * nr) (ps.map fun p => (p.1, p.2.1)))
    (hr : r < nr) : s.rankEntry n seed ps (a + 8 * r) = some ((s.rankRead n seed ps).1.getD r 0) := by
  obtain ⟨hlen, hget⟩ := s.rankBytesAll_get n seed h
  have hf : (List.range 8).filterMap (fun k => s.rankByte n seed ps (a + 8 * r + k)) = ((s.rankBytesAll n seed ps).drop (8 * r)).take 8 :=
    filterMap_range_of_get (fun j hj => by rw [hget _ (by omega), Nat.add_assoc]) (by omega)
  have hl8 : (((s.rankBytesAll n seed ps).drop (8 * r)).take 8).length = 8 := by rw [List.length_take, List.length_drop]; omega
  rw [State.rankEntry_eq, hf, if_pos hl8, State.rankRead_fst, List.getD_eq_getElem?_getD, List.getElem?_map, List.getElem?_range (by omega)]
  rfl

/-! The translation of the table's pieces. -/

/-- One piece of the table, translated. -/
def State.rankStep (s : State) (n : Nat) (r : List (Nat × Nat × Phys) × Foot) (p : Nat × Nat) : List (Nat × Nat × Phys) × Foot :=
  match s.translate (s.cxnOf (.job n .X)) (s.genOf (.job n .X)) p.1 accCopyRead with
  | .ok ph _ _ _ => (r.1 ++ [(p.1, p.2, ph)], r.2)
  | .fault c f => (r.1, r.2.note c p.1 f)
  | .poison d => (r.1, { r.2 with park := some d })
theorem State.rankFoot_eq (s : State) (n va nr : Nat) : s.rankFoot n va nr = (pieces va (8 * nr)).foldl (s.rankStep n) ([], .empty) := rfl

/-- A translation that found nothing wrong placed every piece. -/
theorem State.foldl_rankStep {s : State} {n : Nat} {l : List (Nat × Nat)} {acc ps : List (Nat × Nat × Phys)} {f : Foot}
    (h : l.foldl (s.rankStep n) (acc, f) = (ps, .empty)) : f = .empty ∧ ps.map (fun p => (p.1, p.2.1)) = acc.map (fun p => (p.1, p.2.1)) ++ l := by
  induction l generalizing acc f with
  | nil =>
    cases h
    exact ⟨rfl, (List.append_nil _).symm⟩
  | cons p l ih =>
    rw [List.foldl_cons, State.rankStep] at h
    split at h
    · obtain ⟨hf, hps⟩ := ih h
      refine ⟨hf, hps.trans ?_⟩
      rw [List.map_append, List.append_assoc]
      rfl
    · obtain ⟨hf, -⟩ := ih h
      exact absurd (congrArg Foot.bad hf) (Foot.bad_note _ _ _ _)
    · obtain ⟨hf, -⟩ := ih h
      cases congrArg Foot.park hf
theorem State.rankFoot_follows {s : State} {n va nr : Nat} {ps : List (Nat × Nat × Phys)} (h : s.rankFoot n va nr = (ps, .empty)) :
    follows va (8 * nr) (ps.map fun p => (p.1, p.2.1)) := by
  have hps := (State.foldl_rankStep ((s.rankFoot_eq n va nr).symm.trans h)).2
  rw [List.map_nil, List.nil_append] at hps
  rw [hps]
  exact follows_pieces _ _

end Sys2Proof.Machine
end

section
/-! Fetches and collectives issue (R263 to R269). -/
namespace Sys2Proof.Machine

section
variable {s u : State} {n tag : Nat} {form : CopyForm} {lat : Nat}

/-- A copy that started after tier fetches began. -/
theorem State.CopyStarted.after {r : State} (hr : r.SameButTraffic s) (hi : ∀ c, (s.ctx c).insts = (r.ctx c).insts) (h : s.CopyStarted u n tag form lat) :
    r.CopyStarted u n tag form lat := by
  have hnow : s.now n = r.now n := State.now_of (by rw [hr.core]) hi
  have hc := hr.core n
  exact ⟨by rw [← hnow]; exact h.copy, h.infl, by rw [← hc]; exact h.strX, by rw [← hc]; exact h.stop, by rw [← hc]; exact h.member,
    h.hbm.trans hr.hbm, fun m hm => (h.others m hm).trans (hr.core m), h.cur.trans hr.cur, fun c => (h.insts c).trans (hi c)⟩
theorem State.CopyStarted.agenda (h : s.CopyStarted u n tag form lat) (l : List Act) : s.CopyStarted { u with agenda := l } n tag form lat :=
  ⟨h.copy, h.infl, h.strX, h.stop, h.member, h.hbm, h.others, h.cur, h.insts⟩
theorem State.CopyStarted.collN (h : s.CopyStarted u n tag form lat) (f : Core → List (Nat × Nat)) :
    s.CopyStarted (u.modCore n fun c => { c with collN := f c }) n tag form lat := by
  refine ⟨?_, ?_, ?_, ?_, ?_, h.hbm, fun m hm => (State.core_setCore_ne hm _).trans (h.others m hm), h.cur, h.insts⟩ <;> rw [State.core_modCore_same]
  · exact h.copy
  · exact h.infl
  · exact h.strX
  · exact h.stop
  · exact h.member
end

theorem State.insts_startTiers (s : State) (cxn : Nat) (l : List (Nat × Nat × W64 × Nat × Nat)) (c : Nat) : ((s.startTiers cxn l).ctx c).insts = (s.ctx c).insts := by
  unfold State.startTiers
  refine State.insts_modCtx ?_ c
  exact fun _ => rfl

/-! Fetches (R266, R267). -/

section
variable (s : State) (n : Nat) (try_ : Bool) (d a b : F6) (tag : BitVec 6) (due : Nat)

def State.fetchFoot : Foot := s.footprint n accXfetch (runElts (copyEnd (s.rs d)) (copyEnd (s.rs a)) (W64.f (s.rs b) 31 0) 16)
/-- Its conditions before those of its pages. -/
def State.fetchFields : List (Bool × Nat) :=
  let cnt := W64.f (s.rs b) 31 0
  [(sOk d && sOk a && sOk b, 10), (decide (1 ≤ cnt) && decide (cnt ≤ 2 ^ 24) && decide (cnt % 16 = 0), 10), (!(copyEnd (s.rs a)).isSp, 10)]
/-- A source of a footprint that lies in a decoded view. -/
def Foot.inView (foot : Foot) : Bool := foot.moves.any fun m => match m.src with
  | .cm _ p _ => p.isView
  | _ => false
def fetchLat (b : W64) (due : Nat) (foot : Foot) : Nat := max due (max foot.src foot.dst + cdiv (W64.f b 31 0) 64)
def State.fetchCopyOf (foot : Foot) : Copy :=
  { mkCopy tag.toNat (if try_ then .xfetchTry else .xfetch) (s.genOf s.cur) (s.now n) (xWord 7 d a b (if try_ then 1 else 0))
      (BitVec.ofNat 32 (0xB0000000 + tag.toNat * 2 ^ 22 + due)) (s.rs d) (s.rs a) (s.rs b) 0 with
    due := s.now n + fetchLat (s.rs b) due foot, moves := foot.moves.reverse, waitTier := foot.tiers.map (·.1), tierAs := tierAsOf foot.tiers
    seat := if try_ then some (s.stream s.cur).seat else none }
/-- A fetch over its footprint as it starts: with an absent source, an XFETCH.TRY falls back at once. -/
def State.fetchStart (foot : Foot) : State :=
  let s1 := s.startTiers (s.cxnOf s.cur) foot.tiers
  let x := s.fetchCopyOf n try_ d a b tag due foot
  let s2 := if try_ ∧ !foot.tiers.isEmpty then s1.startCopy n { x with due := s.now n, fell := some true } else s1.startCopy n x
  if try_ then { s2 with agenda := .ev (.xfetchTryFallback n tag.toNat) :: s2.agenda } else s2
end

theorem State.fetchFields_ok {s : State} {d a b : F6} (hd : sOk d = true) (ha : sOk a = true) (hb : sOk b = true) (h1 : 1 ≤ W64.f (s.rs b) 31 0)
    (h2 : W64.f (s.rs b) 31 0 ≤ 2 ^ 24) (h3 : W64.f (s.rs b) 31 0 % 16 = 0) (hsp : (copyEnd (s.rs a)).isSp = false) : lowest (s.fetchFields d a b) = 0 :=
  lowest_cons_ok (by rw [hd, ha, hb]; rfl) (lowest_cons_ok (by rw [decide_eq_true h1, decide_eq_true h2, decide_eq_true h3]; rfl)
    (lowest_cons_ok (by rw [hsp]; rfl) rfl))
theorem Foot.inView_false {foot : Foot} (h : ∀ m ∈ foot.moves, ∀ va p det, m.src = .cm va p det → p.isView = false) : foot.inView = false := by
  refine List.any_eq_false.2 fun m hm => ?_
  split
  · rename_i va p det hsrc
    rw [h m hm va p det hsrc]
    exact Bool.false_ne_true
  · exact Bool.false_ne_true

section
variable {s : State} {n : Nat} {try_ : Bool} {d a b : F6} {tag : BitVec 6} {due : Nat} (hfields : lowest (s.fetchFields d a b) = 0)
  (hview : (s.fetchFoot n d a b).inView = false) (hde : (copyEnd (s.rs d)).ok = true) (hae : (copyEnd (s.rs a)).ok = true)
  (hd16 : (copyEnd (s.rs d)).addr % 16 = 0) (ha16 : (copyEnd (s.rs a)).addr % 16 = 0) (hinfl : ((s.core n).tag tag.toNat).infl = false)
  (hfine : (s.fetchFoot n d a b).fine)
include hfields hview hde hae hd16 ha16 hinfl hfine

theorem State.fetchCopy_goes : s.fetchCopy n try_ d a b tag due = (s.fetchStart n try_ d a b tag due (s.fetchFoot n d a b)).fin 8 2 := by
  have hfoot : (if lowest (s.fetchFields d a b) = 0 then s.fetchFoot n d a b else Foot.empty) = s.fetchFoot n d a b := if_pos hfields
  have he : lowest (s.fetchFields d a b ++ [(!(s.fetchFoot n d a b).inView, 10), ((copyEnd (s.rs d)).ok && (copyEnd (s.rs a)).ok, 16)]) = 0 :=
    lowest_append hfields (lowest_cons_ok (by rw [hview]; rfl) (lowest_cons_ok (by rw [hde, hae]; rfl) rfl))
  have hl : lowest [(decide ((copyEnd (s.rs d)).addr % 16 = 0) && decide ((copyEnd (s.rs a)).addr % 16 = 0), 24), (!((s.core n).tag tag.toNat).infl, 46)] = 0 :=
    lowest_cons_ok (by rw [decide_eq_true hd16, decide_eq_true ha16]; rfl) (lowest_cons_ok (by rw [hinfl]; rfl) rfl)
  rw [← hfoot] at hfine he ⊢
  unfold State.fetchCopy
  exact State.issueCopy_ok he hl hfine _
end

/-- R266, R267: a fetch starts with its latency; XFETCH.TRY of an absent source is due at once. -/
theorem State.fetchStart_started {s : State} {n : Nat} {try_ : Bool} {d a b : F6} {tag : BitVec 6} {due : Nat} {foot : Foot}
    (hfree : (s.core n).copy? tag.toNat = none) : s.CopyStarted (s.fetchStart n try_ d a b tag due foot) n tag.toNat (if try_ then .xfetchTry else .xfetch)
      (if try_ = true ∧ (!foot.tiers.isEmpty) = true then 0 else fetchLat (s.rs b) due foot) := by
  have htr : s.SameButTraffic (s.startTiers (s.cxnOf s.cur) foot.tiers) := s.traffic_modCtx _ _
  have hins := s.insts_startTiers (s.cxnOf s.cur) foot.tiers
  have hnow : (s.startTiers (s.cxnOf s.cur) foot.tiers).now n = s.now n := State.now_of (by rw [htr.core]) hins
  have hfree' : ((s.startTiers (s.cxnOf s.cur) foot.tiers).core n).copy? tag.toNat = none := by rw [htr.core, hfree]
  have hst : s.CopyStarted (if try_ = true ∧ (!foot.tiers.isEmpty) = true then
      (s.startTiers (s.cxnOf s.cur) foot.tiers).startCopy n { s.fetchCopyOf n try_ d a b tag due foot with due := s.now n, fell := some true }
      else (s.startTiers (s.cxnOf s.cur) foot.tiers).startCopy n (s.fetchCopyOf n try_ d a b tag due foot)) n tag.toNat (if try_ then .xfetchTry else .xfetch)
      (if try_ = true ∧ (!foot.tiers.isEmpty) = true then 0 else fetchLat (s.rs b) due foot) := by
    split
    · exact State.CopyStarted.after htr hins (State.startCopy_started (lat := 0) (x := { s.fetchCopyOf n try_ d a b tag due foot with due := s.now n, fell := some true })
        tag.isLt hfree' hnow.symm hnow.symm)
    · exact State.CopyStarted.after htr hins (State.startCopy_started (lat := fetchLat (s.rs b) due foot) (x := s.fetchCopyOf n try_ d a b tag due foot)
        tag.isLt hfree' hnow.symm (by rw [hnow]; rfl))
  unfold State.fetchStart
  dsimp only
  cases try_ with
  | true => exact hst.agenda _
  | false => exact hst

end Sys2Proof.Machine
end

section
/-! Collectives (R263 to R265). -/
namespace Sys2Proof.Machine

/-- The elements a collective takes are whole bytes, of 1, 2, 4 or 8. -/
theorem ElTy.width_coll {k cop : Nat} {t : ElTy} (hk : ElTy.ofCode k = some t) (hc : collType cop t = true) :
    ∃ w, t.width = 8 * w ∧ (w = 1 ∨ w = 2 ∨ w = 4 ∨ w = 8) := by
  have h8 : 8 ≤ t.width := by
    unfold collType at hc
    split at hc
    · exact of_decide_eq_true hc
    · simp only [Bool.or_eq_true, decide_eq_true_eq] at hc
      rcases hc with (((((rfl | rfl) | rfl) | rfl) | rfl) | rfl) | rfl <;> decide
  unfold ElTy.ofCode at hk
  split at hk <;> cases hk <;> first
    | exact ⟨1, rfl, by decide⟩
    | exact ⟨2, rfl, by decide⟩
    | exact ⟨4, rfl, by decide⟩
    | exact ⟨8, rfl, by decide⟩
    | exact absurd h8 (by decide)

/-- The operands of a collective. -/
structure CollWord where
  cop : Nat
  d : F6
  a : F6
  b : F6
  tag : BitVec 6
  ty : Nat
  rop : Nat
  duex : Nat

section
variable (y : CollWord) (s : State) (n : Nat) (desc : BitVec 512)

def CollWord.typeOk : Bool :=
  match ElTy.ofCode y.ty with
  | some t => collType y.cop t
  | none => false
def collSane : Bool :=
  decide (1 ≤ descNat desc 8 4) && decide (descNat desc 8 4 ≤ 16384) && decide (descNat desc 12 4 < descNat desc 8 4) &&
    decide (1 ≤ descNat desc 16 4) && decide (descNat desc 16 4 ≤ 2 ^ 24)
def CollWord.early : List (Bool × Nat) :=
  [(sOk y.d && sOk y.a && sOk y.b, 10), (collSane desc, 10), (y.typeOk, 10), (y.cop % 2 == 1 || decide (y.rop ≤ 2), 10)]
def CollWord.width : Nat := ((ElTy.ofCode y.ty).map (·.width)).getD 8 / 8
def CollWord.inB : Nat := if y.cop = 0 ∨ y.cop = 1 then descNat desc 16 4 * y.width else descNat desc 8 4 * (descNat desc 16 4 * y.width)
def CollWord.outB : Nat := if y.cop = 0 ∨ y.cop = 2 then descNat desc 16 4 * y.width else descNat desc 8 4 * (descNat desc 16 4 * y.width)
def CollWord.srcFoot : Foot := s.footprint n accCopyRead (collElts (copyEnd (s.rs y.a)) y.width (y.inB desc) false)
def CollWord.dstFoot : Foot := s.footprint n accCopyRead (collElts (copyEnd (s.rs y.d)) y.width (y.outB desc) true)
/-- Its footprint: what the table's translation found, then its source and its destination. -/
def CollWord.foot (ft : Foot) : Foot :=
  [y.srcFoot s n desc, y.dstFoot s n desc].foldl (fun f g =>
    let f1 := match g.bad with
      | some (cz, va, r) => f.note cz va r
      | none => f
    { f1 with park := f.park.or g.park, view := f.view || g.view }) ft
def CollWord.lat : Nat := max (16 * y.duex) (4096 * max 1 (clog2 (descNat desc 8 4)) + cdiv (y.outB desc) 64)
/-- The copy as it is in flight, with its ranks. -/
def CollWord.copy (tab : List Nat) : Copy :=
  { mkCopy y.tag.toNat (.xcoll y.cop) (s.genOf s.cur) (s.now n) (xWord 6 y.d y.a y.b 0)
      (BitVec.ofNat 32 (0xC0000000 + y.tag.toNat * 2 ^ 22 + y.cop * 2 ^ 20 + y.ty * 2 ^ 15 + y.rop * 2 ^ 12 + y.duex)) (s.rs y.d) (s.rs y.a) (s.rs y.b) desc with
    due := s.now n + y.lat desc, occ := (aget? (s.core n).collN (descNat desc 20 4)).getD 0, ranks := tab, matched := false
    moves := (y.dstFoot s n desc).moves.reverse, srcs := (y.srcFoot s n desc).moves.reverse }
end

theorem collSane_ok {desc : BitVec 512} (h1 : 1 ≤ descNat desc 8 4) (h2 : descNat desc 8 4 ≤ 16384) (h3 : descNat desc 12 4 < descNat desc 8 4)
    (h4 : 1 ≤ descNat desc 16 4) (h5 : descNat desc 16 4 ≤ 2 ^ 24) : collSane desc = true := by
  unfold collSane
  rw [decide_eq_true h1, decide_eq_true h2, decide_eq_true h3, decide_eq_true h4, decide_eq_true h5]
  rfl
section
variable {y : CollWord} {t : ElTy} (hty : ElTy.ofCode y.ty = some t) (hc : collType y.cop t = true)
include hty hc

theorem CollWord.width_coll : y.width = 1 ∨ y.width = 2 ∨ y.width = 4 ∨ y.width = 8 := by
  obtain ⟨w, hw, hw'⟩ := ElTy.width_coll hty hc
  rw [CollWord.width, hty, Option.map_some, Option.getD_some, hw, Nat.mul_div_cancel_left _ (by decide)]
  exact hw'
theorem CollWord.bytes_eq (k : Nat) : k * y.width = k * t.width / 8 := by
  obtain ⟨w, hw, -⟩ := ElTy.width_coll hty hc
  rw [CollWord.width, hty, Option.map_some, Option.getD_some, hw, Nat.mul_div_cancel_left _ (by decide), Nat.mul_left_comm, Nat.mul_div_cancel_left _ (by decide)]
theorem CollWord.early_ok {desc : BitVec 512} (hd : sOk y.d = true) (ha : sOk y.a = true) (hb : sOk y.b = true) (hsane : collSane desc = true)
    (hr : y.cop % 2 = 1 ∨ y.rop ≤ 2) : lowest (y.early desc) = 0 := by
  have htype : y.typeOk = true := by
    unfold CollWord.typeOk
    rw [hty]
    exact hc
  exact lowest_cons_ok (by rw [hd, ha, hb]; rfl) (lowest_cons_ok hsane (lowest_cons_ok htype (lowest_cons_ok (by simpa using hr) rfl)))
end
theorem CollWord.foot_clean {y : CollWord} {s : State} {n : Nat} {desc : BitVec 512} (hs : (y.srcFoot s n desc).clean) (hd : (y.dstFoot s n desc).clean) :
    (y.foot s n desc .empty).clean := by
  obtain ⟨⟨hs1, hs2⟩, hs3⟩ := hs
  obtain ⟨⟨hd1, hd2⟩, hd3⟩ := hd
  simp only [CollWord.foot, List.foldl_cons, List.foldl_nil, hs1, hs2, hs3, hd1, hd2, hd3]
  exact Foot.clean_empty

section
variable {y : CollWord} {s : State} {n : Nat} {desc : BitVec 512} {ps : List (Nat × Nat × Phys)} {tab : List Nat}
  (hdesc : (s.core n).descriptor (s.rs y.b) 32 = some desc) (hearly : lowest (y.early desc) = 0)
  (hps : s.rankFoot n (descNat desc 0 8) (descNat desc 8 4) = (ps, .empty)) (htab : s.rankRead n s.free ps = (tab, []))
  (hmyr : descNat desc 12 4 < descNat desc 8 4)
  (hme : tab.getD (descNat desc 12 4) 0 = rankKey s.guide.devnum n (s.ctx (s.cxnOf s.cur)).dcn.toNat)
  (hde : (copyEnd (s.rs y.d)).ok = true) (hae : (copyEnd (s.rs y.a)).ok = true) (h8 : descNat desc 0 8 % 8 = 0)
  (hinfl : ((s.core n).tag y.tag.toNat).infl = false) (hsrc : (y.srcFoot s n desc).clean) (hdst : (y.dstFoot s n desc).clean)
include hdesc hearly hps htab hmyr hme hde hae h8 hinfl hsrc hdst

/-- R263: a collective that meets no cause starts with the ranks of its table. -/
theorem CollWord.coll_goes : s.coll n y.cop y.d y.a y.b y.tag y.ty y.rop y.duex =
    (((s.startCopy n (y.copy s n desc tab)).tick (2 ^ 26)).modCore n fun c =>
      { c with collN := aset c.collN (descNat desc 20 4) ((aget? (s.core n).collN (descNat desc 20 4)).getD 0 + 1) }).fin 8 2 := by
  have hclean := CollWord.foot_clean hsrc hdst
  have hmine : (s.rankEntry n s.free ps (descNat desc 0 8 + 8 * descNat desc 12 4)).all (· == rankKey s.guide.devnum n (s.ctx (s.cxnOf s.cur)).dcn.toNat) = true := by
    rw [State.rankEntry_getD (State.rankFoot_follows hps) hmyr, htab, hme, Option.all_some, beq_self_eq_true]
  have he : lowest (y.early desc ++ [(!(y.foot s n desc .empty).view, 10),
      (false || (s.rankEntry n s.free ps (descNat desc 0 8 + 8 * descNat desc 12 4)).all (· == rankKey s.guide.devnum n (s.ctx (s.cxnOf s.cur)).dcn.toNat), 10),
      ((copyEnd (s.rs y.d)).ok && (copyEnd (s.rs y.a)).ok, 16)]) = 0 :=
    lowest_append hearly (lowest_cons_ok (by rw [hclean.2]; rfl) (lowest_cons_ok (by rw [hmine]; rfl) (lowest_cons_ok (by rw [hde, hae]; rfl) rfl)))
  have hl : lowest [(decide (descNat desc 0 8 % 8 = 0), 24), (!((s.core n).tag y.tag.toNat).infl, 46)] = 0 :=
    lowest_cons_ok (decide_eq_true h8) (lowest_cons_ok (by rw [hinfl]; rfl) rfl)
  unfold State.coll
  dsimp only
  rw [hdesc]
  dsimp only
  rw [hps]
  dsimp only
  rw [htab]
  refine (if_neg (fun h => h hearly)).trans ?_
  exact State.issueCopy_ok (foot := y.foot s n desc .empty) he hl hclean.1 _
theorem CollWord.issues (h : s.cur = .job n .X) (hfree : (s.core n).copy? y.tag.toNat = none) :
    s.copyIssued (s.coll n y.cop y.d y.a y.b y.tag y.ty y.rop y.duex) n .X y.tag.toNat (.xcoll y.cop) (y.lat desc) 8 2 := by
  rw [CollWord.coll_goes hdesc hearly hps htab hmyr hme hde hae h8 hinfl hsrc hdst]
  have hst := State.startCopy_started (s := s) (n := n) (lat := y.lat desc) (x := y.copy s n desc tab) y.tag.isLt hfree rfl rfl
  exact ((hst.traffic (State.traffic_tick _ _) fun _ => rfl).collN _).issued h 8 2
end

/-- XPREF (R269). -/
theorem State.execXpref_job {s : State} {n : Nat} (h : s.cur = .job n .X) {g : Guard} (hg : (s.core n).guardOpen g) {a b : F6} (ha : sOk a = true)
    (hb : sOk b = true) : exec (.xpref g a b) s = .next
      (((s.startTiers (s.cxnOf (.job n .X)) (s.absentPages n (s.rs a).toNat (W64.f (s.rs b) 31 0))).requests (.job n .X) (s.genOf (.job n .X))
        (pagesOf (s.rs a).toNat (W64.f (s.rs b) 31 0)) .none [] (s.rangePieces n (s.rs a).toNat (W64.f (s.rs b) 31 0))).finish (.job n .X) 4 1) := by
  show execXpref g a b s = _
  rw [execXpref, State.xExec_open h hg, State.check_one_ok (by rw [ha, hb]; rfl)]
  dsimp only
  rw [State.fin, (State.traffic_requests _ _ _ _ _ _ _).cur, h]
  rw [show (s.startTiers (s.cxnOf (.job n .X)) (s.absentPages n (s.rs a).toNat (W64.f (s.rs b) 31 0))).cur = s.cur from rfl, h]

end Sys2Proof.Machine
end

section
open Sys2Proof Sys2Proof.Machine

/-- Settles O32: a fetch starts over its footprint; a collective's table gives its own entry, and its ends translate where their bytes do. -/
theorem fetchesIssue : Obligations.FetchesIssue := by
  unfold Obligations.FetchesIssue
  intro s n g d a b tag due ty rop duex desc ps tab h hg hd ha hb
  refine ⟨State.execXpref_job h hg ha hb, fun hde hae hinfl hfree => ⟨fun h1 h2 h3 hsp hd16 ha16 hfine hview => ?_,
    fun hdesc h1 h2 h3 h4 h5 h8 hps htab hme t hty => ?_⟩⟩
  · have hfields := State.fetchFields_ok hd ha hb h1 h2 h3 hsp
    have goes : ∀ try_, s.fetchCopy n try_ d a b tag due.toNat = (s.fetchStart n try_ d a b tag due.toNat (s.fetchFoot n d a b)).fin 8 2 := fun try_ =>
      State.fetchCopy_goes hfields (Foot.inView_false hview) hde hae hd16 ha16 hinfl hfine
    have started : ∀ try_, _ := fun try_ => (State.fetchStart_started (try_ := try_) (d := d) (a := a) (b := b) (due := due.toNat)
      (foot := s.fetchFoot n d a b) hfree).issued h 8 2
    refine ⟨⟨_, (State.xExec_open h hg 8 _).trans (congrArg Host.Outcome.next (goes false)), started false⟩, fun ht => ?_, fun ht => ?_⟩
    · have hs := started true
      have hnone : (s.fetchFoot n d a b).tiers = [] := ht
      rw [hnone] at hs
      exact ⟨_, (State.xExec_open h hg 8 _).trans (congrArg Host.Outcome.next (goes true)), hs⟩
    · have hs := started true
      have hsome : (true = true ∧ (!(s.fetchFoot n d a b).tiers.isEmpty) = true) := ⟨rfl, by simpa using (show (s.fetchFoot n d a b).tiers ≠ [] from ht)⟩
      rw [if_pos hsome] at hs
      exact ⟨_, (State.xExec_open h hg 8 _).trans (congrArg Host.Outcome.next (goes true)), hs⟩
  · have run : ∀ cop, collType cop t = true → (cop % 2 = 1 ∨ rop.toNat ≤ 2) → ∀ inB outB, CollWord.inB ⟨cop, d, a, b, tag, ty.toNat, rop.toNat, duex.toNat⟩ desc = inB →
        CollWord.outB ⟨cop, d, a, b, tag, ty.toNat, rop.toNat, duex.toNat⟩ desc = outB →
        (s.footprint n accCopyRead (byteElts (copyEnd (s.rs a)) inB false)).clean → (s.footprint n accCopyRead (byteElts (copyEnd (s.rs d)) outB true)).clean →
        s.copyIssued (s.coll n cop d a b tag ty.toNat rop.toNat duex.toNat) n .X tag.toNat (.xcoll cop)
          (max (16 * duex.toNat) (4096 * max 1 (clog2 (descNat desc 8 4)) + cdiv outB 64)) 8 2 := by
      intro cop hc hr inB outB hin hout hfs hfd
      subst hin hout
      have hw := CollWord.width_coll (y := ⟨cop, d, a, b, tag, ty.toNat, rop.toNat, duex.toNat⟩) hty hc
      have he := CollWord.early_ok (y := ⟨cop, d, a, b, tag, ty.toNat, rop.toNat, duex.toNat⟩) hty hc hd ha hb (collSane_ok h1 h2 h3 h4 h5) hr
      have hs := State.footprint_collElts hw hfs
      have ht := State.footprint_collElts hw hfd
      exact CollWord.issues (y := ⟨cop, d, a, b, tag, ty.toNat, rop.toNat, duex.toNat⟩) hdesc he hps htab h3 hme hde hae h8 hinfl hs ht h hfree
    have hbk : ∀ cop, collType cop t = true →
        descNat desc 16 4 * CollWord.width ⟨cop, d, a, b, tag, ty.toNat, rop.toNat, duex.toNat⟩ = descNat desc 16 4 * t.width / 8 := fun cop hc =>
      CollWord.bytes_eq hty hc _
    refine ⟨fun hc hr hs hd hv hw => ?_, fun hc hr hs hd hv hw => ?_, fun hc hr hs hd hv hw => ?_, fun hc hr hs hd hv hw => ?_⟩
    · exact ⟨_, State.xExec_open h hg 8 _, run 0 hc hr _ _ (hbk 0 hc) (hbk 0 hc) ⟨hs, hv⟩ ⟨hd, hw⟩⟩
    · exact ⟨_, State.xExec_open h hg 8 _, run 1 hc hr _ _ (hbk 1 hc) (congrArg (descNat desc 8 4 * ·) (hbk 1 hc)) ⟨hs, hv⟩ ⟨hd, hw⟩⟩
    · exact ⟨_, State.xExec_open h hg 8 _, run 2 hc hr _ _ (congrArg (descNat desc 8 4 * ·) (hbk 2 hc)) (hbk 2 hc) ⟨hs, hv⟩ ⟨hd, hw⟩⟩
    · exact ⟨_, State.xExec_open h hg 8 _, run 3 hc hr _ _ (congrArg (descNat desc 8 4 * ·) (hbk 3 hc)) (congrArg (descNat desc 8 4 * ·) (hbk 3 hc)) ⟨hs, hv⟩ ⟨hd, hw⟩⟩

end

section
/-! What restoring a context leaves alone: the clusters and the virtual function that each context has (R277). Only commands give and take them. -/
namespace Sys2Proof.Machine

/-- The clusters and the virtual function of a context. -/
@[simp] def Ctx.holding (c : Ctx) : BitVec 64 × Nat := (c.clmask, c.vf)
/-- Those of every context. -/
def State.holdings (s : State) : Vector (BitVec 64 × Nat) 32 := s.ctxs.map Ctx.holding

theorem State.holdings_of_ctxs {s t : State} (h : t.ctxs = s.ctxs) : t.holdings = s.holdings := congrArg (Vector.map Ctx.holding) h
theorem State.ctx_holding {n : Nat} (s : State) (hn : n < 32) : (s.ctx n).holding = s.holdings[n] := by
  simp [State.ctx, vget, State.holdings, hn]

/-! Folds and branches. -/

@[simp] theorem State.ite_holdings (p : Prop) [Decidable p] (s t : State) :
    (if p then s else t).holdings = if p then s.holdings else t.holdings := apply_ite _ _ _ _
@[simp] theorem State.foldl_holdings {α : Type} {l : List α} {f : State → α → State} {s : State} (hf : ∀ t x, (f t x).holdings = t.holdings) :
    (l.foldl f s).holdings = s.holdings := foldl_keeps hf l s

/-! The parts of the state. -/

@[simp] theorem State.modCtx_holdings (s : State) (n : Nat) {f : Ctx → Ctx} (hc : ∀ c, (f c).clmask = c.clmask) (hv : ∀ c, (f c).vf = c.vf) :
    (s.modCtx n f).holdings = s.holdings := by
  refine Vector.ext fun k hk => ?_
  simp only [State.holdings, State.modCtx, State.setCtx, Vector.getElem_map]
  rw [Vector.getElem_setIfInBounds]
  split
  next h => subst h; simp [hc, hv, State.ctx, vget, hk]
  · rfl
@[simp] theorem State.modQueue_holdings (s : State) (cxn q : Nat) (f : Queue → Queue) : (s.modQueue cxn q f).holdings = s.holdings :=
  s.modCtx_holdings _ (fun _ => rfl) fun _ => rfl
@[simp] theorem State.modTrail_holdings (s : State) (cxn : Nat) (f : Trail → Trail) : (s.modTrail cxn f).holdings = s.holdings :=
  s.modCtx_holdings _ (fun _ => rfl) fun _ => rfl
@[simp] theorem State.modInst_holdings (s : State) (cxn h : Nat) (f : Inst → Inst) : (s.modInst cxn h f).holdings = s.holdings :=
  s.modCtx_holdings _ (fun _ => rfl) fun _ => rfl
@[simp] theorem State.modGroup_holdings (s : State) (cxn h g : Nat) (f : Group → Group) : (s.modGroup cxn h g f).holdings = s.holdings :=
  s.modInst_holdings ..
@[simp] theorem State.perf_holdings (s : State) (cxn j k : Nat) : (s.perf cxn j k).holdings = s.holdings := s.modCtx_holdings _ (fun _ => rfl) fun _ => rfl
@[simp] theorem State.setCore_holdings (s : State) (n : Nat) (c : Core) : (s.setCore n c).holdings = s.holdings := rfl
@[simp] theorem State.free_holdings (s : State) (k : Nat) : ({ s with free := k } : State).holdings = s.holdings := rfl
@[simp] theorem State.modCore_holdings (s : State) (n : Nat) (f : Core → Core) : (s.modCore n f).holdings = s.holdings := rfl
@[simp] theorem State.foldl_modCore_holdings {α : Type} (l : List α) (n : State → α → Nat) (f : State → α → Core → Core) (s : State) :
    (l.foldl (fun t x => t.modCore (n t x) (f t x)) s).holdings = s.holdings := State.foldl_holdings fun _ _ => rfl
@[simp] theorem State.modGuide_holdings (s : State) (f : Guide → Guide) : (s.modGuide f).holdings = s.holdings := rfl
@[simp] theorem State.send_holdings (s : State) (x : Output) : (s.send x).holdings = s.holdings := rfl
@[simp] theorem State.tick_holdings (s : State) (k : Nat) : (s.tick k).holdings = s.holdings := rfl
@[simp] theorem State.physWrite_holdings (s : State) (cxn : Nat) (p : Phys) (bs : List (Byte × Bool)) : (s.physWrite cxn p bs).holdings = s.holdings :=
  State.holdings_of_ctxs (s.ctxs_physWrite cxn p bs)
@[simp] theorem State.llcServe_holdings (s : State) (l : List (Phys × Nat × Bool)) : (s.llcServe l).1.holdings = s.holdings :=
  State.holdings_of_ctxs (s.ctxs_llcServe l)

/-! Events, records, queues and groups. -/

@[simp] theorem State.msix_holdings (s : State) (fn vec : Nat) : (s.msix fn vec).holdings = s.holdings := by simp [State.msix]
@[simp] theorem State.event_holdings (s : State) (type cx id payload : Nat) (keep : Bool) : (s.event type cx id payload keep).holdings = s.holdings := by
  simp [State.event]
@[simp] theorem State.newId_holdings (s : State) : s.newId.2.holdings = s.holdings := rfl
@[simp] theorem State.report_holdings (s : State) (bank : Nat) (r : ErrRec) : (s.report bank r).holdings = s.holdings := by simp [State.report]
@[simp] theorem State.cxGoto_holdings (s : State) (cxn : Nat) (st : CxState) : (s.cxGoto cxn st).holdings = s.holdings := by simp [State.cxGoto]
@[simp] theorem State.attest_holdings (s : State) (cxn : Nat) : (s.attest cxn).holdings = s.holdings := s.modCtx_holdings _ (fun _ => rfl) fun _ => rfl
@[simp] theorem State.pauseCore_holdings (s : State) (n bit : Nat) : (s.pauseCore n bit).holdings = s.holdings := by
  unfold State.pauseCore
  split <;> simp
@[simp] theorem State.standCore_holdings (s : State) (n : Nat) : (s.standCore n).holdings = s.holdings := by
  unfold State.standCore
  split <;> simp
@[simp] theorem State.endQueue_holdings (s : State) (cxn q : Nat) (st : QState) (cause : Nat) : (s.endQueue cxn q st cause).holdings = s.holdings := by
  simp [State.endQueue]
@[simp] theorem State.parkQueue_holdings (s : State) (cxn q : Nat) : (s.parkQueue cxn q).holdings = s.holdings := by simp [State.parkQueue]
@[simp] theorem State.faultRecord_holdings (s : State) (cxn q : Nat) (r : FaultRec) : (s.faultRecord cxn q r).holdings = s.holdings := by
  simp [State.faultRecord]
@[simp] theorem State.trapJob_holdings (s : State) (n : Nat) (e : Engine) (cause faddr : Nat) : (s.trapJob n e cause faddr).holdings = s.holdings := by
  simp [State.trapJob]
@[simp] theorem State.parkJob_holdings (s : State) (n : Nat) (e : Engine) (cause faddr : Nat) : (s.parkJob n e cause faddr).holdings = s.holdings := by
  simp [State.parkJob]
@[simp] theorem State.trapThread_holdings (s : State) (cxn q cause : Nat) : (s.trapThread cxn q cause).holdings = s.holdings := by
  simp [State.trapThread]
@[simp] theorem State.take_holdings (s : State) (ag : Agent) (cause faddr : Nat) (rec : Option FaultRec) : (s.take ag cause faddr rec).holdings = s.holdings := by
  unfold State.take
  (repeat' split) <;> simp
@[simp] theorem State.poisonMet_holdings (s : State) (cxn gen cause va : Nat) (who : ErrRec) : (s.poisonMet cxn gen cause va who).holdings = s.holdings := by
  simp [State.poisonMet]
@[simp] theorem State.poisonRecord_holdings (s : State) (ag : Agent) (cause va : Nat) : (s.poisonRecord ag cause va).holdings = s.holdings := by
  simp [State.poisonRecord]
@[simp] theorem State.parkContext_holdings (s : State) (cxn dpa : Nat) : (s.parkContext cxn dpa).holdings = s.holdings := by
  simp only [State.parkContext, State.report_holdings]
  refine State.foldl_holdings fun t q => ?_
  split <;> simp
@[simp] theorem State.genNotices_holdings (s : State) (cxn : Nat) (before : List Nat) : (s.genNotices cxn before).holdings = s.holdings := by
  simp [State.genNotices]
@[simp] theorem State.wake_holdings (s : State) (cxn : Nat) : (s.wake cxn).holdings = s.holdings := by
  refine State.foldl_holdings fun t q => ?_
  dsimp only
  split <;> simp

/-! Requests and walks. -/

@[simp] theorem State.walk_holdings (s : State) (cxn gen : Nat) (vas : List Nat) : (s.walk cxn gen vas).1.holdings = s.holdings := by simp [State.walk]
@[simp] theorem State.requests_holdings (s : State) (ag : Agent) (gen : Nat) (vas : List Nat) (need : Need) (l : List (Nat × Dest))
    (touch : List (Phys × Nat × Bool)) : (s.requests ag gen vas need l touch).holdings = s.holdings := by
  simp [State.requests]
@[simp] theorem State.askCopy_holdings (s : State) (n gen : Nat) (need : Need) (srcs dsts : List Move) :
    (s.askCopy n gen need srcs dsts).holdings = s.holdings := by
  simp [State.askCopy]
@[simp] theorem State.disownLines_holdings (s : State) (n tag : Nat) : (s.disownLines n tag).holdings = s.holdings := s.modCtx_holdings _ (fun _ => rfl) fun _ => rfl
@[simp] theorem State.startTiers_holdings (s : State) (cxn : Nat) (l : List (Nat × Nat × W64 × Nat × Nat)) : (s.startTiers cxn l).holdings = s.holdings :=
  s.modCtx_holdings _ (fun _ => rfl) fun _ => rfl
@[simp] theorem State.reAsk_holdings (s : State) (n : Nat) : (s.reAsk n).holdings = s.holdings := by simp [State.reAsk]

/-! The trail. -/

@[simp] theorem State.trailEvent_holdings (s : State) (cxn : Nat) : (s.trailEvent cxn).holdings = s.holdings := by simp [State.trailEvent]
@[simp] theorem State.writeRecord_holdings (s : State) (cxn q0 q1 : Nat) : (s.writeRecord cxn q0 q1).holdings = s.holdings := by simp [State.writeRecord]
@[simp] theorem State.trailStall_holdings (s : State) (cxn q0 q1 : Nat) : (s.trailStall cxn q0 q1).holdings = s.holdings := by simp [State.trailStall]
@[simp] theorem State.trailTurn_holdings (s : State) (cxn q0 q1 : Nat) (far : Bool) : (s.trailTurn cxn q0 q1 far).holdings = s.holdings :=
  s.modTrail_holdings ..
@[simp] theorem State.advanceRidx_holdings (s : State) (cxn fuel : Nat) : (s.advanceRidx cxn fuel).holdings = s.holdings := by
  induction fuel generalizing s with
  | zero => rfl
  | succ fuel ih =>
    simp only [State.advanceRidx]
    split
    · rfl
    · split
      · exact (ih _).trans (s.modTrail_holdings ..)
      · rfl
@[simp] theorem State.replayMark_holdings (s : State) (cxn before : Nat) : (s.replayMark cxn before).holdings = s.holdings := by simp [State.replayMark]
@[simp] theorem State.diverge_holdings (s : State) (cxn idx : Nat) (expd act : Nat × Nat) (owner : Option Agent) :
    (s.diverge cxn idx expd act owner).holdings = s.holdings := by
  simp [State.diverge]
@[simp] theorem State.settleRidx_holdings (s : State) (cxn before : Nat) : (s.settleRidx cxn before).holdings = s.holdings := by simp [State.settleRidx]
@[simp] theorem State.matchRecord_holdings (s : State) (cxn k : Nat) : (s.matchRecord cxn k).holdings = s.holdings := by simp [State.matchRecord]
@[simp] theorem State.parkRecord_holdings (s : State) (cxn k : Nat) : (s.parkRecord cxn k).holdings = s.holdings := by simp [State.parkRecord]
theorem State.gate_holdings (s : State) (cxn : Nat) (owner : Option Agent) (q0 q1 : Nat) : (s.gate cxn owner q0 q1).state.holdings = s.holdings := by
  simp only [State.gate]
  (repeat' split) <;> simp [Gate.state]
theorem State.of_gate_holdings {s : State} {cxn : Nat} {owner : Option Agent} {q0 q1 : Nat} {g : Gate} (h : s.gate cxn owner q0 q1 = g) :
    g.state.holdings = s.holdings := h ▸ State.gate_holdings s cxn owner q0 q1

/-! Accesses at their home, and what a halt does to a job. -/

@[simp] theorem State.undefine_holdings (s : State) (as : List Nat) : (s.undefine as).holdings = s.holdings := by
  refine State.foldl_holdings fun t a => ?_
  split <;> rfl
@[simp] theorem State.noteMark_holdings (s : State) (ag : Agent) (x : Strong) (old wrote : Option Nat) : (s.noteMark ag x old wrote).holdings = s.holdings := by
  simp only [State.noteMark]
  (repeat' split) <;> simp
@[simp] theorem State.markTnt_holdings (s : State) (ag : Agent) (det t : Bool) : (s.markTnt ag det t).holdings = s.holdings := by
  unfold State.markTnt
  (repeat' split) <;> simp
@[simp] theorem State.dropMix_holdings (s : State) (part : Nat) : (s.dropMix part).holdings = s.holdings := by simp [State.dropMix]
@[simp] theorem State.tagMix_holdings (s : State) (ag : Agent) (x : Strong) : (s.tagMix ag x).holdings = s.holdings := by
  unfold State.tagMix
  split <;> simp
@[simp] theorem State.contribute_holdings (s : State) (cxn h : Nat) (x : Strong) : (s.contribute cxn h x).holdings = s.holdings := by
  unfold State.contribute
  split <;> simp
@[simp] theorem State.taintEvent_holdings (s : State) (dpa : Nat) (h : Nat × Nat × Nat) : (s.taintEvent dpa h).holdings = s.holdings := by
  simp [State.taintEvent]
@[simp] theorem State.lineAdded_holdings (s : State) (dpa : Nat) : (s.lineAdded dpa).holdings = s.holdings := by simp [State.lineAdded]
@[simp] theorem State.lineEvents_holdings (s : State) (ag : Agent) (x : Strong) : (s.lineEvents ag x).holdings = s.holdings := by
  unfold State.lineEvents
  (repeat' split) <;> simp
@[simp] theorem State.setStream_holdings (s : State) (ag : Agent) (x : Stream) : (s.setStream ag x).holdings = s.holdings := by
  unfold State.setStream
  split <;> simp
@[simp] theorem State.modStream_holdings (s : State) (ag : Agent) (f : Stream → Stream) : (s.modStream ag f).holdings = s.holdings := by
  simp [State.modStream]
@[simp] theorem State.addPend_holdings (s : State) (n lat : Nat) (ls : Bool) (t : PendTarget) : (s.addPend n lat ls t).holdings = s.holdings := rfl
@[simp] theorem State.putS_holdings (s : State) (ag : Agent) (r : Nat) (v : W64) (t : Bool) (lat : Nat) : (s.putS ag r v t lat).holdings = s.holdings := by
  unfold State.putS
  split <;> simp
@[simp] theorem State.answer_holdings (s : State) (ag : Agent) (x : Strong) (v : Nat) (t : Bool) (poison : Nat) :
    (s.answer ag x v t poison).holdings = s.holdings := by
  simp only [State.answer]
  split
  · simp
  · split
    · simp
    · refine (State.foldl_holdings fun z p => ?_).trans (State.modQueue_holdings ..)
      split <;> simp
@[simp] theorem State.mixStop_holdings (s : State) (ag : Agent) (x : Strong) : (s.mixStop ag x).holdings = s.holdings := by
  unfold State.mixStop
  split <;> simp
@[simp] theorem State.performStrong_holdings (s : State) (ag : Agent) (x : Strong) : (s.performStrong ag x).holdings = s.holdings := by
  simp only [State.performStrong, State.answer_holdings, State.lineEvents_holdings]
  split <;> simp
@[simp] theorem State.atomicStep_holdings (s : State) (ag : Agent) : (s.atomicStep ag).holdings = s.holdings := by
  simp only [State.atomicStep]
  split
  · rfl
  · split
    · rfl
    · split
      · simp
      · split
        · simp
        · split
          next h => exact (State.performStrong_holdings ..).trans (State.of_gate_holdings h)
          next h => exact State.of_gate_holdings h
          next h => exact State.of_gate_holdings h
@[simp] theorem State.ackContribution_holdings (s : State) (ag : Agent) : (s.ackContribution ag).holdings = s.holdings := by
  unfold State.ackContribution
  (repeat' split) <;> simp
@[simp] theorem State.flushAgent_holdings (ag : Agent) (k : Nat) (s : State) : (State.flushAgent ag k s).holdings = s.holdings := by
  induction k generalizing s with
  | zero => rfl
  | succ k ih =>
    simp only [State.flushAgent]
    split
    · rfl
    · exact (ih _).trans (by simp)
@[simp] theorem State.flushStrong_holdings (s : State) (n : Nat) : (s.flushStrong n).holdings = s.holdings := by simp [State.flushStrong]
@[simp] theorem State.closeSlot_holdings (s : State) (cxn : Nat) (z : Slot) : (s.closeSlot cxn z).holdings = s.holdings := by
  unfold State.closeSlot
  split
  · rfl
  · split
    · rfl
    · simp
@[simp] theorem State.closeSlots_holdings (s : State) (cxn h : Nat) : (s.closeSlots cxn h).holdings = s.holdings := by
  unfold State.closeSlots
  split <;> simp
@[simp] theorem State.withdraw_holdings (s : State) (n : Nat) : (s.withdraw n).holdings = s.holdings := by
  simp only [State.withdraw]
  (repeat' split) <;> simp
@[simp] theorem State.dropContribs_holdings (s : State) (n : Nat) : (s.dropContribs n).holdings = s.holdings := by
  unfold State.dropContribs
  split <;> simp
@[simp] theorem State.awaitContribs_holdings (s : State) (n : Nat) : (s.awaitContribs n).holdings = s.holdings := by
  unfold State.awaitContribs
  split <;> simp
@[simp] theorem State.cancelPhase_holdings (s : State) (n : Nat) : (s.cancelPhase n).holdings = s.holdings := by
  rw [State.cancelPhase, State.perf_holdings]
  exact ((State.dropContribs_holdings ..).trans (State.awaitContribs_holdings ..)).trans (State.withdraw_holdings ..)
@[simp] theorem State.scribble_holdings (s : State) (n : Nat) (m : Move) : (s.scribble n m).holdings = s.holdings := by
  unfold State.scribble
  split <;> simp
@[simp] theorem State.abandonCopy_holdings (s : State) (n : Nat) (x : Copy) : (s.abandonCopy n x).holdings = s.holdings := by simp [State.abandonCopy]
@[simp] theorem State.abandonCopies_holdings (s : State) (n : Nat) : (s.abandonCopies n).holdings = s.holdings := by simp [State.abandonCopies]
@[simp] theorem State.haltJob_holdings (s : State) (n : Nat) : (s.haltJob n).holdings = s.holdings := by simp [State.haltJob]
@[simp] theorem Ctx.failDeps_clmask (c : Ctx) (k : Nat) : (c.failDeps k).clmask = c.clmask := by
  induction k generalizing c with
  | zero => rfl
  | succ k ih => exact ih _
@[simp] theorem Ctx.failDeps_vf (c : Ctx) (k : Nat) : (c.failDeps k).vf = c.vf := by
  induction k generalizing c with
  | zero => rfl
  | succ k ih => exact ih _
@[simp] theorem State.faultInst_holdings (s : State) (cxn h cause : Nat) : (s.faultInst cxn h cause).holdings = s.holdings := by
  simp only [State.faultInst]
  split
  · rfl
  next i _ =>
    split
    · rfl
    · rw [State.genNotices_holdings, State.wake_holdings]
      refine (State.foldl_holdings fun t q => ?_).trans ?_
      · split
        · split <;> simp
        · rfl
      · simp

/-! The parts of a restore. -/

@[simp] theorem State.admissionFault_holdings (s : State) (cxn : Nat) (i : Inst) (r : FaultRec) : (s.admissionFault cxn i r).holdings = s.holdings := by
  simp [State.admissionFault]
@[simp] theorem State.readObject_holdings (s : State) (cxn h : Nat) : (s.readObject cxn h).holdings = s.holdings := by
  simp only [State.readObject]
  (repeat' split) <;> simp
@[simp] theorem State.restoreFault_holdings (s : State) (n : Nat) (e : Engine) (cause va : Nat) (r : Option FaultRec) :
    (s.restoreFault n e cause va r).holdings = s.holdings := by
  unfold State.restoreFault
  (repeat' split) <;> simp
@[simp] theorem State.reloadCoef_holdings (s : State) (n : Nat) : (s.reloadCoef n).1.holdings = s.holdings := by
  simp only [State.reloadCoef]
  (repeat' split) <;> simp
@[simp] theorem State.settleCore_holdings (s : State) (n : Nat) : (s.settleCore n).holdings = s.holdings := by
  simp only [State.settleCore]
  (repeat' split) <;> simp
@[simp] theorem State.settleSlot_holdings (s : State) (cxn h ea : Nat) : (s.settleSlot cxn h ea).holdings = s.holdings := by
  unfold State.settleSlot
  (repeat' split) <;> simp
@[simp] theorem State.settleJobs_holdings (s : State) (cxn h : Nat) : (s.settleJobs cxn h).holdings = s.holdings := by
  unfold State.settleJobs
  split <;> simp
@[simp] theorem State.linkHandler_holdings (s : State) (cxn q : Nat) : (s.linkHandler cxn q).holdings = s.holdings := by
  unfold State.linkHandler
  split <;> simp
@[simp] theorem State.reraise_holdings (s : State) (cxn q : Nat) : (s.reraise cxn q).holdings = s.holdings := by simp [State.reraise]
@[simp] theorem State.rediverge_holdings (s : State) (cxn : Nat) : (s.rediverge cxn).holdings = s.holdings := by simp [State.rediverge]
@[simp] theorem State.reheader_holdings (s : State) (cxn h : Nat) (known : Bool) : (s.reheader cxn h known).holdings = s.holdings := by
  unfold State.reheader
  (repeat' split) <;> simp
@[simp] theorem State.putTail_holdings (s : State) (cxn : Nat) : (s.putTail cxn).holdings = s.holdings := by simp [State.putTail]
@[simp] theorem State.retakeRing_holdings (s : State) (cxn : Nat) : (s.retakeRing cxn).holdings = s.holdings := by
  simp only [State.retakeRing]
  (repeat' split) <;> simp
@[simp] theorem State.settleRestore_holdings (s : State) (cxn : Nat) (known : Bool) : (s.settleRestore cxn known).holdings = s.holdings := by
  simp [State.settleRestore]

end Sys2Proof.Machine
end

section
/-! What a restored context has (R278, R293), and how RESUME and REBIND end. -/
namespace Sys2Proof.Machine

section
variable {s : State} (hi : s.idleGuide) (conds : List (Bool × Nat)) (k : State → State)
include hi
/-- A command either ends by the first check that fails or acts. -/
theorem State.command_ends : ∃ t, s.command conds k = .next t ∧
    (∀ c, conds.find? (fun c => !c.1) = some c → t.ended 1 c.2 ∧ s.guideOnly t) ∧
    (conds.find? (fun c => !c.1) = none → t = (k s).mbEnd 0 0) := by
  cases hf : conds.find? fun c => !c.1 with
  | none =>
    refine ⟨_, State.command_ok hi k fun c hc => ?_, fun c hc => (by cases hc), fun _ => rfl⟩
    simpa using List.find?_eq_none.1 hf c hc
  | some c =>
    obtain ⟨t, ht, he, hg⟩ := State.commandBy_fails hi (State.command.eq_1 s conds k) hf
    exact ⟨t, ht, fun d hd => (by cases hd; exact ⟨he, hg⟩), fun h => (by cases h)⟩
end

theorem find?_bad_of_all {l : List (Bool × Nat)} (h : ∀ c ∈ l, c.1 = true) (r : List (Bool × Nat)) :
    (l ++ r).find? (fun c => !c.1) = r.find? fun c => !c.1 := by
  rw [List.find?_append, List.find?_eq_none.2 fun c hc => by simp [h c hc]]
  rfl

theorem State.ctx_setCtx_same (s : State) {n : Nat} (hn : n < 32) (c : Ctx) : (s.setCtx n c).ctx n = c := by
  simp [State.ctx, State.setCtx, vget, hn]
theorem State.ctx_attest (s : State) {n : Nat} (hn : n < 32) : ∃ b, (s.attest n).ctx n = { s.ctx n with block17 := b } :=
  ⟨_, s.ctx_modCtx_same hn _⟩
theorem State.ctxFrom_holding (s : State) (n mask : Nat) (hd body : List Byte) :
    (s.ctxFrom n mask hd body).fillBuckets.newQuantum.holding = (BitVec.ofNat 64 mask, (s.ctx n).vf) := rfl
/-- What a context has at the end of a restore is what it was given before its accesses were settled. -/
theorem State.ctx_restored (s : State) {n : Nat} (hn : n < 32) (c : Ctx) (known : Bool) :
    (((((s.setCtx n c).settleRestore n known).cxGoto n .running).attest n).ctx n).state = .running ∧
      (((((s.setCtx n c).settleRestore n known).cxGoto n .running).attest n).ctx n).holding = c.holding := by
  have hc : ((s.setCtx n c).ctx n).holding = c.holding := congrArg Ctx.holding (s.ctx_setCtx_same hn c)
  generalize s.setCtx n c = t at hc ⊢
  obtain ⟨b, hb⟩ := ((t.settleRestore n known).cxGoto n .running).ctx_attest hn
  refine ⟨by rw [hb, State.ctx_cxGoto hn], ?_⟩
  rw [State.ctx_holding _ hn] at hc ⊢
  simpa only [State.attest_holdings, State.cxGoto_holdings, State.settleRestore_holdings] using hc
/-- A restore leaves its context Running, on the clusters named, with its virtual function. -/
theorem State.ctx_restoreCtx (s : State) {n : Nat} (hn : n < 32) (mask : Nat) (hd body : List Byte) :
    ((s.restoreCtx n mask hd body).ctx n).state = .running ∧
      ((s.restoreCtx n mask hd body).ctx n).holding = (BitVec.ofNat 64 mask, (s.ctx n).vf) := by
  rw [← s.ctxFrom_holding n mask hd body]
  exact State.ctx_restored _ hn _ _

/-- RESUME of a saved context with a good hamper answers by its clusters. -/
theorem exec_resume_saved {s : State} {op : BitVec 496} (hi : s.idleGuide) (hn : opCx op < 32) (hs : (s.ctx (opCx op)).state = .saved)
    (ha : (s.addrOk (opF op 9 8) 4096 4096).1 = true) (hh : ∀ x ∈ s.hamperConds (opF op 9 8) (opF op 1 8), x.1 = true) :
    ∃ t, exec (.resume op) s = .next t ∧
      ((s.clustersOk (opCx op) (opF op 1 8)).1 = true →
        t.ended 0 0 ∧ (t.ctx (opCx op)).state = .running ∧ (t.ctx (opCx op)).clmask = BitVec.ofNat 64 (opF op 1 8)) ∧
      ((s.clustersOk (opCx op) (opF op 1 8)).1 = false → t.ended 1 2 ∧ s.guideOnly t) := by
  have hcx : (s.cxIn (opCx op) [.bound, .saved]).1 = true := by simp [State.cxIn, hn, hs]
  obtain ⟨t, ht, hbad, hok⟩ := State.command_ends hi
    ([s.cxIn (opCx op) [.bound, .saved], s.clustersOk (opCx op) (opF op 1 8), s.addrOk (opF op 9 8) 4096 4096] ++ s.hamperConds (opF op 9 8) (opF op 1 8))
    fun s => s.restoreCtx (opCx op) (opF op 1 8) (s.hamperAt (opF op 9 8)).1 (s.hamperAt (opF op 9 8)).2
  refine ⟨t, (execResume.eq_1 op s).trans ht, fun hc => ?_, fun hc => hbad (s.clustersOk (opCx op) (opF op 1 8)) (by simp [hcx, hc])⟩
  have he : t = _ := hok (by
    rw [find?_bad_of_all (by simp [hcx, hc, ha])]
    exact List.find?_eq_none.2 fun c hm => by simp [hh c hm])
  obtain ⟨hrun, hhold⟩ := s.ctx_restoreCtx hn (opF op 1 8) (s.hamperAt (opF op 9 8)).1 (s.hamperAt (opF op 9 8)).2
  rw [he, State.mbEnd_ctx]
  exact ⟨State.mbEnd_ended _ _ _, hrun, congrArg Prod.fst hhold⟩

/-- What REBIND does before the restore: the relocated tables, and what else the source has sent. -/
def State.rebound (s : State) (n vf : Nat) : State :=
  ((s.writeTables n ((s.relocated n).getD [])).tick 1).modCtx n fun c =>
    { c with
      tail := s.receivedTail n, vf := vf, s1root := BitVec.ofNat 64 (s.received n 1) &&& s1rootMask, cg := s.received n 2 % 256, wins := s.receivedWins n, s2root := c.frames.1 }
theorem State.stepEvent_guideOnly (s : State) (cxn step : Nat) (bad : Bool) : s.guideOnly (s.stepEvent cxn step bad) := s.event_guideOnly ..
theorem State.guideSend_guideOnly (s : State) (cxn dev kind : Nat) (bytes : List Byte) : s.guideOnly (s.guideSend cxn dev kind bytes) := rfl
theorem exec_rebind_migIn {s : State} {op : BitVec 496} (hi : s.idleGuide) (hn : opCx op < 32) (hs : (s.ctx (opCx op)).state = .migIn)
    (hv : (s.vfOk (opCx op) (opF op 1 1)).1 = true) :
    let n := opCx op
    let c := s.ctx n
    let a := s.received n 0
    ∃ t, exec (.rebind op) s = .next t ∧ ((s.clustersOk n c.clmask.toNat).1 = true →
      (nbit (s.received n 3) 0 = false → t.ended 1 6 ∧ s.guideOnly t) ∧
      (nbit (s.received n 3) 0 = true → inHbm a = true → (∀ x ∈ s.hamperConds a c.clmask.toNat, x.1 = true) → nbit (s.received n 4) 0 = true →
        ((s.relocated n).isSome = false → t.ended 1 13 ∧ s.guideOnly t) ∧
        ((s.relocated n).isSome = true → t.ended 0 0 ∧ (t.ctx n).state = .running ∧ (t.ctx n).vf = opF op 1 1))) := by
  intro n c a
  have hcx : (s.cxIn n [.migIn]).1 = true := by simp [State.cxIn, n, hn, hs]
  obtain ⟨t, ht, hbad, hok⟩ := State.command_ends hi
    ([s.cxIn n [.migIn], s.vfOk n (opF op 1 1), s.clustersOk n c.clmask.toNat, (nbit (s.received n 3) 0, 6), (inHbm a, 6)] ++ s.hamperConds a c.clmask.toNat
      ++ [(nbit (s.received n 4) 0 && (s.relocated n).isSome, 13)])
    fun s =>
      ((((s.rebound n (opF op 1 1)).restoreCtx n c.clmask.toNat (s.hamperAt a).1 (s.hamperAt a).2).stepEvent n 6 false).stepEvent n 7 false).guideSend n
        ((c.mig.map (·.peer)).getD 0) 25 (leBytes 1 n)
  refine ⟨t, (execRebind.eq_1 op s).trans ht, fun hc => ⟨fun h3 => ?_, fun h3 ha hh h4 => ?_⟩⟩
  · exact hbad (nbit (s.received n 3) 0, 6) (by simp [hcx, hv, hc, h3, n])
  · have hfirst := find?_bad_of_all (l := [s.cxIn n [.migIn], s.vfOk n (opF op 1 1), s.clustersOk n c.clmask.toNat, (nbit (s.received n 3) 0, 6),
      (inHbm a, 6)] ++ s.hamperConds a c.clmask.toNat) (r := [(nbit (s.received n 4) 0 && (s.relocated n).isSome, 13)]) 
      (List.forall_mem_append.2 ⟨by simp only [List.forall_mem_cons]; exact ⟨hcx, hv, hc, h3, ha, nofun⟩, hh⟩)
    refine ⟨fun hr => hbad (nbit (s.received n 4) 0 && (s.relocated n).isSome, 13) (hfirst.trans (by simp [h4, hr])), fun hr => ?_⟩
    have he : t = _ := hok (hfirst.trans (by simp [h4, hr]))
    obtain ⟨hrun, hhold⟩ := (s.rebound n (opF op 1 1)).ctx_restoreCtx hn c.clmask.toNat (s.hamperAt a).1 (s.hamperAt a).2
    have hvf : ((s.rebound n (opF op 1 1)).ctx n).vf = opF op 1 1 := congrArg Ctx.vf (State.ctx_modCtx_same _ hn _)
    refine ⟨he ▸ State.mbEnd_ended _ _ _, ?_⟩
    rw [he, State.mbEnd_ctx, (State.guideSend_guideOnly _ _ _ _ _).ctx, (State.stepEvent_guideOnly _ _ _ _).ctx, (State.stepEvent_guideOnly _ _ _ _).ctx]
    exact ⟨hrun, (congrArg Prod.snd hhold).trans hvf⟩

end Sys2Proof.Machine
end

section
/-! BIND and MIGIN give a context its resources; UNBIND, a function-level reset and the scrub take them back (R276 to R281, R294, R296). -/
namespace Sys2Proof.Machine

theorem State.freshCores_ctxs (s : State) (owner : Option Nat) (l : List Nat) : (s.freshCores owner l).ctxs = s.ctxs := by
  refine foldl_keeps (P := State.ctxs) (fun t k => ?_) _ _
  exact t.setCore_ctxs k _
theorem State.freshCores_hbm (s : State) (owner : Option Nat) (l : List Nat) : (s.freshCores owner l).hbm = s.hbm := by
  refine foldl_keeps (P := State.hbm) (fun t k => ?_) _ _
  exact t.setCore_hbm k _
theorem State.changeTable_guideOnly (s : State) : s.guideOnly s.changeTable := rfl

/-! BIND and MIGIN. -/

theorem State.staged_of_ok {s : State} {n : Nat} (h : (s.stagedOk n).1 = true) : ∃ x, (s.ctx n).stagedSlots = some x := by
  unfold State.stagedOk at h
  split at h
  next x hx => exact ⟨x, hx⟩
  · cases h
section
variable {s : State} {n : Nat} (hn : n < 32) (hst : (s.stagedOk n).1 = true) (st : CxState) (vf dcn mask : Nat) (runs : List (Nat × Nat)) (quant pcal : Nat)
  (frames : Nat × Nat)
include hst
theorem State.hbm_giveCtx : (s.giveCtx n st vf dcn mask runs quant pcal frames).hbm = s.hbm := by
  obtain ⟨x, hx⟩ := State.staged_of_ok hst
  unfold State.giveCtx
  rw [hx]
  dsimp only
  rw [State.changeTable_hbm, State.cxGoto_hbm]
  exact s.freshCores_hbm _ _
include hn
/-- A context that takes resources has them, with its new state. -/
theorem State.ctx_giveCtx : ∃ c : Ctx, (s.giveCtx n st vf dcn mask runs quant pcal frames).ctx n = c ∧ c.state = st ∧ c.vf = vf ∧
    c.dcn = BitVec.ofNat 16 dcn ∧ c.clmask = BitVec.ofNat 64 mask ∧ c.runs = runs := by
  obtain ⟨x, hx⟩ := State.staged_of_ok hst
  unfold State.giveCtx
  rw [hx]
  dsimp only
  rw [(State.changeTable_guideOnly _).ctx, State.ctx_cxGoto hn, State.ctx_setCtx_same _ hn]
  exact ⟨_, rfl, rfl, rfl, rfl, rfl, rfl⟩
end

/-- BIND of a free context with good shares, region and function answers by its clusters. -/
theorem exec_bind_free {s : State} {op : BitVec 496} (hi : s.idleGuide) (hn : opCx op < 32) (hs : (s.ctx (opCx op)).state = .free)
    (hr : (s.regionOk (opCx op) (opRuns op 12)).1 = true) (hst : (s.stagedOk (opCx op)).1 = true) (hv : (s.vfOk (opCx op) (opF op 1 1)).1 = true) :
    let n := opCx op
    ∃ t, exec (.bind op) s = .next t ∧ t.hbm = s.hbm ∧
      ((s.clustersOk n (opF op 4 8)).1 = true → t.ended 0 0 ∧ (t.ctx n).state = .bound ∧ (t.ctx n).vf = opF op 1 1 ∧
        (t.ctx n).dcn = BitVec.ofNat 16 (opF op 2 2) ∧ (t.ctx n).clmask = BitVec.ofNat 64 (opF op 4 8) ∧ (t.ctx n).runs = opRuns op 12) ∧
      ((s.clustersOk n (opF op 4 8)).1 = false → t.ended 1 2 ∧ s.guideOnly t) := by
  intro n
  have hcx : (s.cxIn n [.free]).1 = true := by simp [State.cxIn, n, hn, hs]
  obtain ⟨t, ht, hbad, hok⟩ := State.command_ends hi
    [s.cxIn n [.free], s.clustersOk n (opF op 4 8), s.regionOk n (opRuns op 12), s.stagedOk n, s.vfOk n (opF op 1 1)] fun s =>
    (s.giveCtx n .bound (opF op 1 1) (opF op 2 2) (opF op 4 8) (opRuns op 12) (opF op 28 4) (opF op 32 4) (0, 0)).attest n
  have hfirst : (s.clustersOk n (opF op 4 8)).1 = false → t.ended 1 2 ∧ s.guideOnly t := fun hc => hbad (s.clustersOk n (opF op 4 8)) (by simp [hcx, hc])
  have hgood : (s.clustersOk n (opF op 4 8)).1 = true → t = _ := fun hc => hok (by simp [hcx, hc, hr, hst, hv, n])
  refine ⟨t, (execBind.eq_1 op s).trans ht, ?_, fun hc => ?_, hfirst⟩
  · cases hc : (s.clustersOk n (opF op 4 8)).1 with
    | false => exact (hfirst hc).2.hbm
    | true =>
      rw [hgood hc, State.mbEnd_hbm, State.attest_hbm]
      exact State.hbm_giveCtx hst ..
  · obtain ⟨b, hb⟩ := (s.giveCtx n .bound (opF op 1 1) (opF op 2 2) (opF op 4 8) (opRuns op 12) (opF op 28 4) (opF op 32 4) (0, 0)).ctx_attest hn
    obtain ⟨c, hc, hstate, hvf, hdcn, hmask, hruns⟩ :=
      State.ctx_giveCtx hn hst .bound (opF op 1 1) (opF op 2 2) (opF op 4 8) (opRuns op 12) (opF op 28 4) (opF op 32 4) (0, 0)
    rw [hc] at hb
    refine ⟨hgood ‹_› ▸ State.mbEnd_ended _ _ _, ?_⟩
    rw [hgood ‹_›, State.mbEnd_ctx, hb]
    exact ⟨hstate, hvf, hdcn, hmask, hruns⟩

/-- What a context has of a migration, on the target, when MIGIN has made it. -/
def targetMig (peer : Nat) : Mig :=
  { peer := peer, peerCxn := 0, threshold := 0, limit := 0, hamper := 0, frw := 0, step := 0, rounds := 0, round := none,
    w0 := 0, asked := false, stopBegun := false, saved := false, aborted := false }
/-- MIGIN of a free context with good shares, region and frames answers by its clusters. -/
theorem exec_migin_free {s : State} {op : BitVec 496} (hi : s.idleGuide) (hn : opCx op < 32) (hs : (s.ctx (opCx op)).state = .free)
    (hr : (s.regionOk (opCx op) (opRuns op 13)).1 = true) (hst : (s.stagedOk (opCx op)).1 = true) (hpeer : opF op 1 2 ≤ 16383) (hne : opF op 37 4 ≠ 0)
    (ha : (s.addrOk (opF op 29 8) (65536 * opF op 37 4) 65536).1 = true) (hap : apart (opRuns op 13) (opF op 29 8, opF op 37 4) = true) :
    let n := opCx op
    ∃ t, exec (.migin op) s = .next t ∧ t.hbm = s.hbm ∧
      ((s.clustersOk n (opF op 5 8)).1 = true → t.ended 0 0 ∧ (t.ctx n).state = .migIn) ∧
      ((s.clustersOk n (opF op 5 8)).1 = false → t.ended 1 2 ∧ s.guideOnly t) := by
  intro n
  have hcx : (s.cxIn n [.free]).1 = true := by simp [State.cxIn, n, hn, hs]
  have hframes : (decide (opF op 1 2 ≤ 16383) && decide (opF op 37 4 ≠ 0) && (s.addrOk (opF op 29 8) (65536 * opF op 37 4) 65536).1 &&
      apart (opRuns op 13) (opF op 29 8, opF op 37 4)) = true := by
    rw [decide_eq_true hpeer, decide_eq_true hne, ha, hap]
    rfl
  obtain ⟨t, ht, hbad, hok⟩ := State.command_ends hi
    [s.cxIn n [.free], s.clustersOk n (opF op 5 8), s.regionOk n (opRuns op 13), s.stagedOk n,
      (decide (opF op 1 2 ≤ 16383) && decide (opF op 37 4 ≠ 0) && (s.addrOk (opF op 29 8) (65536 * opF op 37 4) 65536).1 &&
        apart (opRuns op 13) (opF op 29 8, opF op 37 4), 11)] fun s =>
    (s.giveCtx n .migIn 0 (opF op 3 2) (opF op 5 8) (opRuns op 13) 0 0 (opF op 29 8, opF op 37 4)).modCtx n fun c => { c with mig := some (targetMig (opF op 1 2)) }
  have hfirst : (s.clustersOk n (opF op 5 8)).1 = false → t.ended 1 2 ∧ s.guideOnly t := fun hc => hbad (s.clustersOk n (opF op 5 8)) (by simp [hcx, hc])
  have hgood : (s.clustersOk n (opF op 5 8)).1 = true → t = _ := fun hc => hok (by
    rw [hframes]
    simp [hcx, hc, hr, hst, n])
  refine ⟨t, (execMigin.eq_1 op s).trans ht, ?_, fun hc => ?_, hfirst⟩
  · cases hc : (s.clustersOk n (opF op 5 8)).1 with
    | false => exact (hfirst hc).2.hbm
    | true =>
      rw [hgood hc, State.mbEnd_hbm, State.modCtx_hbm]
      exact State.hbm_giveCtx hst ..
  · obtain ⟨c, hc, hstate, -⟩ := State.ctx_giveCtx hn hst .migIn 0 (opF op 3 2) (opF op 5 8) (opRuns op 13) 0 0 (opF op 29 8, opF op 37 4)
    refine ⟨hgood ‹_› ▸ State.mbEnd_ended _ _ _, ?_⟩
    rw [hgood ‹_›, State.mbEnd_ctx, State.ctx_modCtx_same _ hn, hc]
    exact hstate

/-! UNBIND and PREEMPT. -/

theorem State.unbind_bound {s : State} {n : Nat} (hs : (s.ctx n).state = .bound) :
    s.unbind n = (s.modCtx n fun c => { c with vf := 0, deferred := none }).cxGoto n .tornDown := by
  rw [State.unbind, hs]
theorem exec_unbind_bound {s : State} {op : BitVec 496} (hi : s.idleGuide) (hn : opCx op < 32) (hs : (s.ctx (opCx op)).state = .bound) :
    ∃ t, exec (.unbind op) s = .next t ∧ t.ended 0 0 ∧ (t.ctx (opCx op)).state = .tornDown ∧ (t.ctx (opCx op)).vf = 0 ∧ t.hbm = s.hbm := by
  refine ⟨_, (execUnbind.eq_1 op s).trans (State.command_ok hi _ (by simp [State.cxIn, hn, hs])), State.mbEnd_ended _ _ _, ?_⟩
  rw [State.mbEnd_ctx, State.mbEnd_hbm, State.unbind_bound hs, State.ctx_cxGoto hn, State.ctx_modCtx_same _ hn, State.cxGoto_hbm]
  exact ⟨rfl, rfl, rfl⟩

theorem State.hbm_clearValid (s : State) (a : Nat) : (s.clearValid a).hbm = s.hbm.write (a + 6) [0] := State.hbm_physWrite _ _ (by simp [noLeaf, inHbm]) _
theorem State.hbm_beginStop (s : State) (n cls a : Nat) : (s.beginStop n cls a).hbm = s.hbm.write (a + 6) [0] := by
  rw [← s.hbm_clearValid a]
  unfold State.beginStop
  dsimp only
  split
  · rw [State.cxGoto_hbm, State.perf_hbm, State.modCtx_hbm]
  · rfl
/-- PREEMPT of a running context with no stretch open begins its stop at once (R282, R288). -/
theorem exec_preempt_running {s : State} {op : BitVec 496} (hi : s.idleGuide) (hn : opCx op < 32) (hs : (s.ctx (opCx op)).state = .running)
    (hnp : ∀ q, ((s.ctx (opCx op)).queue q).np = false) (hcls : opF op 1 1 % 4 ≠ 0) (ha : (s.addrOk (opF op 2 8) 4096 4096).1 = true) :
    let n := opCx op
    ∃ t, exec (.preempt op) s = .next t ∧ t.ended 0 0 ∧ (t.ctx n).state = .quiescing ∧ (t.ctx n).cls = opF op 1 1 % 4 ∧ (t.ctx n).hamper = opF op 2 8 ∧
      t.hbm = s.hbm.write (opF op 2 8 + 6) [0] := by
  intro n
  have hcx : (s.cxIn n [.running, .quiescing]).1 = true := by simp [State.cxIn, n, hn, hs]
  have hgo : ∀ c ∈ [s.cxIn n [.running, .quiescing], (decide (opF op 1 1 % 4 ≠ 0), 11), s.addrOk (opF op 2 8) 4096 4096], c.1 = true := by
    simp only [List.forall_mem_cons]
    exact ⟨hcx, decide_eq_true hcls, ha, nofun⟩
  refine ⟨_, (execPreempt.eq_1 op s).trans (State.command_ok hi _ hgo), State.mbEnd_ended _ _ _, ?_⟩
  have hask : s.askStop n (opF op 1 1 % 4) (opF op 2 8) (op.getLsbD 15) = s.beginStop n (opF op 1 1 % 4) (opF op 2 8) := by
    rw [State.askStop, Ctx.not_stretched hnp]
    rfl
  obtain ⟨p, st, hc, hst⟩ := State.ctx_beginStop (s := s) hn (opF op 1 1 % 4) (opF op 2 8)
  rw [State.mbEnd_ctx, State.mbEnd_hbm, if_neg (by rw [hs]; decide), hask, hc, s.hbm_beginStop]
  exact ⟨hst hs, rfl, rfl, rfl⟩

/-! Function-level reset and the scrub. -/

theorem State.flushHost_nil {s : State} {n : Nat} (h : (s.ctx n).trail.hostq = []) : s.flushHost n = s.modTrail n fun t => { t with hostq := [] } := by
  rw [State.flushHost, h]
  rfl
theorem exec_vfFlr_bound {s : State} {vf n : Nat} (hb : 6 < s.guide.boot) (hv : s.byVf vf = some n) (hn : n < 32) (hs : (s.ctx n).state = .bound) :
    ∃ t, exec (.vfFlr vf) s = .next t ∧ (t.ctx n).state = .resetting ∧ t.hbm = s.hbm := by
  have hreset : s.resetCtx n = (s.modCtx n fun c => { c with deferred := none, restoring := false, ringLost := false }).cxGoto n .resetting := by
    rw [State.resetCtx, hs]
  have hgo : exec (.vfFlr vf) s = .next ((s.resetCtx n).modGuide (·.dropMsix vf)) := by
    refine (execVfFlr.eq_1 vf s).trans (congrArg Host.Outcome.next ?_)
    rw [if_neg (by omega), hv]
    dsimp only
    rw [hs, if_pos (by decide)]
  refine ⟨_, hgo, ?_⟩
  rw [(State.modGuide_guideOnly _ _).ctx, (State.modGuide_guideOnly _ _).hbm, hreset, State.ctx_cxGoto hn, State.cxGoto_hbm]
  exact ⟨rfl, rfl⟩

section
variable {s : State} {n : Nat} (hn : n < 32) (hq : (s.ctx n).trail.hostq = [])
include hq
theorem State.hbm_scrub : (s.scrub n).hbm = s.hbm := by
  unfold State.scrub
  dsimp only
  rw [State.genNotices_hbm, State.modGuide_hbm, State.modCtx_hbm, State.freshCores_hbm, State.flushHost_nil hq, State.modTrail_hbm]
include hn
theorem State.ctx_scrub : (s.scrub n).ctx n = (s.ctx n).scrubbed := by
  unfold State.scrub
  dsimp only
  rw [(State.genNotices_guideOnly _ _ _).ctx, (State.modGuide_guideOnly _ _).ctx, State.ctx_modCtx_same _ hn, State.ctx, State.freshCores_ctxs, ← State.ctx,
    State.flushHost_nil hq, State.modTrail, State.ctx_modCtx_same _ hn]
  rfl
theorem exec_scrubComplete_resetting (hs : (s.ctx n).state = .resetting) :
    ∃ t, exec (.scrubComplete n) s = .next t ∧ (t.ctx n).state = .bound ∧ (t.ctx n).queues = Ctx.reset.queues ∧ (t.ctx n).insts = [] ∧
      (t.ctx n).trail = .reset ∧ t.hbm = s.hbm := by
  have hgo : s.scrubDone n = (s.scrub n).cxGoto n .bound := by rw [State.scrubDone, hs]
  refine ⟨_, congrArg Host.Outcome.next hgo, ?_⟩
  rw [State.ctx_cxGoto hn, State.ctx_scrub hn hq, State.cxGoto_hbm, State.hbm_scrub hq]
  exact ⟨rfl, rfl, rfl, rfl, rfl⟩
end

theorem Mem.get_clear {p : Nat → Bool} {a : Nat} (ha : p a = false) (m : Mem) : (m.clear p).get a = m.get a := by
  induction m with
  | nil => rfl
  | cons x m ih =>
    obtain ⟨k, v⟩ := x
    simp only [Mem.clear, List.filter_cons, Mem.get] at ih ⊢
    split
    · simp only [Mem.get, ih]
    · rename_i hk
      rw [ih, if_neg fun e => hk (by rw [e, ha]; rfl)]
/-- A context torn down leaves a Free one, and memory outside its region alone (R280). -/
theorem exec_scrubComplete_tornDown {s : State} {n : Nat} (hn : n < 32) (hq : (s.ctx n).trail.hostq = []) (hs : (s.ctx n).state = .tornDown) :
    ∃ t, exec (.scrubComplete n) s = .next t ∧ (t.ctx n).state = .free ∧ (t.ctx n).clmask = 0 ∧
      ∀ a, (runBlocks (s.ctx n).runs).contains (a / 2 ^ 29) = false → t.hbm.get a = s.hbm.get a := by
  have hgo : exec (.scrubComplete n) s = .next (s.scrubDone n) := rfl
  refine ⟨_, hgo, ?_⟩
  rw [State.scrubDone, hs]
  dsimp only
  rw [(State.changeTable_guideOnly _).ctx, State.ctx_setCtx_same _ hn, State.changeTable_hbm, State.setCtx_hbm]
  refine ⟨rfl, rfl, fun a ha => ?_⟩
  rw [State.ite_hbm, State.mbEnd_hbm, ite_self, State.cxGoto_hbm, State.freshCores_hbm]
  exact (Mem.get_clear (p := fun a => (runBlocks (s.ctx n).runs).contains (a / 2 ^ 29)) ha _).trans (congrArg (Mem.get · a) (State.hbm_scrub hq))

end Sys2Proof.Machine
end

section
/-! The save (R288): a stop of class F or A with nothing running ends in Saved, with a valid hamper. -/
namespace Sys2Proof.Machine

/-! A byte of memory after a write of bytes from its address on. -/

theorem Mem.get_drop_ne (m : Mem) {a c : Nat} (h : c ≠ a) : (Mem.drop m a).get c = m.get c := by
  induction m with
  | nil => rfl
  | cons x m ih =>
    obtain ⟨k, v⟩ := x
    simp only [Mem.drop]
    split
    · rename_i hk
      rw [Mem.get, if_neg (by omega)]
    · split
      · rfl
      · simp only [Mem.get, ih]
theorem Mem.get_set_ne (m : Mem) {a c : Nat} (h : c ≠ a) (b : Byte) : (m.set a b).get c = m.get c := by
  unfold Mem.set
  split
  · exact m.get_drop_ne h
  · rw [Mem.get_put, if_neg h]
theorem Mem.get_write_below (bs : List Byte) {m : Mem} {a c : Nat} (h : c < a) : (m.write a bs).get c = m.get c := by
  induction bs generalizing m a with
  | nil => rfl
  | cons b bs ih => exact (ih (by omega)).trans (m.get_set_ne (by omega) b)
/-- A byte that is not zero reads back where it was written. -/
theorem Mem.get_write {bs : List Byte} {m : Mem} {a i : Nat} {b : Byte} (hi : bs[i]? = some b) (hb : b ≠ 0) : (m.write a bs).get (a + i) = b := by
  induction bs generalizing m a i with
  | nil => cases hi
  | cons x bs ih =>
    cases i with
    | zero =>
      cases hi
      rw [Mem.write, Mem.get_write_below bs (by omega), Mem.set, if_neg hb, Mem.get_put, if_pos (by omega)]
    | succ i =>
      rw [Mem.write, ← Nat.add_assoc, Nat.add_right_comm]
      exact ih hi

/-- Byte 6 of a hamper's header is its VALID and class (Table 10-4). -/
theorem Ctx.hamperHeader_valid {c : Ctx} (hm : c.mig = none) (body : List Byte) (nsec : Nat) :
    (c.hamperHeader body nsec)[6]? = some (BitVec.ofNat 8 (1 + 2 * c.cls)) := by
  have hb : leBytes 1 (1 + c.cls * 2 + bitAt c.mig.isSome 3) = [BitVec.ofNat 8 (1 + 2 * c.cls)] := by
    rw [hm, Nat.mul_comm]
    rfl
  unfold Ctx.hamperHeader
  rw [hb]
  rfl

theorem State.ctxs_writeHamper (s : State) (n : Nat) : (s.writeHamper n).ctxs = s.ctxs := by
  unfold State.writeHamper
  dsimp only
  rw [State.modGuide_ctxs, State.ctxs_physWrite, State.ctxs_physWrite]
theorem State.cores_writeHamper (s : State) (n : Nat) : (s.writeHamper n).cores = s.cores := by
  unfold State.writeHamper
  dsimp only
  rw [State.modGuide_cores, State.cores_physWrite, State.cores_physWrite]
/-- The byte that makes a hamper valid, written last of it and with its class. -/
theorem State.hbm_writeHamper (s : State) {n : Nat} (hm : (s.ctx n).mig = none) (hcls : (s.ctx n).cls = 2 ∨ (s.ctx n).cls = 3) :
    (s.writeHamper n).hbm.get ((s.ctx n).hamper + 6) = BitVec.ofNat 8 (1 + 2 * (s.ctx n).cls) := by
  have hl : ∀ t : State, ¬((t.ctx 0).track = true ∧ inHbm noLeaf = true) := fun t h => absurd h.2 (by decide)
  unfold State.writeHamper
  dsimp only
  rw [State.modGuide_hbm, State.hbm_physWrite _ _ (hl _), map_fst_tainted]
  refine Mem.get_write (Ctx.hamperHeader_valid hm _ _) ?_
  rcases hcls with h | h <;> rw [h] <;> decide

section
variable {s : State} {n : Nat} (hn : n < 32) (hs : (s.ctx n).state = .quiescing) (hcls : (s.ctx n).cls = 2 ∨ (s.ctx n).cls = 3)
  (hidle : ∀ q, ((s.ctx n).queue q).state = .idle) (hinsts : (s.ctx n).insts = [])
include hs

theorem Ctx.stopCls_quiescing : (s.ctx n).stopCls = (s.ctx n).cls := by rw [Ctx.stopCls, hs]
include hidle hcls hinsts
/-- A stop with idle queues and no instance finds nothing to stop. -/
theorem State.settleStop_idle : s.settleStop n = s.pauseGroups n fun _ => true := by
  have hthreads : (List.range 16).foldl (fun t q => t.stopThread n q (s.ctx n).cls) s = s := by
    refine foldl_induct (P := fun t => t = s) (fun t q _ ht => ?_) rfl
    rw [ht, State.stopThread]
    exact if_pos (.inl (hidle q))
  unfold State.settleStop
  dsimp only
  rw [Ctx.stopCls_quiescing hs, hthreads, if_neg (by omega), if_neg (by omega), Ctx.runCores, hinsts]
  rfl
include hn
theorem State.ctx_settleStop_idle : (s.settleStop n).ctx n = s.ctx n := by
  rw [State.settleStop_idle hs hcls hidle hinsts, State.pauseGroups, State.ctx_modCtx_same _ hn, hinsts, List.map_nil, ← hinsts]
theorem State.stopDone_idle : (s.settleStop n).stopDone n = true := by
  have hqueues : (s.ctx n).queues.toList.all (fun k => k.state == .idle || k.state == .preempted) = true := by
    rw [List.all_eq_true]
    intro k hk
    obtain ⟨q, hq, rfl⟩ := List.getElem_of_mem hk
    have h := hidle q
    rw [Vector.length_toList] at hq
    have hst : ((s.ctx n).queues[q]).state = .idle := by simpa [Ctx.queue, vget, hq] using h
    simp [hst]
  unfold State.stopDone
  dsimp only
  rw [State.ctx_settleStop_idle hn hs hcls hidle hinsts, Ctx.stopCls_quiescing hs, hqueues, Ctx.runCores, hinsts]
  rcases hcls with h | h <;> rw [h] <;> rfl

/-- What is left of a save with nothing running: the count, the hamper, and the context in Saved. -/
theorem State.save_idle (hm : (s.ctx n).mig = none) (hmode : (s.ctx n).trail.mode = 0) (hq : (s.ctx n).trail.hostq = []) :
    s.save n = ((((((s.settleStop n).modCtx n fun c => { c with saves := (c.saves + 1) % 2 ^ 64 }).writeHamper n).modTrail n fun t => { t with hostq := [] }).modCtx n
      (·.afterSave)).enterSaved n) := by
  have h0 := State.ctx_settleStop_idle hn hs hcls hidle hinsts
  have hdone := State.stopDone_idle hn hs hcls hidle hinsts
  unfold State.save
  dsimp only
  rw [hdone, if_neg (by decide), Ctx.runCores, h0, hinsts]
  generalize s.settleStop n = s0 at h0 ⊢
  have h1 : (s0.modCtx n fun c => { c with saves := (c.saves + 1) % 2 ^ 64 }).ctx n = { s.ctx n with saves := ((s.ctx n).saves + 1) % 2 ^ 64 } := by
    rw [State.ctx_modCtx_same _ hn, h0]
  simp only [List.flatMap_nil, List.foldl_nil]
  generalize (s0.modCtx n fun c => { c with saves := (c.saves + 1) % 2 ^ 64 }) = s2 at h1 ⊢
  have hrec : s2.stopRecords n = s2 := by
    unfold State.stopRecords
    dsimp only
    rw [h1]
    exact if_pos (by rw [hmode]; decide)
  have h2 : (s2.writeHamper n).ctx n = s2.ctx n := by rw [State.ctx, s2.ctxs_writeHamper]; rfl
  rw [hrec, State.flushHost_nil (by rw [h2, h1]; exact hq)]
  generalize s2.writeHamper n = s3 at h2 ⊢
  have h3 : (((s3.modTrail n fun t => { t with hostq := [] }).modCtx n (·.afterSave)).ctx n).state = .quiescing := by
    rw [State.ctx_modCtx_same _ hn, State.modTrail, State.ctx_modCtx_same _ hn, h2, h1]
    exact hs
  rw [h3]

theorem exec_hamperValid_idle (hm : (s.ctx n).mig = none) (hmode : (s.ctx n).trail.mode = 0) (hq : (s.ctx n).trail.hostq = []) :
    ∃ t, exec (.hamperValid n) s = .next t ∧ (t.ctx n).state = .saved ∧ (t.ctx n).clmask = 0 ∧ (t.ctx n).saves = ((s.ctx n).saves + 1) % 2 ^ 64 ∧
      t.hbm.get ((s.ctx n).hamper + 6) = BitVec.ofNat 8 (1 + 2 * (s.ctx n).cls) ∧ t.cores = s.cores := by
  have h0 := State.ctx_settleStop_idle hn hs hcls hidle hinsts
  have hcores : (s.settleStop n).cores = s.cores := by rw [State.settleStop_idle hs hcls hidle hinsts]; rfl
  refine ⟨_, congrArg Host.Outcome.next (State.save_idle hn hs hcls hidle hinsts hm hmode hq), ?_⟩
  generalize s.settleStop n = s0 at h0 hcores ⊢
  have h1 : (s0.modCtx n fun c => { c with saves := (c.saves + 1) % 2 ^ 64 }).ctx n = { s.ctx n with saves := ((s.ctx n).saves + 1) % 2 ^ 64 } := by
    rw [State.ctx_modCtx_same _ hn, h0]
  have hcores1 : (s0.modCtx n fun c => { c with saves := (c.saves + 1) % 2 ^ 64 }).cores = s.cores := hcores
  generalize (s0.modCtx n fun c => { c with saves := (c.saves + 1) % 2 ^ 64 }) = s2 at h1 hcores1 ⊢
  have hbyte := s2.hbm_writeHamper (n := n) (by rw [h1]; exact hm) (by rw [h1]; exact hcls)
  have h2 : (s2.writeHamper n).ctx n = s2.ctx n := by rw [State.ctx, s2.ctxs_writeHamper]; rfl
  have hcores2 := s2.cores_writeHamper n
  generalize s2.writeHamper n = s3 at h2 hbyte hcores2 ⊢
  rw [State.enterSaved_hbm, State.enterSaved, State.ctx_cxGoto hn, State.ctx_modCtx_same _ hn, State.ctx_modCtx_same _ hn, State.modTrail,
    State.ctx_modCtx_same _ hn, h2, h1, State.cxGoto, (State.event_guideOnly _ _ _ _ _ _).cores]
  rw [h1] at hbyte
  exact ⟨rfl, rfl, rfl, hbyte, hcores2.trans hcores1⟩
end

/-- Where nothing asks for a stop there is nothing to save. -/
theorem State.save_bound {s : State} {n : Nat} (hs : (s.ctx n).state = .bound) : s.save n = s := by
  have hcls : (s.ctx n).stopCls = 0 := by rw [Ctx.stopCls, hs]
  have hstop : s.settleStop n = s := by
    unfold State.settleStop
    dsimp only
    rw [hcls, if_pos rfl]
  have hdone : s.stopDone n = false := by
    unfold State.stopDone
    dsimp only
    rw [hcls]
    rfl
  unfold State.save
  dsimp only
  rw [hstop, hdone]
  rfl
theorem State.scrubDone_bound {s : State} {n : Nat} (hs : (s.ctx n).state = .bound) : s.scrubDone n = s := by rw [State.scrubDone, hs]

end Sys2Proof.Machine
end

section
open Sys2Proof Sys2Proof.Machine

/-- Settles O49: commands end by their checks, what takes a context's resources away names what it clears, and a restore gives none and takes none. -/
theorem contextLife : Obligations.ContextLife := by
  unfold Obligations.ContextLife
  refine ⟨fun s op cxn vf hi hop hcxn => ⟨?_, ?_, ?_, ?_, ?_, ?_, ?_, ?_⟩, fun s op cxn hcxn => ⟨?_, ?_⟩⟩
  · exact fun hs hr hst hv => exec_bind_free hi hop hs hr hst hv
  · exact fun hs => exec_unbind_bound hi hop hs
  · exact fun hs hnp hcls ha => exec_preempt_running hi hop hs hnp hcls ha
  · exact fun hb hv hs => exec_vfFlr_bound hb hv hcxn hs
  · exact fun hb => (execVfFlr.eq_1 vf s).trans (congrArg Host.Outcome.next (if_pos hb))
  · exact fun hs hq => exec_scrubComplete_resetting hcxn hq hs
  · exact fun hs hq => exec_scrubComplete_tornDown hcxn hq hs
  · exact fun hs => ⟨congrArg Host.Outcome.next (State.scrubDone_bound hs), congrArg Host.Outcome.next (State.save_bound hs)⟩
  · exact fun hs hm hcls hidle hinsts hmode hq _ => exec_hamperValid_idle hcxn hs hcls hidle hinsts hm hmode hq
  · exact fun hi hn hs ha hh => exec_resume_saved hi hn hs ha hh

end

section
/-! Migration (R295, R436, R437): the commands and events on its source and target. -/
namespace Sys2Proof.Machine

theorem State.sendAbort_guideOnly (s : State) (n : Nat) : s.guideOnly (s.sendAbort n) := by
  unfold State.sendAbort
  split <;> rfl

/-- What the source has of a migration of a running context when MIGOUT has begun it. -/
def sourceMig (op : BitVec 496) : Mig :=
  { peer := opF op 1 2, peerCxn := opF op 3 1, threshold := opF op 4 8, limit := opF op 12 1, hamper := opF op 13 8, frw := opF op 21 1,
    step := 0, rounds := 0, round := none, w0 := 0, asked := false, stopBegun := false, saved := false, aborted := false }
theorem execMigout_running {s : State} {op : BitVec 496} (hs : (s.ctx (opCx op)).state = .running) :
    execMigout op s = s.command
      [s.cxIn (opCx op) [.running, .saved], (decide (opF op 1 2 ≤ 16383) && decide (1 ≤ opF op 12 1), 11), ((s.addrOk (opF op 13 8) 4096 4096).1, 11),
        (Config.targetReady (opF op 1 2) (opF op 3 1) s.free, 12),
        (mapOk (s.ctx (opCx op)).clmask.toNat (Config.targetClusters (opF op 1 2) (opF op 3 1) s.free).toNat, 7)] fun s =>
      ((s.tick 1).modCtx (opCx op) fun c => { c with mig := some (sourceMig op), track := c.track || true }).cxGoto (opCx op) .migOut := by
  have hsv : ((s.ctx (opCx op)).state == .saved) = false := by rw [hs]; rfl
  unfold execMigout
  dsimp only
  rw [hsv]
  rfl
/-- MIGOUT of a running context answers by what the target says. -/
theorem exec_migout_running {s : State} {op : BitVec 496} (hi : s.idleGuide) (hn : opCx op < 32) (hs : (s.ctx (opCx op)).state = .running)
    (hpeer : opF op 1 2 ≤ 16383) (hlim : 1 ≤ opF op 12 1) (ha : (s.addrOk (opF op 13 8) 4096 4096).1 = true) :
    let n := opCx op
    let c := s.ctx n
    ∃ t, exec (.migout op) s = .next t ∧ t.hbm = s.hbm ∧
      (Config.targetReady (opF op 1 2) (opF op 3 1) s.free = false → t.ended 1 12 ∧ s.guideOnly t) ∧
      (Config.targetReady (opF op 1 2) (opF op 3 1) s.free = true →
        (mapOk c.clmask.toNat (Config.targetClusters (opF op 1 2) (opF op 3 1) s.free).toNat = false → t.ended 1 7) ∧
        (mapOk c.clmask.toNat (Config.targetClusters (opF op 1 2) (opF op 3 1) s.free).toNat = true →
          t.ended 0 0 ∧ (t.ctx n).state = .migOut ∧ (t.ctx n).track = true)) := by
  intro n c
  have hcx : (s.cxIn n [.running, .saved]).1 = true := by simp [State.cxIn, n, hn, hs]
  obtain ⟨t, ht, hbad, hok⟩ := State.command_ends hi
    [s.cxIn n [.running, .saved], (decide (opF op 1 2 ≤ 16383) && decide (1 ≤ opF op 12 1), 11), ((s.addrOk (opF op 13 8) 4096 4096).1, 11),
      (Config.targetReady (opF op 1 2) (opF op 3 1) s.free, 12), (mapOk c.clmask.toNat (Config.targetClusters (opF op 1 2) (opF op 3 1) s.free).toNat, 7)]
    fun s => ((s.tick 1).modCtx n fun c => { c with mig := some (sourceMig op), track := c.track || true }).cxGoto n .migOut
  refine ⟨t, (execMigout_running hs).trans ht, ?_⟩
  clear ht
  generalize Config.targetReady (opF op 1 2) (opF op 3 1) s.free = ready at hbad hok ⊢
  generalize mapOk c.clmask.toNat (Config.targetClusters (opF op 1 2) (opF op 3 1) s.free).toNat = maps at hbad hok ⊢
  cases ready with
  | false =>
    obtain ⟨he, hg⟩ := hbad (false, 12) (by simp [hcx, hpeer, hlim, ha])
    exact ⟨hg.hbm, fun _ => ⟨he, hg⟩, nofun⟩
  | true =>
    cases maps with
    | false =>
      obtain ⟨he, hg⟩ := hbad (false, 7) (by simp [hcx, hpeer, hlim, ha])
      exact ⟨hg.hbm, nofun, fun _ => ⟨fun _ => he, nofun⟩⟩
    | true =>
      have hgo : t = _ := hok (by simp [hcx, hpeer, hlim, ha])
      refine ⟨?_, nofun, fun _ => ⟨nofun, fun _ => ⟨hgo ▸ State.mbEnd_ended _ _ _, ?_⟩⟩⟩
      · rw [hgo, State.mbEnd_hbm, State.cxGoto_hbm, State.modCtx_hbm, State.tick_hbm]
      · rw [hgo, State.mbEnd_ctx, State.ctx_cxGoto hn, State.ctx_modCtx_same _ hn]
        exact ⟨rfl, Bool.or_true _⟩

/-! STOP and ABORT. -/

section
variable {s : State} {op : BitVec 496} (hi : s.idleGuide) (hn : opCx op < 32)
include hi hn

theorem exec_abort_migIn (hs : (s.ctx (opCx op)).state = .migIn) :
    ∃ t, exec (.abort op) s = .next t ∧ t.ended 0 0 ∧ (t.ctx (opCx op)).state = .tornDown ∧ t.hbm = s.hbm := by
  refine ⟨_, (execAbort.eq_1 op s).trans (State.command_ok hi _ (by simp [State.cxIn, hn, hs])), State.mbEnd_ended _ _ _, ?_⟩
  rw [State.mbEnd_ctx, State.mbEnd_hbm, if_pos hs, State.ctx_cxGoto hn, State.cxGoto_hbm, State.sendAbort_hbm]
  exact ⟨rfl, rfl⟩
theorem exec_stop_migOut {m : Mig} (hs : (s.ctx (opCx op)).state = .migOut) (hm : (s.ctx (opCx op)).mig = some m) (hb : m.stopBegun = false) :
    ∃ t, exec (.stop op) s = .next t ∧ t.ended 0 0 ∧ (t.ctx (opCx op)).mig = some { m with asked := true } ∧ t.hbm = s.hbm := by
  refine ⟨_, (execStop.eq_1 op s).trans (State.command_ok hi _ (by simp [State.cxIn, hn, hs])), State.mbEnd_ended _ _ _, ?_⟩
  rw [State.mbEnd_ctx, State.mbEnd_hbm, State.modMig, State.ctx_modCtx_same _ hn, hm, Option.map_some, if_neg (by simp [hb]), State.modCtx_hbm]
  exact ⟨rfl, rfl⟩
end

/-- An abort before the stop lets the context go on (R437). -/
theorem State.abortSource_early {s : State} {n : Nat} {m : Mig} (hm : (s.ctx n).mig = some m) (hb : m.stopBegun = false) :
    s.abortSource n = (((s.stepEvent n (max m.step 1) true).modCtx n fun c => { c with mig := none, track := false, deferred := none }).cxGoto n .running) := by
  unfold State.abortSource
  rw [hm]
  dsimp only
  rw [hb]
  rfl
theorem State.ctx_abortSource {s : State} {n : Nat} (hn : n < 32) {m : Mig} (hm : (s.ctx n).mig = some m) (hb : m.stopBegun = false) :
    (s.abortSource n).ctx n = { s.ctx n with state := .running, mig := none, track := false, deferred := none } := by
  rw [State.abortSource_early hm hb, State.ctx_cxGoto hn, State.ctx_modCtx_same _ hn, (State.stepEvent_guideOnly _ _ _ _).ctx]
theorem exec_abort_migOut {s : State} {op : BitVec 496} (hi : s.idleGuide) (hn : opCx op < 32) {m : Mig} (hs : (s.ctx (opCx op)).state = .migOut)
    (hm : (s.ctx (opCx op)).mig = some m) (hb : m.stopBegun = false) :
    ∃ t, exec (.abort op) s = .next t ∧ t.ended 0 0 ∧ (t.ctx (opCx op)).state = .running ∧ (t.ctx (opCx op)).mig = none ∧ t.hbm = s.hbm := by
  refine ⟨_, (execAbort.eq_1 op s).trans (State.command_ok hi _ (by simp [State.cxIn, hn, hs])), State.mbEnd_ended _ _ _, ?_⟩
  have hm' : ((s.sendAbort (opCx op)).ctx (opCx op)).mig = some m := by rw [(s.sendAbort_guideOnly _).ctx]; exact hm
  rw [State.mbEnd_ctx, State.mbEnd_hbm, if_neg (by rw [hs]; decide), State.ctx_abortSource hn hm' hb, State.abortSource_hbm, State.sendAbort_hbm]
  exact ⟨rfl, rfl, rfl⟩

/-! The events. -/

section
variable {s : State} {n : Nat} {m : Mig} (hs : (s.ctx n).state = .migOut) (hm : (s.ctx n).mig = some m)
include hs

theorem exec_migrationAbortReceived_migOut : exec (.migrationAbortReceived n) s = .next (s.abortSource n) := by
  refine (execMigrationAbortReceived.eq_1 n s).trans (congrArg Host.Outcome.next ?_)
  rw [hs]
include hm
theorem exec_migrationResumeAck_last (hn : n < 32) (h5 : m.step = 5) :
    ∃ t, exec (.migrationResumeAck n) s = .next t ∧ (t.ctx n).state = .tornDown ∧ (t.ctx n).vf = 0 ∧ t.hbm = s.hbm := by
  have hgo : exec (.migrationResumeAck n) s =
      .next (((s.stepEvent n 7 false).modCtx n fun c => { c with vf := 0, track := false }).cxGoto n .tornDown) := by
    refine (execMigrationResumeAck.eq_1 n s).trans (congrArg Host.Outcome.next ?_)
    rw [hs, hm]
    exact if_pos h5
  refine ⟨_, hgo, ?_⟩
  rw [State.ctx_cxGoto hn, State.ctx_modCtx_same _ hn, State.cxGoto_hbm, State.modCtx_hbm, State.stepEvent_hbm]
  exact ⟨rfl, rfl, rfl⟩
theorem exec_migrationPrecopyRound_first (h0 : m.step = 0) (hb : m.stopBegun = false) (hr : m.rounds = 0) (hround : m.round = none) :
    exec (.migrationPrecopyRound n) s =
      .next (s.modMig n fun m => { m with w0 := (s.ctx n).trail.widx, round := some (s.ctx n).regionPages }) := by
  refine congrArg Host.Outcome.next ?_
  unfold State.precopy
  dsimp only
  rw [hs, hm]
  dsimp only
  rw [if_neg (by simp [h0, hb]), hround, hr]
  rfl
theorem exec_migrationStep_tail (hn : n < 32) (hsaved : m.saved = true) (h3 : m.step = 3) (hmode : (s.ctx n).trail.mode = 0) :
    ∃ t, exec (.migrationStep n) s = .next t ∧ (t.ctx n).mig = some { m with step := 4 } ∧ t.hbm = s.hbm := by
  have hgo : s.migStep n = (s.modMig n fun m => { m with step := 4 }).stepEvent n 4 false := by
    have htail : s.sendTail n m = s := by
      unfold State.sendTail
      exact if_pos hmode
    unfold State.migStep
    dsimp only
    rw [hs, hm]
    dsimp only
    rw [if_neg (by simp [h3]), hsaved, if_neg (by decide), if_neg (by omega), if_pos h3, htail]
  refine ⟨_, congrArg Host.Outcome.next hgo, ?_⟩
  rw [(State.stepEvent_guideOnly _ _ _ _).ctx, State.modMig, State.ctx_modCtx_same _ hn, hm, State.stepEvent_hbm, State.modCtx_hbm]
  exact ⟨rfl, rfl⟩
theorem exec_migrationStep_early (hsaved : m.saved = false) (h2 : m.step = 2) : exec (.migrationStep n) s = .next s := by
  refine congrArg Host.Outcome.next ?_
  unfold State.migStep
  dsimp only
  rw [hs, hm]
  dsimp only
  rw [if_neg (by simp [h2]), hsaved]
  rfl
end

end Sys2Proof.Machine
end

section
open Sys2Proof Sys2Proof.Machine

/-- Settles O51: each command ends by its first check that fails or acts, and each event by the step that the migration stands at. -/
theorem migration : Obligations.Migration := by
  unfold Obligations.Migration
  intro s op cxn hi hop hcxn n c
  refine ⟨?_, ?_, ?_, ?_, ?_, ?_, ?_⟩
  · exact fun hs hpeer hlim ha => exec_migout_running hi hop hs hpeer hlim ha
  · exact fun hs hr hst hpeer hne ha hap => exec_migin_free hi hop hs hr hst hpeer hne ha hap
  · exact fun hs => exec_abort_migIn hi hop hs
  · exact fun m hs hm hb => ⟨exec_stop_migOut hi hop hs hm hb, exec_abort_migOut hi hop hs hm hb⟩
  · exact fun hs hv => exec_rebind_migIn hi hop hs hv
  · intro hs
    refine (execMigrationAbortReceived.eq_1 cxn s).trans (congrArg Host.Outcome.next ?_)
    rw [hs]
  · intro m hs hm
    refine ⟨fun hb => ⟨_, exec_migrationAbortReceived_migOut hs, ?_⟩, fun h5 => exec_migrationResumeAck_last hs hm hcxn h5,
      fun h0 hb hr hround => exec_migrationPrecopyRound_first hs hm h0 hb hr hround, fun hsaved h3 hmode => exec_migrationStep_tail hs hm hcxn hsaved h3 hmode,
      fun hsaved h2 => exec_migrationStep_early hs hm hsaved h2⟩
    rw [State.ctx_abortSource hcxn hm hb]
    exact ⟨rfl, rfl⟩

end
